-- ==== Sys2Proof/Word.lean ====
section
/-! DEFINITION. The word types of the KX-8 and the identifiers of its units.
Registers are 64 bits wide (R9), bit 0 is least significant (R5), and multi-byte values are
little-endian (R6).  A unit is named by its plate and its index inside the plate (Tables 0.6, 1.1). -/
namespace Sys2Proof

/-- One byte of memory or of a message. -/
abbrev Byte := BitVec 8

/-- A control-space register value (R9). -/
abbrev Word := BitVec 64

/-- A vector register: 128 lanes of 32 bits, lane `k` at bits `[32k+31:32k]` (Table 6.2). -/
abbrev VReg := BitVec 4096

/-- A predicate register: one bit per lane (Table 6.2). -/
abbrev PReg := BitVec 128

/-- A hatch `h` of plate `p` (Table 0.6). -/
structure HatchId where
  p : Fin 8
  h : Fin 4
  deriving DecidableEq, Repr

/-- A physical core `c` of plate `p`; core `c` belongs to hatch `c div 9` (Table 0.6). -/
structure CoreId where
  p : Fin 8
  c : Fin 36
  deriving DecidableEq, Repr

/-- A DRAM stack `s` of plate `p` (Table 0.6). -/
structure StackId where
  p : Fin 8
  s : Fin 4
  deriving DecidableEq, Repr

/-- A margin region `r` of plate `p` (§11.1). -/
structure RegionId where
  p : Fin 8
  r : Fin 8
  deriving DecidableEq, Repr

/-- A router `q` of plate `p` (§9.1). -/
structure RouterId where
  p : Fin 8
  q : Fin 4
  deriving DecidableEq, Repr

/-- A user I/O bank `j` of plate `p` (§11.7). -/
structure BankId where
  p : Fin 8
  j : Fin 2
  deriving DecidableEq, Repr

/-- What issues bundles: a hatch sequencer (R25), or a core in stand-alone mode (R219). -/
inductive Issuer where
  | hatch (i : HatchId)
  | alone (i : CoreId)
  deriving DecidableEq, Repr

/-- The flat index of each unit, by which State keeps it. -/
def HatchId.key (i : HatchId) : Nat := 4 * i.p.val + i.h.val
def CoreId.key (i : CoreId) : Nat := 36 * i.p.val + i.c.val
def StackId.key (i : StackId) : Nat := 4 * i.p.val + i.s.val
def RegionId.key (i : RegionId) : Nat := 8 * i.p.val + i.r.val
def RouterId.key (i : RouterId) : Nat := 4 * i.p.val + i.q.val
def BankId.key (i : BankId) : Nat := 2 * i.p.val + i.j.val

/-- The hatch that physical core `c` belongs to: `c div 9` (Table 0.6). -/
def CoreId.hatch (i : CoreId) : HatchId :=
  { p := i.p, h := ⟨i.c.val / 9, by have := i.c.isLt; omega⟩ }

/-- The physical position of a core inside its hatch, 0–8 (R26). -/
def CoreId.pos (i : CoreId) : Nat := i.c.val % 9

/-- Physical core `9h + j` of a hatch (R26). -/
def HatchId.core (i : HatchId) (j : Fin 9) : CoreId :=
  { p := i.p, c := ⟨9 * i.h.val + j.val, by have := i.h.isLt; have := j.isLt; omega⟩ }

/-- Nat to Fin by reduction, for indices that a field of the right width supplies. -/
def fin (n : Nat) [NeZero n] (v : Nat) : Fin n := Fin.ofNat n v

end Sys2Proof
end

