-- ==== Sys2Proof/Syntax.lean ====
section
/-! DEFINITION. The commands of the KX-8: one constructor of `Instr` for each row of the table of
operations and events (spec/opcode_table.json), with the operands the row's rule names.  A command that
the physical world decides (a probe that finds a receiver, a temperature, a signature that verifies)
carries that outcome as an operand. -/
namespace Sys2Proof

/-- The arriving port class of a control-space access (Table 13.22, Table 14.2). -/
inductive PortClass where
  | management | fabric | tie | icp | testPort | complex
  deriving DecidableEq, Repr

/-- The fields of a vector slot (Table 6.7) other than the opcode. -/
structure VFields where
  fmt  : BitVec 4
  sat  : Bool
  pred : BitVec 3
  vd   : BitVec 5
  va   : BitVec 5
  vb   : BitVec 5
  vc   : BitVec 5
  sb   : Bool
  mod  : BitVec 3
  imm  : BitVec 24
  deriving DecidableEq, Repr

/-- The fields of a load or store slot (Table 6.10) other than the opcode. -/
structure LFields where
  r    : BitVec 5
  pred : BitVec 3
  cb   : BitVec 3
  mfmt : BitVec 4
  rfmt : BitVec 4
  sat  : Bool
  off  : BitVec 11
  step : BitVec 12
  deriving DecidableEq, Repr

/-- The fields of MWLOAD (Table 6.12). -/
structure MwFields where
  t     : Bool
  sp    : BitVec 5
  pair  : BitVec 4
  band  : BitVec 2
  step  : Bool
  kpred : BitVec 3
  wcb   : BitVec 3
  nb    : BitVec 3
  cols  : BitVec 7
  deriving DecidableEq, Repr

/-- The fields of MPASS (Table 6.12). -/
structure MpFields where
  t     : Bool
  sp    : BitVec 5
  pair  : BitVec 4
  band  : BitVec 2
  neww  : Bool
  add   : Bool
  sat   : Bool
  set   : BitVec 2
  kpred : BitVec 3
  cpred : BitVec 3
  nb    : BitVec 3
  even  : Bool
  ev    : BitVec 4
  acb   : BitVec 3
  deriving DecidableEq, Repr

/-- The fields of an accumulator-class operation (Table 6.14); `low` is bits [17:0]. -/
structure AFields where
  t   : Bool
  sp  : BitVec 5
  set : BitVec 2
  sat : Bool
  wen : Bool
  wev : BitVec 4
  sen : Bool
  sev : BitVec 4
  sg  : BitVec 5
  low : BitVec 18
  deriving DecidableEq, Repr

/-- The two units of the drain queue (R663). -/
inductive DrainUnit where
  | fast | vector
  deriving DecidableEq, Repr

/-- How the steward resolves a memory fault (R327): it maps the granule to a frame (an allocation), pages
it in from the twin mirror into a frame (R372), or declares the fault fatal. -/
inductive FaultResolution where
  | allocate (granule : BitVec 25) (frame : BitVec 25) (writable : Bool)
  | pageIn   (granule : BitVec 25) (frame : BitVec 25)
  | fatal
  deriving DecidableEq, Repr

/-- A fence token (Table 13.9); `reserved` is bytes 21–31. -/
structure FenceToken where
  target   : Word
  issuer   : Word
  epoch    : BitVec 32
  kind     : Byte
  reserved : List Byte
  deriving DecidableEq, Repr

/-- A HEARTBEAT body (Table 13.8). -/
structure HeartbeatMsg where
  mid      : Word
  epoch    : BitVec 32
  state    : Byte
  sentHi   : Word
  storedHi : Word
  deriving DecidableEq, Repr

/-- A PAIR body (Table 13.8); `ranges` are the durable ranges that follow a PROPOSE, as (granule, count). -/
structure PairMsg where
  rejoin  : Bool
  mid     : Word
  epoch   : BitVec 32
  version : BitVec 32
  cap     : Word
  ranges  : List (Nat × Nat)
  deriving DecidableEq, Repr

/-- The type of a journal record (Table 13.6). -/
inductive JType where
  | accept | commit | done | void
  deriving DecidableEq, Repr

/-- The five recorded modes of a commission (R53). -/
structure Modes where
  det     : Bool
  keep    : Bool
  checked : Bool
  kx4     : Bool
  spill   : BitVec 7
  deriving DecidableEq, Repr

/-- A journal record (Table 13.6).  `crcOk` says whether bytes 252–255 hold the CRC of bytes 0–251. -/
structure JRec where
  jseq     : Word
  time     : Word
  type     : JType
  modes    : Modes
  port     : Fin 8
  stream   : BitVec 16
  status   : Byte
  attempts : Byte
  seq      : BitVec 32
  body     : List Byte
  crcOk    : Bool
  deriving DecidableEq, Repr

/-- A mirror write (R369): the granule, the frame role, the proof slot, the offset and the bytes. -/
structure MirrorMsg where
  granule : BitVec 25
  proof   : Bool
  slot    : Byte
  offset  : BitVec 14
  bytes   : List Byte
  deriving DecidableEq, Repr

/-- The payload of a CAP block (Table 10.7). -/
structure CapMsg where
  cls     : Bool
  width8  : Bool
  robust  : Bool
  seen    : Bool
  held    : Bool
  nextrx  : BitVec 16
  rxcred  : BitVec 16
  version : BitVec 16
  mid     : Word
  port    : Byte
  deriving DecidableEq, Repr

/-- The Ethernet frame of a management datagram (R586): the port at which it arrives, whether it is IPv6, its destination address (an IPv4
address in the low 32 bits), and its length in bytes. -/
structure MgmtFrame where
  port  : Fin 2
  v6    : Bool
  dest  : BitVec 128
  bytes : Nat
  deriving DecidableEq, Repr

/-- The requester of a management command: its frame, the key of R589 (source address, source UDP port and REQID), the Ethernet source to
which the response goes, and whether the server is still executing commands that arrived before it (R588): how long a command takes is
timing. -/
structure MgmtReq where
  frame  : MgmtFrame
  source : BitVec 128
  udp    : BitVec 16
  reqid  : BitVec 32
  ether  : BitVec 48
  waits  : Bool
  deriving DecidableEq, Repr

/-- The arrival port of a request. -/
def MgmtReq.port (r : MgmtReq) : Fin 2 := r.frame.port

/-- A mesh port of a router (§9.1): codes 0–3 are N, E, S and W. -/
inductive Mesh where
  | n | e | s | w
  deriving DecidableEq, Repr

/-- A power domain of a plate (§9.6). -/
inductive Domain where
  | hatch  (h : Fin 4)
  | region (r : Fin 8)
  deriving DecidableEq, Repr

/-- What a command addressed at a commission names: (STREAM, SEQ) (§13.1). -/
structure CmsnKey where
  stream : BitVec 16
  seq    : BitVec 32
  deriving DecidableEq, Repr

/-- The results of a core's known-pattern test: as the steward finds the core, and again with the faulty row bypassed (R163, R567). -/
structure CoreTests where
  pass  : Bool
  sound : Bool
  deriving DecidableEq, Repr

/-- What stage 6 of start-up is given beside the trained stacks: the runs of frames of the reserve, and the cores that fail their test
(R40, R163). -/
structure StageSix where
  reserve : List (BitVec 25 × BitVec 25)
  bad     : List CoreId
  deriving DecidableEq, Repr

/-- One port's access to a margin RAM block in an edge pair (R464, R465): the word address, the data and
byte enables of a write, or a read. -/
structure RamPortOp where
  addr  : BitVec 12
  write : Bool
  data  : Word
  en    : Byte
  deriving DecidableEq, Repr

/-- The commands of the KX-8, in the table's order. -/
inductive Instr where
  /-- REGISTER_WRITE (R9): A control-space write to a register that has no row of its own is checked and stored, or discarded and counted. -/
  | registerWrite (src : PortClass) (addr : BitVec 40) (size : Nat) (v : Word)
  /-- W1C_CLEAR (R18): A software clear of a W1C flag takes effect in the owner domain after crossing; a set in the same owner cycle keeps the flag set. -/
  | w1cClear (addr : BitVec 40) (hwSet : Word)
  /-- HATCH_ENCCLR (R89): A write of CLR bits clears encoder counter slots; counts arriving in the same cycle remain. -/
  | hatchEncclr (i : HatchId) (clr : BitVec 16) (arriving : List (BitVec 4 × BitVec 32 × BitVec 32))
  /-- CORE_ROWMAP_WRITE (R160): A write to CORE_ROWMAP or CORE_SKEWn is accepted only in stand-alone mode, otherwise discarded and counted. -/
  | coreRowmapWrite (i : CoreId) (reg : Fin 17) (v : Word)
  /-- MXTEST_START (R161): CORE_MXTEST.START runs the known-pattern test of the matrix array in stand-alone mode. -/
  | mxtestStart (i : CoreId)
  /-- MXTEST_DONE (R162): The known-pattern test finishes, sets DONE and sets PASS when the check value equals CORE_MXGOLD. -/
  | mxtestDone (i : CoreId) (faulty : List (BitVec 8)) (otherFault : Bool)
  /-- SACTL_START (R219): CORE_SACTL.START starts a stand-alone program at ENTRY from the loop cache. -/
  | sactlStart (i : CoreId) (entry : BitVec 8) (keep kx4 : Bool)
  /-- SACTL_HALT (R222): CORE_SACTL.HALT halts a running stand-alone program with STATUS 5. -/
  | sactlHalt (i : CoreId)
  /-- HATCH_LAUNCH_WRITE (R346): A write to HATCH_LAUNCH queues a launch image, or is discarded when the queue is full or the address misaligned. -/
  | hatchLaunchWrite (i : HatchId) (v : Word)
  /-- HATCH_CORES_WRITE (R300): A write to HATCH_CORES sets core roles and logical indices when the hatch is idle and the indices are contiguous. -/
  | hatchCoresWrite (i : HatchId) (v : Word)
  /-- HATCH_TRACEBASE_WRITE (R298): A write to HATCH_TRACEBASE sets the trace ring and resets NEXT to 0. -/
  | hatchTracebaseWrite (i : HatchId) (v : Word)
  /-- BUNDLE_ISSUE (R25): The sequencer issues one bundle to every active core of the hatch in one core-clock cycle. -/
  | bundleIssue (q : Issuer)
  /-- BUNDLE_WAIT_RELEASE (R258): A held bundle whose sync-slot wait is satisfied issues its other slots. -/
  | bundleWaitRelease (q : Issuer)
  /-- BUNDLE_CACHE_FILL (R258): A bundle missing from the bundle cache arrives and issue resumes. -/
  | bundleCacheFill (i : HatchId)
  /-- RESULT_WRITEBACK (R266): An issued operation writes its register result L issue cycles after issue. -/
  | resultWriteback (q : Issuer)
  /-- SADD (R260): Scalar add, wrapping modulo 2^64. -/
  | sadd (q : Issuer) (rd ra rb : BitVec 5)
  /-- SSUB (R260): Scalar subtract, wrapping modulo 2^64. -/
  | ssub (q : Issuer) (rd ra rb : BitVec 5)
  /-- SMUL (R260): Scalar multiply keeping the low 64 bits. -/
  | smul (q : Issuer) (rd ra rb : BitVec 5)
  /-- SAND (R260): Scalar bitwise AND. -/
  | sand (q : Issuer) (rd ra rb : BitVec 5)
  /-- SOR (R260): Scalar bitwise OR. -/
  | sor (q : Issuer) (rd ra rb : BitVec 5)
  /-- SXOR (R260): Scalar bitwise XOR. -/
  | sxor (q : Issuer) (rd ra rb : BitVec 5)
  /-- SSHL (R260): Scalar logical left shift by rb[5:0]. -/
  | sshl (q : Issuer) (rd ra rb : BitVec 5)
  /-- SSHR (R260): Scalar logical right shift by rb[5:0]. -/
  | sshr (q : Issuer) (rd ra rb : BitVec 5)
  /-- SSRA (R260): Scalar arithmetic right shift by rb[5:0]. -/
  | ssra (q : Issuer) (rd ra rb : BitVec 5)
  /-- SMIN (R260): Scalar signed minimum. -/
  | smin (q : Issuer) (rd ra rb : BitVec 5)
  /-- SMAX (R260): Scalar signed maximum. -/
  | smax (q : Issuer) (rd ra rb : BitVec 5)
  /-- SLT (R260): Scalar signed less-than to 1 or 0. -/
  | slt (q : Issuer) (rd ra rb : BitVec 5)
  /-- SLTU (R260): Scalar unsigned less-than to 1 or 0. -/
  | sltu (q : Issuer) (rd ra rb : BitVec 5)
  /-- SADDI (R260): Scalar add of a signed immediate. -/
  | saddi (q : Issuer) (rd ra : BitVec 5) (imm : BitVec 16)
  /-- SSHLI (R260): Scalar logical left shift by an immediate. -/
  | sshli (q : Issuer) (rd ra : BitVec 5) (imm : BitVec 6)
  /-- SSHRI (R260): Scalar logical right shift by an immediate. -/
  | sshri (q : Issuer) (rd ra : BitVec 5) (imm : BitVec 6)
  /-- SSRAI (R260): Scalar arithmetic right shift by an immediate. -/
  | ssrai (q : Issuer) (rd ra : BitVec 5) (imm : BitVec 6)
  /-- SMINI (R260): Scalar signed minimum against an immediate. -/
  | smini (q : Issuer) (rd ra : BitVec 5) (imm : BitVec 16)
  /-- SMAXI (R260): Scalar signed maximum against an immediate. -/
  | smaxi (q : Issuer) (rd ra : BitVec 5) (imm : BitVec 16)
  /-- SBSET (R260): Sets one bit of a scalar register. -/
  | sbset (q : Issuer) (rd ra : BitVec 5) (imm : BitVec 6)
  /-- SBCLR (R260): Clears one bit of a scalar register. -/
  | sbclr (q : Issuer) (rd ra : BitVec 5) (imm : BitVec 6)
  /-- SMOVI (R260): Moves a sign-extended immediate into a scalar register. -/
  | smovi (q : Issuer) (rd : BitVec 5) (imm : BitVec 16)
  /-- SINS (R260): Inserts a 16-bit immediate into one halfword of a scalar register. -/
  | sins (q : Issuer) (rd : BitVec 5) (hw : BitVec 2) (imm : BitVec 16)
  /-- SMOVS (R261): Reads a selector value such as the core index, core count or timestamp. -/
  | smovs (q : Issuer) (rd : BitVec 5) (sel : BitVec 16)
  /-- SETCB (R214): Sets a circular buffer's base and length and its head to 0. -/
  | setcb (q : Issuer) (cb : BitVec 3) (ra rb : BitVec 5)
  /-- LOOP (R287): Starts a hardware loop with its count taken from a register. -/
  | loop (q : Issuer) (level : BitVec 2) (rc : BitVec 5) (len : BitVec 12)
  /-- LOOPI (R287): Starts a hardware loop with an immediate count. -/
  | loopi (q : Issuer) (level : BitVec 2) (count len : BitVec 12)
  /-- BR (R292): Branches on a signed condition of RA, with two empty bundles when taken. -/
  | br (q : Issuer) (cond : BitVec 3) (ra : BitVec 5) (off : BitVec 18)
  /-- VMOV (R205): Copies a vector register. -/
  | vmov (q : Issuer) (f : VFields)
  /-- VBCAST (R205): Broadcasts a scalar to every lane. -/
  | vbcast (q : Issuer) (f : VFields)
  /-- VIDX (R205): Writes 128 times the core index plus the lane number to each lane. -/
  | vidx (q : Issuer) (f : VFields)
  /-- VSEL (R205): Selects per lane between two registers by a predicate. -/
  | vsel (q : Issuer) (f : VFields)
  /-- VAND (R205): Lanewise bitwise AND. -/
  | vand (q : Issuer) (f : VFields)
  /-- VOR (R205): Lanewise bitwise OR. -/
  | vor (q : Issuer) (f : VFields)
  /-- VXOR (R205): Lanewise bitwise XOR. -/
  | vxor (q : Issuer) (f : VFields)
  /-- VNOT (R205): Lanewise bitwise NOT. -/
  | vnot (q : Issuer) (f : VFields)
  /-- VSHL (R665): Lanewise left shift by an immediate or scalar count. -/
  | vshl (q : Issuer) (f : VFields)
  /-- VSHRL (R665): Lanewise logical right shift. -/
  | vshrl (q : Issuer) (f : VFields)
  /-- VSHRA (R665): Lanewise arithmetic right shift. -/
  | vshra (q : Issuer) (f : VFields)
  /-- VCMP_EQ (R110): Compares lanes for equality into a predicate. -/
  | vcmpEq (q : Issuer) (f : VFields)
  /-- VCMP_NE (R110): Compares lanes for inequality into a predicate. -/
  | vcmpNe (q : Issuer) (f : VFields)
  /-- VCMP_LT (R110): Compares lanes for less-than into a predicate. -/
  | vcmpLt (q : Issuer) (f : VFields)
  /-- VCMP_LE (R110): Compares lanes for less-or-equal into a predicate. -/
  | vcmpLe (q : Issuer) (f : VFields)
  /-- VCMP_GT (R110): Compares lanes for greater-than into a predicate. -/
  | vcmpGt (q : Issuer) (f : VFields)
  /-- VCMP_GE (R110): Compares lanes for greater-or-equal into a predicate. -/
  | vcmpGe (q : Issuer) (f : VFields)
  /-- VADD (R207): Lanewise add with one rounding and the saturation bit. -/
  | vadd (q : Issuer) (f : VFields)
  /-- VSUB (R207): Lanewise subtract with one rounding and the saturation bit. -/
  | vsub (q : Issuer) (f : VFields)
  /-- VABS (R207): Lanewise absolute value. -/
  | vabs (q : Issuer) (f : VFields)
  /-- VNEG (R207): Lanewise negation. -/
  | vneg (q : Issuer) (f : VFields)
  /-- VMAX_P (R108): Lanewise NaN-propagating maximum. -/
  | vmaxP (q : Issuer) (f : VFields)
  /-- VMAX_N (R108): Lanewise number-form maximum. -/
  | vmaxN (q : Issuer) (f : VFields)
  /-- VMIN_P (R108): Lanewise NaN-propagating minimum. -/
  | vminP (q : Issuer) (f : VFields)
  /-- VMIN_N (R108): Lanewise number-form minimum. -/
  | vminN (q : Issuer) (f : VFields)
  /-- VMUL (R207): Lanewise multiply. -/
  | vmul (q : Issuer) (f : VFields)
  /-- VFMA (R207): Lanewise fused multiply-add with one rounding. -/
  | vfma (q : Issuer) (f : VFields)
  /-- VFMS (R207): Lanewise fused c minus a times b with one rounding. -/
  | vfms (q : Issuer) (f : VFields)
  /-- VMULQ (R211): Lanewise Q15 or Q31 multiply rounded to nearest even. -/
  | vmulq (q : Issuer) (f : VFields)
  /-- VCVT (R92): Converts lanes between formats with one rounding. -/
  | vcvt (q : Issuer) (f : VFields)
  /-- VROT (R212): Rotates lanes by an immediate or scalar amount. -/
  | vrot (q : Issuer) (f : VFields)
  /-- VRED_SUM (R213): Sums lanes in a fixed seven-level tree into every lane. -/
  | vredSum (q : Issuer) (f : VFields)
  /-- VRED_MAX_P (R213): Propagating maximum reduction across lanes. -/
  | vredMaxP (q : Issuer) (f : VFields)
  /-- VRED_MAX_N (R213): Number-form maximum reduction across lanes. -/
  | vredMaxN (q : Issuer) (f : VFields)
  /-- VRED_MIN_P (R213): Propagating minimum reduction across lanes. -/
  | vredMinP (q : Issuer) (f : VFields)
  /-- VRED_MIN_N (R213): Number-form minimum reduction across lanes. -/
  | vredMinN (q : Issuer) (f : VFields)
  /-- VTAP (R216): Performs one filter tap from circular buffers and steps both heads. -/
  | vtap (q : Issuer) (f : VFields)
  /-- EXP2 (R224): Special function 2^x. -/
  | exp2 (q : Issuer) (f : VFields)
  /-- LOG2 (R224): Special function log2 x. -/
  | log2 (q : Issuer) (f : VFields)
  /-- RCP (R224): Special function reciprocal. -/
  | rcp (q : Issuer) (f : VFields)
  /-- RSQ (R224): Special function reciprocal square root. -/
  | rsq (q : Issuer) (f : VFields)
  /-- SIGM (R224): Special function sigmoid. -/
  | sigm (q : Issuer) (f : VFields)
  /-- TANH (R224): Special function hyperbolic tangent. -/
  | tanh (q : Issuer) (f : VFields)
  /-- GGLU (R224): Special function x times the normal distribution. -/
  | gglu (q : Issuer) (f : VFields)
  /-- ERF (R224): Special function error function. -/
  | erf (q : Issuer) (f : VFields)
  /-- SINT (R237): Sine of an argument in turns. -/
  | sint (q : Issuer) (f : VFields)
  /-- COST (R237): Cosine of an argument in turns. -/
  | cost (q : Issuer) (f : VFields)
  /-- UFN (R232): Evaluates the active FUNC bank of a user table. -/
  | ufn (q : Issuer) (f : VFields)
  /-- POSC_S (R239): Sine position code from a position and a 64-bit frequency. -/
  | poscS (q : Issuer) (f : VFields)
  /-- POSC_C (R239): Cosine position code from a position and a 64-bit frequency. -/
  | poscC (q : Issuer) (f : VFields)
  /-- VLUT (R233): Reads the active LUT bank at each lane's index. -/
  | vlut (q : Issuer) (f : VFields)
  /-- VSTAT_CLR (R240): Clears a statistics set. -/
  | vstatClr (q : Issuer) (f : VFields)
  /-- VSTAT_ADD (R242): Folds one element per lane into a statistics set. -/
  | vstatAdd (q : Issuer) (f : VFields)
  /-- VSTAT_MEAN (R245): Writes the mean of each lane. -/
  | vstatMean (q : Issuer) (f : VFields)
  /-- VSTAT_VAR (R245): Writes the population or sample variance of each lane. -/
  | vstatVar (q : Issuer) (f : VFields)
  /-- VSTAT_MERGE (R243): Merges all lanes of a statistics set into lane 0. -/
  | vstatMerge (q : Issuer) (f : VFields)
  /-- PAND (R274): Predicate AND. -/
  | pand (q : Issuer) (f : VFields)
  /-- POR (R274): Predicate OR. -/
  | por (q : Issuer) (f : VFields)
  /-- PXOR (R274): Predicate XOR. -/
  | pxor (q : Issuer) (f : VFields)
  /-- PNOT (R274): Predicate NOT. -/
  | pnot (q : Issuer) (f : VFields)
  /-- PFIRST (R274): Sets the first n predicate bits and clears the rest. -/
  | pfirst (q : Issuer) (f : VFields)
  /-- VLD (R275): Loads 128 elements through a circular buffer with conversion. -/
  | vld (q : Issuer) (f : LFields)
  /-- SLD (R275): Loads 8 bytes into a scalar register. -/
  | sld (q : Issuer) (f : LFields)
  /-- PLD (R275): Loads 16 bytes into a predicate register. -/
  | pld (q : Issuer) (f : LFields)
  /-- TLOAD (R230): Loads a table image into a named bank. -/
  | tload (q : Issuer) (f : LFields)
  /-- TLOAD_COMPLETE (R230): A TLOAD finishes writing its bank. -/
  | tloadComplete (i : CoreId)
  /-- VSTAT_LOAD (R247): Restores a statistics set exactly from core store. -/
  | vstatLoad (q : Issuer) (f : LFields)
  /-- VSTAT_LOADM (R247): Merges saved records into a statistics set. -/
  | vstatLoadm (q : Issuer) (f : LFields)
  /-- VST (R275): Stores 128 elements through a circular buffer with conversion. -/
  | vst (q : Issuer) (f : LFields)
  /-- VST_E (R276): Encodes 128 lanes as four scaled blocks with their fine scales. -/
  | vstE (q : Issuer) (se : BitVec 5) (f : LFields)
  /-- SST (R275): Stores 8 bytes from a scalar register. -/
  | sst (q : Issuer) (f : LFields)
  /-- PST (R275): Stores 16 bytes from a predicate register. -/
  | pst (q : Issuer) (f : LFields)
  /-- VSTAT_SAVE (R247): Saves a statistics set to core store. -/
  | vstatSave (q : Issuer) (f : LFields)
  /-- FGET (R303): Queues a transfer from device memory to core store. -/
  | fget (q : Issuer) (sd : BitVec 5)
  /-- FPUT (R313): Queues a transfer from core store to device memory. -/
  | fput (q : Issuer) (sd : BitVec 5)
  /-- FRING (R316): Queues a collective ring transfer to the next core on the hatch ring. -/
  | fring (q : Issuer) (sd : BitVec 5)
  /-- FDROP (R314): Ends every FGET of the core by advancing the fetch epoch. -/
  | fdrop (q : Issuer)
  /-- FETCH_REQUEST_ISSUE (R312): The fetch engine issues one line request from the oldest transfer that can proceed. -/
  | fetchRequestIssue (i : CoreId)
  /-- TRANSFER_CREDIT_TAKE (R310): A transfer waiting for a credit takes it when the credit event count is above 0. -/
  | transferCreditTake (i : CoreId)
  /-- FETCH_RESPONSE (R320): A line response reaches the fetch engine and is written, or discarded by epoch. -/
  | fetchResponse (i : CoreId)
  /-- FRING_TILE_ARRIVE (R316): A ring tile arrives at the next core and its event is signalled. -/
  | fringTileArrive (i : CoreId)
  /-- EPOCH_ADVANCE (R321): A pending fetch-epoch advance completes once older requests carrying that value have returned. -/
  | epochAdvance (i : CoreId)
  /-- MWLOAD (R140): Queues a weight-tile load into the staged registers. -/
  | mwload (q : Issuer) (f : MwFields)
  /-- MPASS (R117): Queues a pass of M activation rows through the array into an accumulator set. -/
  | mpass (q : Issuer) (f : MpFields)
  /-- MATRIX_OP_START (R135): A matrix-queue operation leaves the queue and starts in the array. -/
  | matrixOpStart (i : CoreId)
  /-- WEIGHT_LOAD_COMPLETE (R141): A weight tile finishes staging. -/
  | weightLoadComplete (i : CoreId)
  /-- MPASS_COMPLETE (R139): A pass writes its last result and signals its completion event. -/
  | mpassComplete (i : CoreId)
  /-- ACLR (R167): Clears a range of accumulator entries to the reset state. -/
  | aclr (q : Issuer) (f : AFields)
  /-- ASAVE (R176): Writes a range of entries and optional row states as a wide-buffer image. -/
  | asave (q : Issuer) (f : AFields)
  /-- ALOAD (R177): Restores entries and optional row states exactly from an image. -/
  | aload (q : Issuer) (f : AFields)
  /-- ACHAIN_SEND (R180): Sends closed values of entries as a chain block to the ring or a buffer. -/
  | achainSend (q : Issuer) (f : AFields)
  /-- ACHAIN_RECV (R178): Folds an incoming chain block into a range of entries. -/
  | achainRecv (q : Issuer) (f : AFields)
  /-- CHAIN_BLOCK_ARRIVE (R201): A chain block arrives over the hatch ring, or is discarded for a stale epoch. -/
  | chainBlockArrive (i : CoreId)
  /-- CHAIN_TIMEOUT (R180): A ring ACHAIN.RECV that waited 2^20 cycles sets CHAINTO and aborts for re-run. -/
  | chainTimeout (i : CoreId)
  /-- FDRAIN (R187): Fast drain combines closed values with g and a second tensor and writes them. -/
  | fdrain (q : Issuer) (f : AFields)
  /-- VDRAIN (R188): Vector drain applies scale, bias, function and conversion to entries. -/
  | vdrain (q : Issuer) (f : AFields)
  /-- SRESET (R195): Resets softmax row states. -/
  | sreset (q : Issuer) (f : AFields)
  /-- SOFTMAX_SMAX (R196): Updates each row's running maximum and rescale factor. -/
  | softmaxSmax (q : Issuer) (f : AFields)
  /-- SEXP (R196): Writes exponentials of scores and updates each row's running sum. -/
  | sexp (q : Issuer) (f : AFields)
  /-- SSCALE (R196): Rescales entries of each row by alpha. -/
  | sscale (q : Issuer) (f : AFields)
  /-- SFIN (R196): Writes each entry divided by the row's running sum. -/
  | sfin (q : Issuer) (f : AFields)
  /-- DRAIN_OP_START (R663): A drain-queue operation starts on its unit in issue order once its event wait is met. -/
  | drainOpStart (i : CoreId)
  /-- DRAIN_OP_COMPLETE (R194): A drain-queue operation finishes and signals its completion event. -/
  | drainOpComplete (i : CoreId) (u : DrainUnit)
  /-- EVWAIT (R258): Holds the bundle until the event count is above 0 in every active core. -/
  | evwait (q : Issuer) (e : BitVec 4)
  /-- EVSIG (R283): Signals an event in this core or the ring successor. -/
  | evsig (q : Issuer) (dest : Bool) (e : BitVec 4)
  /-- EVSIG_DELIVER (R283): The signalled event count rises 4 cycles later, or overflows as EVOVF. -/
  | evsigDeliver (i : CoreId)
  /-- BAR_H (R258): Holds the bundle until every earlier write of the hatch is complete. -/
  | barH (q : Issuer)
  /-- BAR_P (R413): Sends a plate-barrier arrival after a hatch barrier. -/
  | barP (q : Issuer) (g : BitVec 4)
  /-- BAR_M (R413): Sends a module-barrier arrival after a hatch barrier. -/
  | barM (q : Issuer) (g : BitVec 4)
  /-- BARRIER_TIMEOUT (R285): A barrier that waited 2^22 cycles sets BARTO and aborts for re-run. -/
  | barrierTimeout (i : HatchId)
  /-- HQTAKE (R330): Takes the oldest handle from the free list or published FIFO. -/
  | hqtake (q : Issuer) (sd : BitVec 5) (b : BitVec 4)
  /-- HQPUB (R331): Publishes a handle after a hatch barrier. -/
  | hqpub (q : Issuer) (sa : BitVec 5) (b : BitVec 4)
  /-- HQFREE (R332): Returns a held handle to the free list with GEN increased. -/
  | hqfree (q : Issuer) (sa : BitVec 5) (b : BitVec 4)
  /-- TSWAP (R235): Makes a table's shadow bank active at the next boundary once loads and drains are done. -/
  | tswap (q : Issuer) (t : BitVec 2)
  /-- TRACE (R298): Writes a trace record of kind 6. -/
  | trace (q : Issuer) (code : BitVec 8)
  /-- HALT (R222): Halts a stand-alone program with STATUS 2. -/
  | halt (q : Issuer)
  /-- END (R286): Ends the kernel once queues are empty and writes complete, and reports to the engine. -/
  | endOp (q : Issuer)
  /-- CORE_CVCTL_START (R392): Starts a check-value run over core store or device memory. -/
  | coreCvctlStart (i : CoreId) (v : Word)
  /-- CV_RUN_COMPLETE (R391): A check-value run finishes with its CRC, or ends on a fault. -/
  | cvRunComplete (i : CoreId)
  /-- COMMISSION (R528): A COMMISSION message is classified, checked and accepted or refused. -/
  | commission (port : Fin 8) (k : CmsnKey) (body : List Byte)
  /-- TIE_TIMEOUT (R44): No JACK within 2 µs refuses the commission and sends a VOID record. -/
  | tieTimeout (k : CmsnKey)
  /-- PROOF_SLOT_OPEN (R362): A waiting commission opens its proof slot and moves to READY. -/
  | proofSlotOpen (k : CmsnKey)
  /-- PLAN_LAUNCH (R341): The planner launches the first ready commission on enough hatches. -/
  | planLaunch (p : Fin 8)
  /-- PREEMPT_SAVE_COMPLETE (R572): A victim hatch finishes saving its state. -/
  | preemptSaveComplete (i : HatchId)
  /-- RESUME (R574): A victim resumes on its hatches once the launcher has ended, or is aborted. -/
  | resume (k : CmsnKey)
  /-- LOADER_CHECK (R346): The loader checks a launch image at the head of the launch queue and starts the kernel. -/
  | loaderCheck (i : HatchId)
  /-- STEWARD_RELEASE (R535): The steward releases a held commission for re-run, or it ends with RETRY_LIMIT. -/
  | stewardRelease (k : CmsnKey)
  /-- STEWARD_FAULT_RESOLVE (R327): The steward resolves a memory fault by allocation, page-in or FATAL. -/
  | stewardFaultResolve (k : CmsnKey) (r : FaultResolution)
  /-- COMMIT_START (R539): A finished commission enters COMMITTING when its predecessor has committed. -/
  | commitStart (k : CmsnKey)
  /-- COMMIT_RESEND (R541): A COMMIT record without JACK is resent every 2 µs. -/
  | commitResend (k : CmsnKey)
  /-- COMPLETION_ACKED (R543): The link layer acknowledges the COMPLETION; a DONE record is written and records freed. -/
  | completionAcked (k : CmsnKey)
  /-- PROOF_STATE_SYNC (R365): A plate's translation caches take a proof-slot state change and acknowledge it. -/
  | proofStateSync (p : Fin 8)
  /-- CMSN_CANCEL_GO (R538): CMSN_CANCEL.GO cancels the named commission by its state. -/
  | cmsnCancelGo (k : CmsnKey)
  /-- JOURNAL (R545): The twin stores a journal record in order and acknowledges it. -/
  | journal (r : JRec)
  /-- JACK (R530): A JACK covers journal records, allowing acceptance or commit to proceed. -/
  | jack (hi : Word)
  /-- MIRROR (R369): The twin applies a mirror write to its mirror of a durable granule. -/
  | mirror (w : MirrorMsg)
  /-- MACK (R370): A mirror acknowledgement arrives. -/
  | mack (granule : BitVec 25)
  /-- HEARTBEAT_SEND (R554): Each module sends a HEARTBEAT every 1 ms on each Active tie port. -/
  | heartbeatSend
  /-- HEARTBEAT (R554): A received heartbeat of the current epoch restarts the loss count, or resumes PAIRED. -/
  | heartbeat (h : HeartbeatMsg)
  /-- HEARTBEAT_LOSS (R554): HBMISS missed periods declare heartbeat loss and move PAIRED to ISOLATED. -/
  | heartbeatLoss
  /-- PAIR_PROPOSE (R553): A PROPOSE is checked against mirror capacity and address ranges, answered AGREE or REFUSE. -/
  | pairPropose (m : PairMsg)
  /-- PAIR_AGREE (R553): An AGREE fixes the epoch and starts the durable-region copy. -/
  | pairAgree (m : PairMsg)
  /-- PAIR_REFUSE (R553): A REFUSE returns both sides to SOLO. -/
  | pairRefuse (m : PairMsg)
  /-- PAIR_READY (R553): A READY completes pairing when both sides have received it. -/
  | pairReady (m : PairMsg)
  /-- DURABLE_COPY_COMPLETE (R553): The copy of durable regions to the twin completes and READY is sent. -/
  | durableCopyComplete
  /-- PAIR_DETACH (R557): A DETACH from the partner stops acceptance and drains own commissions. -/
  | pairDetach (m : PairMsg)
  /-- PAIR_DETACHED (R557): A DETACHED deletes partner ring and mirrors and enters SOLO. -/
  | pairDetached (m : PairMsg)
  /-- PAIR_TIMEOUT (R553): PAIR_TO expires in PAIRING and the module returns to SOLO. -/
  | pairTimeout
  /-- DETACH_TIMEOUT (R557): DETACH_TO expires in DETACHING and the module returns to PAIRED. -/
  | detachTimeout
  /-- FENCE (R558): A FENCE message delivers a fence token over the tie, validated and counted if invalid. -/
  | fence (t : FenceToken)
  /-- FAULT_RECORD (R565): A fault record reaches the global fault collector and is latched or counted. -/
  | faultRecord
  /-- FAULT_WINDOW_END (R566): At the end of a 1 ms window the open bank is ranked, closed and interrupts, or extends. -/
  | faultWindowEnd
  /-- GFC_RELEASE (R566): GFC_CTL.RELEASE releases the closed bank. -/
  | gfcRelease
  /-- STEWARD_INCIDENT (R567): The steward tests the ranked suspect and applies its recovery policy. -/
  | stewardIncident (entry : Fin 256) (tests : CoreTests) (faultyRow : Option (BitVec 7))
  /-- STEWARD_ROUTE_REWRITE (R403): The steward rewrites route entries around a failed link group. -/
  | stewardRouteRewrite (i : RouterId) (e : Fin 256)
  /-- PAGE_IN_COMPLETE (R372): A granule paged in from the twin mirror becomes valid again. -/
  | pageInComplete (granule : BitVec 25)
  /-- WALK_COMPLETE (R353): A map walk returns an entry, faulting on invalid or malformed entries. -/
  | walkComplete (p : Fin 8)
  /-- XLT_INVAL_GO (R359): XLT_INVAL.GO invalidates granules in the plate's caches and walks. -/
  | xltInvalGo (p : Fin 8) (v : Word)
  /-- XLT_INVAL_DONE (R359): An invalidation completes and sets DONE. -/
  | xltInvalDone (p : Fin 8)
  /-- DRAM_SCHEDULE (R377): In each controller cycle each channel serves one request by priority. -/
  | dramSchedule (i : StackId) (ch : Fin 16)
  /-- PANIC_DEADLINE_MISS (R378): A panicking port not served within 200 ns sets STACK_ERR.DEADLINE. -/
  | panicDeadlineMiss (i : StackId) (port : Fin 16) (cycles : BitVec 32)
  /-- PAGE_IDLE_CLOSE (R375): A bank closes its open row after IDLE cycles without access. -/
  | pageIdleClose (i : StackId) (ch : Fin 16) (sid : Fin 3) (bank : Fin 16)
  /-- REFRESH (R388): The controller refreshes rows at the rate set by stack temperature. -/
  | refresh (i : StackId) (temp : BitVec 8)
  /-- PATROL_READ (R385): The patrol reads and corrects units at lowest priority. -/
  | patrolRead (i : StackId)
  /-- STACK_RETIRE_GO (R386): STACK_RETIRE.GO starts copying a row to a spare row. -/
  | stackRetireGo (i : StackId) (v : Word)
  /-- ROW_RETIRE_COMPLETE (R386): The copy completes and the mapping is entered, or fails with RETFULL. -/
  | rowRetireComplete (i : StackId)
  /-- STACK_RESET_COMPLETE (R389): A stack controller finishes retraining after a reset, or fails to. -/
  | stackResetComplete (i : StackId) (trained : Bool)
  /-- PACKET_HOP (R401): A router or hub forwards a packet by its route string. -/
  | packetHop (i : RouterId)
  /-- LINK_REPLAY (R409): A link replays a flit whose CRC fails. -/
  | linkReplay (i : RouterId) (m : Mesh) (l : Fin 8)
  /-- LINK_DOWN (R409): A link exceeding RMAX replays or losing training goes down. -/
  | linkDown (i : RouterId) (m : Mesh) (l : Fin 8)
  /-- LINK_UP (R410): A link comes back up and the group rehashes. -/
  | linkUp (i : RouterId) (m : Mesh) (l : Fin 8)
  /-- RESPONSE_TIMEOUT (R412): A request without response after RTO completes with UNREACH. -/
  | responseTimeout (a tag : BitVec 10)
  /-- NET_RTE_WRITE (R403): A route-table write is checked and stored or refused with BADROUTE. -/
  | netRteWrite (i : RouterId) (e : Fin 256) (v : Word)
  /-- BARR (R414): A barrier arrival counts toward its group and releases all when complete. -/
  | barr (p : Option (Fin 8))
  /-- BREL (R414): A barrier release lets the waiting barrier bundle issue. -/
  | brel (i : HatchId)
  /-- NET_PWR_WRITE (R418): A write to NET_PWR requests sleep or wakes a domain. -/
  | netPwrWrite (p : Fin 8) (v : Word)
  /-- DOMAIN_SLEEP_ENTER (R418): A domain with a sleep request enters sleep once idle. -/
  | domainSleepEnter (p : Fin 8) (d : Domain)
  /-- DOMAIN_WAKE_COMPLETE (R415): A waking domain is awake and its entry queue drains in order. -/
  | domainWakeComplete (p : Fin 8) (d : Domain)
  /-- PORT_DETECT (R439): An enabled port enters Detect and samples its configuration. -/
  | portDetect (k : Fin 10)
  /-- DETECT_PROBE (R421): Every 100 µs the port probes for receivers and moves to Train when lanes are present. -/
  | detectProbe (k : Fin 10) (present : BitVec 16)
  /-- DETECT_WIDTH_TIMEOUT (R421): 10 ms after lanes 0–7 appear the port enters Train at width 16 or 8. -/
  | detectWidthTimeout (k : Fin 10)
  /-- TRAIN_TIME_EXPIRE (R438): TRAIN_TIME elapses and the port enters Lock. -/
  | trainTimeExpire (k : Fin 10)
  /-- BLOCK_RECEIVE (R432): A lane receives a block, de-stuffs, locks or loses lock and passes it on. -/
  | blockReceive (k : Fin 10) (lane : Fin 16) (symbols : List (Fin 4))
  /-- AM_BLOCK (R429): An alignment marker seeds or checks the descrambler and deskews the port. -/
  | amBlock (k : Fin 10) (lane : Fin 16) (payload : BitVec 256)
  /-- MARKER_ROW_SEND (R434): Every 16,384 blocks each lane sends an AM and four IDLE blocks. -/
  | markerRowSend (k : Fin 10)
  /-- LOCK_TIMEOUT (R437): LOCK_TO expires in Lock; TIMEOUT is set and the port returns to Detect. -/
  | lockTimeout (k : Fin 10)
  /-- CAP_SEND (R440): In Exchange the port sends a CAP once per 64 blocks. -/
  | capSend (k : Fin 10)
  /-- CAP_BLOCK (R440): A received CAP settles class, width and protection and may enter Active. -/
  | capBlock (k : Fin 10) (c : CapMsg)
  /-- EXCHANGE_TIMEOUT (R440): EXCH_TO expires in Exchange and the port returns to Detect. -/
  | exchangeTimeout (k : Fin 10)
  /-- PARCEL_RECEIVE (R447): A parcel is checked, accepted in sequence, or discarded with a NAK. -/
  | parcelReceive (k : Fin 10) (bytes : List Byte)
  /-- ACK_IDLE_NULL (R447): After ACK_IDLE of quiet time a NULL parcel reports ACK, NAK and CREDIT. -/
  | ackIdleNull (k : Fin 10)
  /-- REPLAY_TIMEOUT (R447): REPLAY_TO expires for the oldest unacknowledged parcel and a replay starts, or RETRYMAX retrains. -/
  | replayTimeout (k : Fin 10)
  /-- HOLD_EXPIRE (R448): HOLD expires after leaving Active and link state is cleared. -/
  | holdExpire (k : Fin 10)
  /-- NIURI_RETRAIN (R441): NIURI_CTL.RETRAIN retrains an Active port. -/
  | niuriRetrain (k : Fin 10)
  /-- NIURI_ENABLE_WRITE (R448): Writing ENABLE 0 holds the port in Idle and clears link state. -/
  | niuriEnableWrite (k : Fin 10) (v : Word)
  /-- NIURI_LANE_POLL (R56): The steward reads lane counts each second and changes protection or width. -/
  | niuriLanePoll (k : Fin 10)
  /-- DWRITE (R582): A fabric data write is checked against the windows and written line by line. -/
  | dwrite (port : Fin 8) (k : CmsnKey) (body : List Byte)
  /-- DREAD (R582): A fabric data read is checked and answered with DREADRSP. -/
  | dread (port : Fin 8) (k : CmsnKey) (body : List Byte)
  /-- REGION_NET_RD (R471): User logic reads a device line through the region's network port. -/
  | regionNetRd (i : RegionId) (addr : BitVec 39) (tag : Byte)
  /-- REGION_NET_WR (R471): User logic writes a device line through the region's network port. -/
  | regionNetWr (i : RegionId) (addr : BitVec 39) (data : List Byte) (en : BitVec 128) (tag : Byte)
  /-- REGION_HQTAKE (R334): A region takes a handle at its handle-queue port. -/
  | regionHqtake (i : RegionId) (b : Fin 8)
  /-- REGION_HQPUB (R334): A region publishes a handle once its earlier writes complete. -/
  | regionHqpub (i : RegionId) (b : Fin 8) (handle : Word)
  /-- REGION_HQFREE (R334): A region returns a handle to the free list. -/
  | regionHqfree (i : RegionId) (b : Fin 8) (handle : Word)
  /-- HQ_TIMEOUT (R337): A take or publish waiting TOUT sets STALL and ends the commission with HQ_STALL. -/
  | hqTimeout (p : Fin 8) (q : Byte)
  /-- HQ_CFG_WRITE (R348): A write to HQ_POOL or HQ_CFG configures a quiescent queue and fills its free list. -/
  | hqCfgWrite (p : Fin 8) (q : Byte) (cfg : Bool) (v : Word)
  /-- HQ_CTL_RESET (R338): HQ_CTL.RESET returns every handle to the free list. -/
  | hqCtlReset (p : Fin 8) (q : Byte)
  /-- PLAN_BASE_WRITE (R339): A write to PLAN_BASE is checked and stored or discarded whole. -/
  | planBaseWrite (p : Fin 8) (v : Word)
  /-- PLAN_KREG_WRITE (R666): A write to PLAN_KREG sets the resident kernel region or is discarded. -/
  | planKregWrite (p : Fin 8) (v : Word)
  /-- USER_CTL_ACCESS (R475): An access to the user control window is forwarded to user logic. -/
  | userCtlAccess (i : RegionId) (off : BitVec 15) (write : Bool) (v : Word)
  /-- USER_CTL_TIMEOUT (R475): An unanswered forwarded access times out after CTL_TO and sets CTLTO. -/
  | userCtlTimeout (i : RegionId)
  /-- MARGIN_RAM_ACCESS (R464): A margin RAM port reads or writes a word at its clock edge. -/
  | marginRamAccess (i : RegionId) (block : Byte) (a b : Option RamPortOp) (within150 : Bool) (bFirst : Bool)
  /-- GATE_REQ_WRITE (R467): A write of GATE_REQ opens or closes a configured region's gates. -/
  | gateReqWrite (i : RegionId) (v : Word)
  /-- MRG_CLK_WRITE (R462): A write to MRG_CLKn enables or retunes a clock generator while gates are closed. -/
  | mrgClkWrite (i : RegionId) (n : Fin 4) (v : Word)
  /-- CLKGEN_LOCK (R462): A region clock generator locks and its output starts. -/
  | clkgenLock (i : RegionId) (n : Fin 4)
  /-- MRG_QBIND_WRITE (R474): A write to MRG_QBIND is accepted only while the region holds no handle. -/
  | mrgQbindWrite (i : RegionId) (v : Word)
  /-- ICP_START (R507): ICP_CTL.START begins a partial load from ICP_SRC. -/
  | icpStart (i : RegionId)
  /-- ICP_USER_START (R507): User logic presents a stream address and begins a partial load. -/
  | icpUserStart (i : RegionId) (addr : BitVec 39)
  /-- MANIFEST_CHECK (R508): The channel finishes checking the manifest and rejects or starts the load. -/
  | manifestCheck (i : RegionId)
  /-- PARTIAL_RECORD_FETCH (R510): A data record is fetched and its frame written, or the load aborts. -/
  | partialRecordFetch (i : RegionId)
  /-- PARTIAL_LOAD_COMPLETE (R511): A load that passes DDIGEST initialises registers, updates the golden copy and closes. -/
  | partialLoadComplete (i : RegionId)
  /-- SCRUB_FRAME_CHECK (R517): Every PACE cycles the scrubber reads a frame and checks its signature. -/
  | scrubFrameCheck (p : Fin 8) (minority : Option (Fin 3))
  /-- SWEEP_WATCH (R522): Every 10 ms the steward checks sweeps and resets a stalled scrubber. -/
  | sweepWatch (p : Fin 8)
  /-- HATCH_RESET (R633): A per-function reset of a hatch stops it, aborts its commission and clears its state. -/
  | hatchReset (i : HatchId)
  /-- STACK_RESET (R389): A per-function reset of a stack controller fails queued requests and retrains. -/
  | stackReset (i : StackId)
  /-- REGION_RESET (R470): A per-function reset of a region closes gates, aborts and reinitialises it. -/
  | regionReset (i : RegionId)
  /-- SCRUBBER_RESET (R522): A per-function reset of the scrubber restarts the sweep. -/
  | scrubberReset (p : Fin 8)
  /-- NIURI_PORT_RESET (R457): A per-function reset of a port discards buffers and returns it to Detect. -/
  | niuriPortReset (k : Fin 10)
  /-- MGMT_PORT_RESET (R631): A per-function reset of a management port restarts its PCS. -/
  | mgmtPortReset (m : Fin 2)
  /-- CMSN_ENGINE_RESET (R547): A per-function reset of the commission engine rebuilds its state from the own ring. -/
  | cmsnEngineReset
  /-- FUNC_RESET_COMPLETE (R631): A per-function reset completes and its busy bit clears. -/
  | funcResetComplete (index : BitVec 12)
  /-- CLKMODE_WRITE (R611): A write of REQ or STW changes a plate's slowest request. -/
  | clkmodeWrite (lim : Bool) (v : Word)
  /-- CLOCK_SWITCH (R612): The idle PLL locks and the plate switches clock at bundle boundaries. -/
  | clockSwitch (p : Fin 8)
  /-- POWER_CAP_STEP (R615): Power above CAP for 10 ms slows the cap component by one mode. -/
  | powerCapStep (power : BitVec 16)
  /-- POWER_CAP_RELEASE (R615): Power below 95% of CAP for 1 s speeds the cap component by one mode. -/
  | powerCapRelease (power : BitVec 16)
  /-- THERMAL_HOT (R615): TJ at 100 °C slows the plate's thermal component each 1 ms. -/
  | thermalHot (p : Fin 8) (tj : BitVec 16)
  /-- THERMAL_RELEASE (R615): TJ below 97 °C for 1 s speeds the thermal component by one mode. -/
  | thermalRelease (p : Fin 8) (tj : BitVec 16)
  /-- TRIP_PLATE (R615): TJ at 105 °C stops the plate core clock and aborts its commissions. -/
  | tripPlate (p : Fin 8) (tj : BitVec 16)
  /-- TRIP_MODULE (R615): A sensor at 110 °C fences the module and stops every plate clock. -/
  | tripModule (p : Fin 8)
  /-- PLATE_RESTART (R615): GLB_CLKLIM.RESTART restarts a tripped plate once it has cooled. -/
  | plateRestart (p : Fin 8) (tj : BitVec 16)
  /-- LOWIN_ENTER (R640): V48 between 38 and 40 V for 10 ms sets the input component to Thrift. -/
  | lowinEnter
  /-- LOWIN_RELEASE (R640): V48 at 40 V for 1 s returns the input component to Full. -/
  | lowinRelease
  /-- V48_RISE (R617): The 48 V input reaches 40 V and PWR_OK rises once rails regulate. -/
  | v48Rise (railsOk : Bool)
  /-- INPUT_FAIL (R621): Input below 38 V for 100 µs or a rail loss drops PWR_OK and resets. -/
  | inputFail
  /-- VAUX33_FAIL (R641): VAUX33 below 3.0 V resets the module with cause PWRFAIL. -/
  | vaux33Fail
  /-- VAUX18_FAIL (R642): VAUX18 below 1.6 V fails a flash read or upload with FLASH. -/
  | vaux18Fail
  /-- VCCO_LOSS (R644): A bank's VCCO leaving limits tri-states its pins. -/
  | vccoLoss (i : BankId)
  /-- VCCO_RETURN (R644): A bank's VCCO returning restores its pins within 10 µs. -/
  | vccoReturn (i : BankId) (level : Byte)
  /-- SREF_LOSS (R622): Loss of the system reference for 10 µs starts a module reset with CLKLOSS. -/
  | srefLoss
  /-- COLD_HOLD (R659): Junction sensors below 0 °C hold the module in reset. -/
  | coldHold
  /-- RESET_N_LOW (R620): RESET_N low for 1 µs starts a module reset. -/
  | resetNLow
  /-- LEAVE_RESET (R619): 100 µs after RESET_N and PWR_OK rise the module leaves reset and samples straps. -/
  | leaveReset (bootsel : BitVec 2) (testkeep : Bool)
  /-- BOOT_ROM_START (R499): The boot ROM selects, verifies and loads a Svapin image. -/
  | bootRomStart (answers : Bool) (flashOk : Bool)
  /-- PLATE (R490): Stream command selecting the plate for later commands. -/
  | plateCmd (p : Fin 8)
  /-- FRAME (R492): Stream command writing one frame. -/
  | frame (addr : BitVec 24) (data : BitVec 1024)
  /-- FRAMES (R491): Stream command writing a run of frames. -/
  | frames (first : BitVec 32) (data : List (BitVec 1024))
  /-- REPEAT (R492): Stream command writing one frame at a list of addresses. -/
  | repeatCmd (data : BitVec 1024) (addrs : List (BitVec 32))
  /-- ZERO (R491): Stream command writing a run of zero frames. -/
  | zero (n : Nat) (first : BitVec 32)
  /-- REGION (R495): Stream command setting a region's frame window. -/
  | region (r : Fin 8) (win : Word)
  /-- BLOB (R496): Stream command writing plate-store data or staging DRAM data. -/
  | blob (dram : Bool) (dest : Word) (data : List Byte)
  /-- REG (R497): Stream command writing one register. -/
  | reg (addr : Word) (v : Word)
  /-- SVAPIN_END (R497): Stream END ends the command stream: its argument, and what the body holds behind it, as far as the command says. -/
  | svapinEnd (arg : BitVec 24) (rest : List Byte)
  /-- BUILD_SWEEP (R499): Scrubbers complete the build sweep and CONFIG_DONE is asserted. -/
  | buildSweep
  /-- DRAM_STAGE (R623): Stacks are trained, DRAM zeroed, blobs copied, repairs re-applied and cores admitted. -/
  | dramStage (trained : BitVec 32) (controllersOk : Byte) (x : StageSix)
  /-- STAGE6_TIMEOUT (R625): Stage 6 exceeding 10 s fails start-up. -/
  | stage6Timeout
  /-- LANES_STAGE_TIMEOUT (R442): 100 ms after Detect the lanes stage ends even if ports are not Active. -/
  | lanesStageTimeout
  /-- READY (R624): Firmware writes GLB_TOPO, locks RWL fields, enables acceptance and opens regions. -/
  | ready (elapsed : BitVec 32)
  /-- WDOG_KICK (R577): GLB_WDOG.KICK restarts the watchdog timeout. -/
  | wdogKick
  /-- WATCHDOG_EXPIRE (R577): The watchdog expires, fences the module and starts the watchdog server. -/
  | watchdogExpire
  /-- APP_CORE_ERROR (R575): An application core's uncorrectable error removes it and a reserve core takes over. -/
  | appCoreError (n : Fin 16)
  /-- CFG_REPAIRW (R629): A write appends one entry to the non-volatile repair record. -/
  | cfgRepairw (v : Word)
  /-- REPAIR_RECORD_WRITTEN (R629): The appended repair entry finishes writing and BUSY clears. -/
  | repairRecordWritten
  /-- IDLE_ADAPT (R598): Each period the steward adapts STACK_CFG.IDLE from the row-hit rate. -/
  | idleAdapt (i : StackId) (hitPercent : Fin 101)
  /-- CLOCK_POLICY (R599): The steward lowers or raises plate modes to meet cap and temperature. -/
  | clockPolicy (p : Fin 8) (overLimit : Bool)
  /-- TEL_INTERVAL_END (R603): A histogram interval ends and latency percentiles are updated. -/
  | telIntervalEnd
  /-- SUBSCRIBER_PUSH (R595): The server pushes event records or telemetry to subscribers. -/
  | subscriberPush
  /-- MGMT_DATAGRAM_INVALID (R587): A malformed or unassigned datagram is dropped and counted. -/
  | mgmtDatagramInvalid (f : MgmtFrame) (bytes : List Byte)
  /-- ARP_REQUEST (R586): A management port answers ARP. -/
  | arpRequest (m : Fin 2) (target : BitVec 128)
  /-- ND_REQUEST (R586): A management port answers IPv6 neighbour discovery. -/
  | ndRequest (m : Fin 2) (target : BitVec 128)
  /-- ECHO_REQUEST (R586): A management port answers ICMP or ICMPv6 echo. -/
  | echoRequest (m : Fin 2) (target : BitVec 128) (payload : List Byte)
  /-- IDENT (R61): Management command returning identity and image version. -/
  | ident (r : MgmtReq)
  /-- STATUS (R61): Management command returning configuration, pairing and topology status. -/
  | status (r : MgmtReq)
  /-- REGRD (R580): Management command reading up to 64 registers. -/
  | regrd (r : MgmtReq) (addrs : List Word)
  /-- REGWR (R581): Management command writing up to 64 registers in order. -/
  | regwr (r : MgmtReq) (writes : List (Word × Word))
  /-- TELEM (R602): Management command reading telemetry items. -/
  | telem (r : MgmtReq) (items : List (BitVec 16 × BitVec 16))
  /-- SUBSCRIBE (R595): Management command registering an event or telemetry subscriber. -/
  | subscribe (r : MgmtReq) (slot : Nat) (udp : BitVec 16) (mask : BitVec 32) (period : BitVec 32) (items : List (BitVec 16 × BitVec 16))
  /-- EVLOG (R595): Management command reading event records. -/
  | evlog (r : MgmtReq) (first : Word) (count : Nat)
  /-- IMG_BEGIN (R591): Management command starting an image upload. -/
  | imgBegin (r : MgmtReq) (flash : Nat) (len : Nat) (abort : Bool)
  /-- IMG_DATA (R590): Management command carrying a chunk of image data. -/
  | imgData (r : MgmtReq) (off : Nat) (data : List Byte)
  /-- IMG_END (R590): Management command ending an upload and starting verification. -/
  | imgEnd (r : MgmtReq)
  /-- IMG_PROGRAM_COMPLETE (R590): Verification, erase, programming and read-back finish and the phase becomes done or failed. -/
  | imgProgramComplete (readbackOk : Bool)
  /-- UPLOAD_TIMEOUT (R591): An upload idle for 60 s in phase 1 returns to idle. -/
  | uploadTimeout
  /-- IMG_STATUS (R590): Management command reporting the upload phase. -/
  | imgStatus (r : MgmtReq)
  /-- RESET (R594): Management command starting a module reset after its response. -/
  | resetCmd (r : MgmtReq) (mid : Word)
  /-- MGMT_FENCE (R561): Management FENCE command that puts the module into FENCED. -/
  | mgmtFence (r : MgmtReq) (mid : Word)
  /-- TOKEN (R558): Management command delivering a KIND 2 fence token. -/
  | token (r : MgmtReq) (t : FenceToken)
  /-- FAULTN_CLEAR (R568): Management command clearing GFC_FAULTN.ASSERT. -/
  | faultnClear (r : MgmtReq)
  /-- ATTACH (R58): Management command starting an orderly attach from SOLO. -/
  | attach (r : MgmtReq)
  /-- DETACH (R557): Management command starting an orderly detach from PAIRED. -/
  | detach (r : MgmtReq)
  /-- DUR_DECLARE (R593): Management command declaring a durable region. -/
  | durDeclare (r : MgmtReq) (first : BitVec 25) (count : BitVec 26)
  /-- DUR_WITHDRAW (R593): Management command withdrawing a durable region. -/
  | durWithdraw (r : MgmtReq) (region : Nat)
  /-- DUR_STATUS (R593): Management command reporting durable region states. -/
  | durStatus (r : MgmtReq)
  /-- CANCEL (R538): Management command cancelling a commission. -/
  | cancel (r : MgmtReq) (k : CmsnKey)
  /-- STREAM_CLOSE (R593): Management command emptying a stream's entry. -/
  | streamClose (r : MgmtReq) (stream : BitVec 16)
  /-- POLICY_GET (R597): Management command reading steward policy parameters. -/
  | policyGet (r : MgmtReq) (ids : List (BitVec 16))
  /-- POLICY_SET (R597): Management command setting steward policy parameters atomically. -/
  | policySet (r : MgmtReq) (sets : List (BitVec 16 × BitVec 32))
  /-- DBGLANE_STATUS (R422): DBGLANE operation 0 reporting debug lane counts and eye. -/
  | dbglaneStatus (r : MgmtReq)
  /-- DBGLANE_PRBS13Q (R422): DBGLANE operation 1 sending PRBS13Q on the debug lane pair. -/
  | dbglanePrbs13q (r : MgmtReq)
  /-- DBGLANE_PRBS31Q (R422): DBGLANE operation 2 sending PRBS31Q on the debug lane pair. -/
  | dbglanePrbs31q (r : MgmtReq)
  /-- DBGLANE_STOP (R422): DBGLANE operation 3 stopping the debug pattern. -/
  | dbglaneStop (r : MgmtReq)
  /-- EXTEST (R503): Test-port instruction driving and capturing the boundary register. -/
  | extest (shift : BitVec 393) (pins : BitVec 393)
  /-- IDCODE (R503): Test-port instruction returning the 32-bit identification code. -/
  | idcode
  /-- SAMPLE_PRELOAD (R503): Test-port instruction sampling or preloading the boundary register. -/
  | samplePreload (shift : BitVec 393) (pins : BitVec 393)
  /-- CSREAD (R585): Test-port instruction reading one control-space register. -/
  | csread (addr : BitVec 40)
  /-- BYPASS (R503): Test-port instruction selecting the 1-bit bypass register. -/
  | bypass (tdi : Bool)
  /-- LREF_LOSS (R622): Loss of lane reference g keeps the two Niuri ports it serves in Idle without a module reset. -/
  | lrefLoss (g : Fin 5)
  /-- LREF_RETURN (R649): A lane reference that returns lets its ports leave Idle and enter Detect. -/
  | lrefReturn (g : Fin 5)
  /-- MREF_LOSS (R649): Loss of the 25 MHz management reference takes both management links down without a reset. -/
  | mrefLoss
  /-- MGMT_LINK_DOWN (R622): A management port's 25GBASE-R link goes down and MGMT_CFGm.LINK clears. -/
  | mgmtLinkDown (m : Fin 2)
  /-- MGMT_LINK_UP (R586): A management port's link comes up and MGMT_CFGm.LINK sets, so datagrams can be received. -/
  | mgmtLinkUp (m : Fin 2)
  /-- USER_CTL_ANSWER (R475): Region user logic answers a forwarded control-window access, which completes with the returned value. -/
  | userCtlAnswer (i : RegionId) (v : Word)
  /-- USER_PANIC_INPUT (R473): With MRG_NETCFG.UPANIC set, the user logic's panic input raises or lowers the region port's panic. -/
  | userPanicInput (i : RegionId) (level : Bool)
  /-- WDOG_HALF_TIMEOUT (R601): When half of GLB_WDOG.TIMEOUT has passed since the last kick, interrupt line 4 to the control complex is asserted. -/
  | wdogHalfTimeout
  /-- TRST_N_LOW (R646): TRST_N driven low holds the test logic in Test-Logic-Reset. -/
  | trstNLow
  deriving DecidableEq, Repr

end Sys2Proof
end

