-- ==== Sys2Proof/Decode.lean ====
section
/-! DEFINITION. The words of the table of commands.  No row of the table has bits: the hardware is a block whose
commands are events and messages, so no word spells one. -/
namespace Sys2Proof

/-- The command that a word spells by the table's bits: none, since no row has any. -/
def decodeTableWord (_nbits _w : Nat) : Option Instr := none

end Sys2Proof
end

