-- ==== Sys2Proof/Config.lean ====
section
/-! DEFINITION. What one part fixes, and the free values: constants without a body, of which nothing can be
proved but what holds for every value.  Each is named in the assumption log. -/
namespace Sys2Proof

/-- Fuses: the module identity (Table 14.22). -/
opaque Config.mid : Word
/-- Fuses: the MAC address of management port `m` (Table 14.24); only bits [47:0] are used. -/
opaque Config.macFuse : Fin 2 → BitVec 48
/-- Fuses: word `n` of the key hash (Table 12.14). -/
opaque Config.keyHash : Fin 12 → Word
/-- A fresh free word, taken by the counter `State.freeCtr` (assumption 2). -/
opaque Config.freeWord : Nat → Word
/-- A fresh free vector register (assumption 2). -/
opaque Config.freeVec : Nat → VReg
/-- The result of a special function in Native mode at an operand where the manual states an error bound and
no value (R226): function code, operand, second operand (assumption 20). -/
opaque Config.native : BitVec 8 → BitVec 32 → Word → BitVec 32

/-- The queue bindings of a launch descriptor's bytes 32–39 and 40–47, which firmware chooses: the manual does not say how.  Commission
stream and sequence number, and twice the hatch index, plus one for the second word (R570; assumption 142). -/
opaque Config.queueBinding : Nat → Nat → Nat → Word

/-- What a read of a core-store address beyond the store's 32 MiB gives: the manual states none (assumption 7). -/
opaque Config.beyond : Nat → BitVec 8

/-- The byte at an offset of a pre-emption save region after the save of a number: the manual does not give the format of the saved
state (assumption 114). -/
opaque Config.saveByte : Nat → Nat → BitVec 8

/-- The fixed hash by which a router chooses the link of a packet from its SRC and its destination (R408): the manual gives no formula
(assumption 118). -/
opaque Config.linkHash : BitVec 10 → BitVec 10 → Nat

/-- The exponent of the first root of the generator polynomial of the Robust mode code, whose sixteen roots are consecutive powers of
the field's generator: the manual does not give it (R444; assumption 36). -/
opaque Config.rsRoot : Nat

/-- Fuses: the key-encryption key, its first byte highest (R486; assumption 44). -/
opaque Config.kek : BitVec 256
/-- The size in bytes of the flash device of image A or B, a part of the board (R483, R590; assumption 44). -/
opaque Config.flashSize : Fin 2 → Nat

/-- Whether the upper edge of a latency bucket that is no whole number of ns is reported rounded up (R603; assumption 48). -/
opaque Config.bucketUp : Nat → Bool

/-- What configuration sets of a margin RAM block (§11.4): the widths of ports A and B as log2 of bytes, whether each is
WRITE_FIRST, and whether the block's code is enabled. -/
structure RamCfg where
  wa     : Fin 4 := 0
  wb     : Fin 4 := 0
  firstA : Bool := false
  firstB : Bool := false
  code   : Bool := false
  deriving DecidableEq, Repr, Inhabited

/-- The setting of a margin RAM block by its region's logic frames.  The manual does not say which configuration bits hold it
(assumption 42). -/
opaque Config.ramCfg : List (Nat × BitVec 1024) → BitVec 8 → RamCfg

/-- The receiver eye margin of a lane of a port at a time, which the port samples (Table 10.23; assumption 47). -/
opaque Config.eye : Fin 10 → Nat → Word → BitVec 8
/-- What the user logic of a region drives at a time onto the 256 boundary wires towards its neighbour, upward or downward in number,
and at its six pins: levels in bits [5:0], enables in [11:6] (R459, R476; assumption 124). -/
opaque Config.userWires : Fin 8 → Fin 8 → Bool → Word → BitVec 256
opaque Config.userPins : Fin 8 → Fin 8 → Word → BitVec 12
/-- The voltage of the 48 V input in mV at a time (Table 14.16; assumption 47). -/
opaque Config.vin : Word → Word

/-- The reset value of MGMT_CFGm: the MAC address, the link down, no FEC. -/
def Config.mac (m : Fin 2) : Word := (Config.macFuse m).setWidth 64

end Sys2Proof
end

