-- ==== Sys2Proof/Machine/State.lean ====
section
/-! DEFINITION. The state of the KX-8 as plain data: every register, store, queue, table and pin that the
manual names, and the queue of waiting commands.  Everything sparse is an `SMap`: a list of (key, value)
pairs with rising keys, in which no entry holds what an absent key reads as, so that equal contents are
equal data.  A default field value below is the value after a module reset; where the manual gives none
the assumption log names it (entry 1). -/
namespace Sys2Proof.Machine

/-- A sparse table: keys strictly rising, no entry equal to the default of its key. -/
abbrev SMap (α : Type) := List (Nat × α)

/-- The integrity of one protected word or DRAM unit (R351, R380, R383): absent from its table when sound;
`corrected` reads back right and is repaired; `uncorrectable` and `poisoned` read as zeros. -/
inductive Mark where
  | corrected (symbol : BitVec 7)
  | uncorrectable
  | poisoned
  deriving DecidableEq, Repr

/-- A circular buffer: base, length in bytes and head (R214). -/
structure CBuf where
  base : BitVec 25 := 0
  len  : BitVec 26 := 0
  head : BitVec 26 := 0
  deriving DecidableEq, Repr

/-- An accumulator entry (Table 4.1, R664): `none` is empty. -/
structure Acc where
  p    : Option (BitVec 32) := none
  w    : Option (BitVec 64) := none
  c    : Option (BitVec 64) := none
  kpos : BitVec 8 := 0
  h    : BitVec 2 := 0
  cur  : Bool := false
  int  : Bool := false
  deriving DecidableEq, Repr

/-- A row state of the online softmax (§4.6); the default is what SRESET gives (R195). -/
structure RowSt where
  m     : BitVec 32 := 0xFF800000#32
  alpha : BitVec 32 := 0x3F800000#32
  l     : BitVec 64 := 0
  deriving DecidableEq, Repr

/-- A weight tile, staged or active (R120, R662): its weight-format code (`none` for the reset state, which
matches everything), band mode, NB, the codes by `K position · 1024 + output column`, and the E8 scales by
`block · 1024 + output column` (absent: 0x7F). -/
structure Tile where
  fmt  : Option (BitVec 4) := none
  band : BitVec 2 := 0
  nb   : BitVec 3 := 0
  w    : SMap (BitVec 16) := []
  sc   : SMap Byte := []
  deriving DecidableEq, Repr

/-- An operation of the matrix queue with what it captured at issue (R269). -/
inductive MatOp where
  | load (f : MwFields) (word : Word) (kp : PReg) (cb : CBuf) (bundle : BitVec 16) (ord : Nat)
  | pass (f : MpFields) (word : Word) (kp cp : PReg) (cb : CBuf) (bundle : BitVec 16) (ord : Nat)
  deriving DecidableEq, Repr

/-- The accumulator-class operations (Table 6.14). -/
inductive DCode where
  | aclr | asave | aload | achainSend | achainRecv | fdrain | vdrain
  | sreset | smax | sexp | sscale | sfin
  deriving DecidableEq, Repr

/-- An operation of the drain queue with what it captured at issue (R269). -/
structure DrainOp where
  code   : DCode
  f      : AFields
  word   : Word
  g      : BitVec 32
  enc    : Word
  dcb    : CBuf
  cb2    : CBuf
  bundle : BitVec 16
  ord    : Nat
  deriving DecidableEq, Repr

/-- What a result write-back writes (R266): a scalar, lanes of a vector register, bits of a predicate, or a
circular buffer. -/
inductive Target where
  | scalar (r : BitVec 5) (v : Word)
  | vector (r : BitVec 5) (v : VReg) (mask : PReg)
  | pred   (r : BitVec 3) (v : PReg) (mask : PReg)
  | cbuf   (n : BitVec 3) (base : BitVec 25) (len : BitVec 26)
  | stat   (op : BitVec 3) (set : BitVec 2) (v : VReg) (mask : PReg) (bytes : List Byte)
  | none
  deriving DecidableEq, Repr

/-- An operation in a fixed-latency pipeline: the issue cycle from which its result is read, what it writes,
the arithmetic flags it raises (R113: bit 0 INVALID, 1 DIVZERO, 2 OVERFLOW, 3 UNDERFLOW), and the counts it adds,
to CORE_CVTCNT (R91) or to an encoder counter slot of the hatch (R87). -/
structure PendW where
  due   : Nat
  tgt   : Target
  flags : BitVec 4 := 0
  flush : Nat := 0
  nanz  : Nat := 0
  slot  : Option (BitVec 4) := none
  deriving DecidableEq, Repr

/-- A store on its way to core store (R268): the issue cycle from which a read returns it, and the bytes with
the mask of bits that each writes (a nibble for N4, R275). -/
structure PendSt where
  due   : Nat
  bytes : List (Nat × Byte × Byte)
  deriving DecidableEq, Repr

/-- One bank of a user table: header and the bytes of its records (R228, R229). -/
structure Bank where
  hdr  : BitVec 128 := 0
  recs : SMap Byte := []
  deriving DecidableEq, Repr

/-- A TLOAD in flight (R230). -/
structure TLoad where
  t    : BitVec 2
  bank : Bool
  data : Bank
  deriving DecidableEq, Repr

/-- What a slot raises besides its result: a plate-bus access outside the window (R220), a TLOAD into the active
bank (R231), held faults whose epoch an FDROP has ended (R324). -/
inductive Alarm where
  | saAccess
  | tableBusy (t : BitVec 2) (bank : Bool)
  | heldDrop (n : Nat)
  deriving DecidableEq, Repr

/-- One lane of a statistics set (R240, R246); `mu` and `m2` are W48 values as binary64 (R241). -/
structure StatLane where
  n   : BitVec 32 := 0
  mu  : BitVec 64 := 0
  m2  : BitVec 64 := 0
  nan : Bool := false
  deriving DecidableEq, Repr

/-- A chain block on the hatch ring with its sender's fetch epoch (R201): per entry the closed value (none
when empty, sign-extended when an integer) and the INT part. -/
structure ChainBlk where
  epoch : BitVec 4
  vals  : List (Option (BitVec 64) × Bool)
  deriving DecidableEq, Repr

/-- A transfer descriptor (Table 7.3). -/
structure XDesc where
  addr    : BitVec 39
  rstride : BitVec 32
  tstride : BitVec 32
  rows    : BitVec 16
  rbytes  : BitVec 16
  dbase   : BitVec 25
  tsize   : BitVec 32
  dstride : BitVec 24
  tiles   : BitVec 24
  depth   : BitVec 8
  lrows   : BitVec 16
  lrbytes : BitVec 16
  ev      : BitVec 4
  even    : Bool
  cev     : BitVec 4
  cen     : Bool
  pair    : Bool
  deriving DecidableEq, Repr

/-- The kinds of a transfer (Table 7.1). -/
inductive XKind where
  | get | put | ring
  deriving DecidableEq, Repr

/-- A transfer of the transfer queue with its progress: the tile, descriptor (lead or paired), row and line
segment of the next request, the tiles signalled, and whether the credit of the current tile is taken. -/
structure Xfer where
  id      : Nat
  kind    : XKind
  d       : XDesc
  d2      : Option XDesc := none
  bundle  : BitVec 16
  tile    : Nat := 0
  leg2    : Bool := false
  row     : Nat := 0
  seg     : Nat := 0
  sig     : Nat := 0
  arrived : Nat := 0
  credit  : Bool := false
  ended   : Bool := false
  deriving DecidableEq, Repr

/-- A line request in flight (R312, R319): its line's place in DRAM (stack · 2^34 + address), where its bytes lie in
core store and in the line, the bundle of its transfer, and whether the kernel that runs on the core's hatch has made it (R389). -/
structure Req where
  tag    : BitVec 10
  xid    : Nat
  bundle : BitVec 16
  epoch  : BitVec 4
  write  : Bool
  tile   : Nat
  daddr  : BitVec 39
  place  : Nat
  cs     : Nat
  off    : Nat
  n      : Nat
  mine   : Bool := true
  deriving DecidableEq, Repr

/-- A request that a kernel has left behind. -/
def Req.old (r : Req) : Req := { r with mine := false }

/-- A fault record (Tables 13.11, 13.13, 8.7); `body` is its 64-bit words. -/
structure FRec where
  time     : Word
  suspect  : BitVec 16
  reporter : BitVec 16
  cls      : Byte
  body     : List Word
  deriving DecidableEq, Repr

/-- A held fault (R322): its epoch, the bytes of its poisoned core-store lines that nothing has written since
(R324), its record, and whether CORE_FETCHERR takes DATA or XLATE when it is reported. -/
structure Held where
  epoch : BitVec 4
  left  : List Nat
  rcd   : FRec
  data  : Bool
  deriving DecidableEq, Repr

/-- A ring tile in transit to this core (R316). -/
structure RingTile where
  dst   : Nat
  bytes : List Byte
  tile  : Nat
  deriving DecidableEq, Repr

/-- A loop level of a sequencer (R287–R291): `depth` orders nested levels. -/
structure LoopLv where
  first  : Nat
  last   : Nat
  index  : Nat
  remain : Nat
  depth  : Nat
  deriving DecidableEq, Repr

/-- The opcode of a scalar-slot operation (Table 6.6), with its operands. -/
inductive SOp where
  | alu (op : BitVec 6) (rd ra rb : BitVec 5)
  | alui (op : BitVec 6) (rd ra : BitVec 5) (imm : BitVec 16)
  | sins (rd : BitVec 5) (hw : BitVec 2) (imm : BitVec 16)
  | smovs (rd : BitVec 5) (sel : BitVec 16)
  | setcb (cb : BitVec 3) (ra rb : BitVec 5)
  | loop (level : BitVec 2) (rc : BitVec 5) (len : BitVec 12)
  | loopi (level : BitVec 2) (count len : BitVec 12)
  | br (cond : BitVec 3) (ra : BitVec 5) (off : BitVec 18)
  deriving DecidableEq, Repr

/-- A matrix-slot operation. -/
inductive MSlot where
  | load (f : MwFields)
  | pass (f : MpFields)
  | drain (code : DCode) (f : AFields)
  deriving DecidableEq, Repr

/-- A sync-slot operation (Table 6.16). -/
inductive YOp where
  | evwait (e : BitVec 4)
  | evsig (dest : Bool) (e : BitVec 4)
  | barH
  | barP (g : BitVec 4)
  | barM (g : BitVec 4)
  | hqtake (sd : BitVec 5) (b : BitVec 4)
  | hqpub (sa : BitVec 5) (b : BitVec 4)
  | hqfree (sa : BitVec 5) (b : BitVec 4)
  | tswap (t : BitVec 2)
  | trace (code : Byte)
  | halt
  | endK
  deriving DecidableEq, Repr

/-- What a slot of a bundle holds: nothing, an operation, an operation some of whose bits that its encoding marks 0 are not, or
content that names no operation; the last two are illegal with cause OPCODE unless another cause takes precedence (R256). -/
inductive Slot (α : Type) where
  | nop
  | op (o : α)
  | ill (o : α)
  | bad
  deriving DecidableEq, Repr

/-- A decoded bundle (Table 6.1).  A vector slot is an opcode with its fields, a load or store slot too. -/
structure Bundle where
  scalar : Slot SOp := .nop
  vector : Slot (BitVec 8 × VFields) := .nop
  matrix : Slot MSlot := .nop
  load   : Slot (BitVec 5 × LFields) := .nop
  store  : Slot (BitVec 5 × LFields) := .nop
  sync   : Slot YOp := .nop
  deriving DecidableEq, Repr

/-- The launch descriptor and footprint record of a kernel (Tables 6.17, 7.10), and the commission it belongs to, when the
planner launched it. -/
structure Launch where
  kaddr   : BitVec 39
  klen    : BitVec 16
  entry   : BitVec 16
  tag     : BitVec 32
  modes   : Modes
  ncore   : BitVec 3
  hidx    : BitVec 5
  hcnt    : BitVec 6
  prio    : BitVec 2
  pgroup  : BitVec 4
  mgroup  : BitVec 4
  pcount  : Byte
  mcount  : Byte
  binds   : List Byte
  args    : List Word
  regions : List (Nat × Nat)
  key     : Option CmsnKey
  deriving DecidableEq, Repr

/-- The issue side of a sequencer or of a core in stand-alone mode: the next bundle, the issue-cycle count,
the empty bundles still to issue (R288, R292), the loop levels, the held bundle with its HOLD code
(Table 6.19), whether its barrier arrival has been sent and released, the bundles issued, and a table swap that holds the
next bundle (R258). -/
structure SeqSt where
  pc      : Nat := 0
  cyc     : Nat := 0
  empty   : Nat := 0
  loops   : List (Option LoopLv) := [none, none, none, none]
  held    : Option Bundle := none
  hold    : BitVec 4 := 0
  arrived : Bool := false
  release : Bool := false
  issued  : Nat := 0
  swap    : Option (BitVec 2) := none
  deriving DecidableEq, Repr

/-- One physical core (§1.1.2): registers, stores, queues and engines.  Its control-space registers are in
`State.regs`.  `wpar` and `spar` are the active and staged weight registers with wrong parity (R164); `fastWait` and `vecWait` say
that the operation on a drain unit has started and that its accesses wait for earlier operations (R170, R663); `chainBuf` holds the blocks
that a RING = 0 receive read when it started (R180); `vregWait` lists the registers of VREG drains with their completion events (R271);
`vres` is what a VREG drain that runs will write; `newX` lists the first transfer that waits with each pending epoch advance (R321); `mxRun` is a known-pattern test under way,
`cvRun` a check-value run with the CORE_CVCTL and CORE_CVSRC it started with; `rdLog` lists the core-store ranges that the operation under way has read, `alarms` what it has raised; both are
empty between commands. -/
structure CoreSt where
  sregs    : SMap Word := []
  vregs    : SMap VReg := []
  preds    : SMap PReg := []
  cbs      : SMap CBuf := []
  events   : SMap Byte := []
  acc      : SMap Acc := []
  rows     : SMap RowSt := []
  active   : Tile := {}
  staged   : Tile := {}
  stagedNew : Bool := false
  wload    : Bool := false
  mq       : List MatOp := []
  mrun     : List MatOp := []
  lastBand : BitVec 2 := 0
  dq       : List DrainOp := []
  fast     : Option DrainOp := none
  vec      : Option DrainOp := none
  ord      : Nat := 0
  recvWait : Bool := false
  fastWait : Bool := false
  vecWait  : Bool := false
  tables   : SMap Bank := []
  actBank  : BitVec 4 := 0
  tloads   : List TLoad := []
  stats    : SMap StatLane := []
  store    : SMap Byte := []
  csMarks  : SMap Mark := []
  accMarks : SMap Mark := []
  wpar     : List (BitVec 7 × BitVec 2) := []
  spar     : List (BitVec 7 × BitVec 2) := []
  residue  : List (BitVec 7 × BitVec 2 × Bool) := []
  vpar     : List (BitVec 2 × BitVec 5) := []
  pend     : List PendW := []
  pendSt   : List PendSt := []
  evs      : List (BitVec 4 × BitVec 16) := []
  tq       : List Xfer := []
  nextX    : Nat := 0
  epoch    : BitVec 4 := 0
  advance  : Nat := 0
  newX     : List Nat := []
  outst    : List Req := []
  held     : List Held := []
  l1       : SMap Word := []
  ringIn   : List RingTile := []
  chainWay : List ChainBlk := []
  chainIn  : List ChainBlk := []
  chainBuf : List ChainBlk := []
  vregWait : List (BitVec 5 × Option (BitVec 4)) := []
  vres     : Option PendW := none
  sa       : SeqSt := {}
  mxRun    : Bool := false
  cvRun    : Option (Word × Word) := none
  rdLog    : List (Nat × Nat) := []
  alarms   : List Alarm := []
  deriving DecidableEq, Repr

/-- A pre-empted hatch's saved state (R166, R202, R252, R270, R328): the kernel, its sequencer, and each of
its cores. -/
structure Saved where
  launch : Launch
  seq    : SeqSt
  cores  : List (Nat × CoreSt)
  deriving DecidableEq, Repr

/-- A hatch sequencer (§6.1, §6.14). -/
structure HatchSt where
  run    : Option Launch := none
  seq    : SeqSt := {}
  pre    : Bool := false
  saved  : Option Saved := none
  lq     : List (BitVec 28 × Option CmsnKey) := []
  ended  : Option Byte := none
  cache  : SMap (BitVec 256) := []
  bcpar  : Bool := false
  deriving DecidableEq, Repr

/-- A handle queue (§7.5): free list, published FIFO, held handles with their endpoints (Table 7.5), the
commission's tag, and, for each endpoint whose take or publish waits, the commission it serves, if any (R337). -/
structure HqSt where
  free : List Word := []
  pub  : List Word := []
  held : List (Byte × Word) := []
  tag  : BitVec 32 := 0
  wait : List (Byte × Option CmsnKey) := []
  deriving DecidableEq, Repr

/-- A barrier group's counter (R413, R414): the first arrival's count and the endpoints that arrived. -/
structure BarSt where
  count   : Byte := 0
  arrived : List (HatchId) := []
  deriving DecidableEq, Repr

/-- A packet's payload (Table 9.4).  A request carries one line descriptor (assumption 117); a write request tells, for a durable frame,
the mirror role of the write (R369); read data with an error tells the unit in error (Table 8.7). -/
inductive Payload where
  | rreq (line : BitVec 34) (tag : BitVec 10) (cls : BitVec 2) (en : BitVec 128)
  | wreq (line : BitVec 34) (tag : BitVec 10) (cls : BitVec 2) (en : BitVec 128)
      (mir : Option (BitVec 25 × Bool × Byte × BitVec 14))
  | wdata (data : List Byte)
  | rdata (tag : BitVec 10) (status : BitVec 2) (data : List Byte) (bad : Option (BitVec 34) := none)
  | wack (tag : BitVec 10) (status : BitVec 2)
  | barr (module : Bool) (group : BitVec 4) (count : Byte) (key : Option CmsnKey) (from_ : HatchId)
  | brel
  | other (kind : BitVec 4)
  deriving DecidableEq, Repr

/-- A packet in the plate network (Table 9.3): the route string, the source endpoint, its destination, the virtual channel (R404), and
the link of its next group once that group has accepted it (R408, R410). -/
structure Packet where
  route : BitVec 48
  kind  : BitVec 4
  src   : BitVec 10
  dst   : BitVec 10
  vc1   : Bool
  nonW  : Bool
  load  : Payload
  link  : Option (Fin 8) := none
  deriving DecidableEq, Repr

/-- A router (§9.1): the packets it holds, oldest first, the links that are up per mesh port, the times of the replays of each link
within 1 ms (R409), and the mesh ports whose group accepts no packets until those it holds have gone on (R410). -/
structure RouterSt where
  q       : List Packet := []
  up      : SMap Byte := []
  replays : SMap (List Word) := []
  stopped : List Nat := []
  deriving DecidableEq, Repr

/-- A power domain (§9.6): asleep, entering sleep (R416), waking, under per-function reset, and its entry queue, in which a packet's
destination is the endpoint where its route ended. -/
structure DomainSt where
  asleep : Bool := false
  entering : Bool := false
  waking : Bool := false
  reset  : Bool := false
  entry  : List Packet := []
  deriving DecidableEq, Repr

/-- A translation walk in flight (R355): the granule asked for and the physical core that asked, if a core
did. -/
structure Walk where
  granule : BitVec 25
  core    : Option (Fin 36)
  deriving DecidableEq, Repr

/-- A copy of a scrubber's sequencing state (R520): its position, and its enable and pace as SCRUB_CTL lays them out.  A repair is one
command, so between commands no repair step is under way. -/
structure ScrubSeq where
  pos : Nat := 0
  ctl : BitVec 16 := 0x1001
  deriving DecidableEq, Repr

/-- The scrubber of a plate (§12.7): the three voted copies of its sequencing state; what the sweep watch has seen of SWEEPS and when, the
times of its resets without progress, and whether it has reported the scrubber as failed. -/
structure ScrubSt where
  copies   : List ScrubSeq := [{}, {}, {}]
  lastSeen : BitVec 32 := 0
  since    : Word := 0
  resets   : List Word := []
  failed   : Bool := false
  deriving DecidableEq, Repr

/-- A plate: its store, caches and walks (§8.3), the requests of its cores and regions that an invalidation under way waits for,
those among them that had no requester any more by endpoint, tag and line (R359), its queues, barrier counters and groups, domains; its logic frames by frame address with the bits that no write changes, the
signature table with its marks by frame number, the channels that wait for the signature engine in the order in which they
started (R508), and the channel that wrote a frame last (R514); `saves`, for each hatch the number of the last image in its save region, whose bytes `store` holds as differences from
`Config.saveByte` (R350, assumption 114); and its clock (§15.3): the mode in force, the limit components of R615, the mode a switch in
progress will put in force, whether the plate is stopped, and its controllers that have failed. -/
structure PlateSt where
  store    : SMap Byte := []
  psMarks  : SMap Mark := []
  saves    : SMap Nat := []
  l2       : SMap Word := []
  walks    : List Walk := []
  inval    : Option (List (Nat × Req) × List (Nat × Nat × BitVec 39 × Nat)) := none
  invalWay : List (BitVec 10 × BitVec 10 × BitVec 34) := []
  hq       : SMap HqSt := []
  bars     : SMap BarSt := []
  bgroups  : List (BitVec 4 × CmsnKey) := []
  domains  : SMap DomainSt := []
  frames   : SMap (BitVec 1024) := []
  sigs     : SMap (BitVec 32) := []
  sigMarks : SMap Mark := []
  stuck    : SMap (BitVec 1024) := []
  icpQ     : List (Fin 8) := []
  writer   : Fin 8 := 7
  scrub    : ScrubSt := {}
  act      : BitVec 2 := 0
  capC     : BitVec 2 := 0
  thermC   : BitVec 2 := 0
  switch   : Option (BitVec 2) := none
  stopped  : Bool := false
  ctlDown  : BitVec 2 := 0
  tj       : BitVec 16 := 0
  nextImg  : Nat := 0
  deriving DecidableEq, Repr

/-- A request at a stack controller (R377): the requesting endpoint and tag (none for the patrol), the line,
byte enables and data, its priority class, its age in controller cycles, the real-time port that holds it,
the mirror role of a write to a durable frame (R369), and the stack port at which it came. -/
structure DReq where
  src   : BitVec 10
  tag   : BitVec 10
  line  : BitVec 34
  write : Bool
  en    : BitVec 128
  data  : List Byte
  cls   : BitVec 2
  age   : Nat
  rt    : Option (Fin 16)
  mir   : Option (BitVec 25 × Bool × Byte × BitVec 14)
  port  : Fin 8 := 0
  deriving DecidableEq, Repr

/-- A DRAM stack and its controller (§8.7): contents, marks by 64-byte unit, requests by channel, open rows
by bank, the real-time ports in panic, STACK_STAT.STATE, the failed retrainings in a row, the row-copy in
progress, the patrol position, and whether a per-function reset runs; `half` holds the write requests whose data has not come yet
(R398).  A row stands as STACK_RETIRE names it: `ces` are the corrected errors of rows with their times, `due` the rows that the steward
is to retire, `failed` those that could not be retired (R387). -/
structure StackSt where
  mem      : SMap Byte := []
  marks    : SMap Mark := []
  queue    : List DReq := []
  wait     : List DReq := []
  half     : List DReq := []
  rows     : SMap Nat := []
  panic    : BitVec 16 := 0
  rr       : Nat := 0
  state    : BitVec 2 := 0
  refrate  : BitVec 2 := 0
  temp     : Byte := 0
  fails    : Nat := 0
  resetting : Bool := false
  retire   : Option Word := none
  patrol   : Nat := 0
  ces      : List (Word × Word) := []
  due      : List Word := []
  failed   : List Word := []
  deriving DecidableEq, Repr

/-- A received or sent stream-layer message (Table 10.10). -/
structure Msg where
  kind   : Byte
  once   : Bool
  stream : BitVec 16
  seq    : BitVec 32
  body   : List Byte
  deriving DecidableEq, Repr

/-- One receive lane of a port (§10.2, §10.3): the run of equal symbols, the de-stuffed symbols of the block under way, the
candidate position and the valid headers seen at it, the validity of the last 64 headers, the descrambler, the lane number and
marker number of its last AM, the blocks that wait for their row, the IDLE blocks of the marker row still to come, and in Robust mode
whether codewords are counted and the covered blocks of the one under way (R443). -/
structure LaneSt where
  run      : Nat := 0
  level    : Fin 4 := 0
  buf      : List (Fin 4) := []
  cand     : Nat := 0
  good     : Nat := 0
  bad      : List Bool := []
  lock     : Bool := false
  seeded   : Bool := false
  desk     : Bool := false
  prbs     : BitVec 31 := 0
  logical  : BitVec 4 := 0
  amcount  : BitVec 32 := 0
  blocks   : List (BitVec 258) := []
  after    : Nat := 0
  fecOn    : Bool := false
  fec      : List (BitVec 258) := []
  deriving DecidableEq, Repr

/-- One transmit lane of a port (§10.2, §10.3, §10.5): the run of equal symbols with its level (R430), the blocks since the end of the
last marker row, whether codewords are sent and the covered blocks of the one under way (R443), and the symbols that the port's last
command sent. -/
structure TxLane where
  run   : Nat := 0
  level : Fin 4 := 0
  cnt   : Nat := 0
  fecOn : Bool := false
  cover : List (BitVec 258) := []
  sym   : List (Fin 4) := []
  deriving DecidableEq, Repr

/-- A parcel in the replay buffer. -/
structure Parcel where
  seq  : BitVec 16
  body : List Byte
  deriving DecidableEq, Repr

/-- A Niuri port (chapter 10): the bring-up state with what Detect sampled (R439) and the lanes seen; the mode in force; the
lanes, the transmitter's scrambler states and marker number; what CAP blocks have settled, and whether link state is held
(R440, R448); the transmitter (next SEQ, replay buffer, parcels not yet sent, replays without progress, the ACK of the last NAK
served, DATA parcels sent, the partner's CREDIT and RXCRED); the receiver (next SEQ, NAK outstanding, CREDIT, whether that is
unreported, the bytes of each parcel still held, the stream bytes, the data blocks of the parcel under way); the messages sent
with the SEQ of their last parcel, those handed over, what the port's last command sent; and the steward's poll of the port. -/
structure PortSt where
  state    : BitVec 4 := 0
  width8   : Bool := false
  robust   : Bool := false
  preset   : BitVec 3 := 3
  present  : BitVec 16 := 0
  widthAct : Bool := false
  protAct  : Bool := false
  lanes    : SMap LaneSt := []
  txPrbs   : SMap (BitVec 31) := []
  tx       : SMap TxLane := []
  txNext   : Nat := 0
  amSent   : BitVec 32 := 0
  capGot   : Bool := false
  capSent  : Bool := false
  heldL    : Bool := false
  peerPort : BitVec 4 := 0
  peerHeld : Bool := false
  peerNext : BitVec 16 := 0
  txSeq    : BitVec 16 := 0
  replay   : List Parcel := []
  toSend   : List Parcel := []
  retries  : Nat := 0
  lastNak  : Option (BitVec 16) := none
  sentCnt  : BitVec 16 := 0
  peerCred : BitVec 16 := 0
  peerRx   : BitVec 16 := 0
  rxExp    : BitVec 16 := 0
  nakOut   : Bool := false
  freed    : BitVec 16 := 0
  unrep    : Bool := false
  rxHold   : List Nat := []
  rxBytes  : List Byte := []
  gather   : List (Option (BitVec 256)) := []
  panic    : Bool := false
  msgs     : List (Msg × BitVec 16) := []
  out      : List Msg := []
  sentBlk  : List (List Byte) := []
  quietS   : Nat := 0
  pollInv  : List Nat := []
  pollFec  : Nat := 0
  pollCrc  : Nat := 0
  deriving DecidableEq, Repr

/-- Region states (Table 11.2). -/
inductive RegState where
  | empty | closed | opened | loading | incoherent
  deriving DecidableEq, Repr

/-- A margin region with its configuration channel (chapters 11 and 12.6): reads and writes of its network port outstanding by
tag, with the device line and its place in DRAM; its panic input and the panic of its write buffer; a control-window access not
yet answered and the last answer; what its network and handle-queue ports last gave the user logic; margin RAM by block · 4096 +
byte, the marks of its coded words, and what ports A and B last gave, with the error output; the generators locked; the user
registers, by column · 2^16 + number, that have left their initial values; what the user logic last drove at the region's six pins
before its gates closed or it slept, levels in bits [5:0] and enables above (SAFE, Table 11.7); and the load under way: its entries, the
records read, the logic frames written, the bytes of the records, and DDIGEST. -/
structure RegionSt where
  state   : RegState := .empty
  reads   : SMap (BitVec 39 × Nat) := []
  writes  : SMap (BitVec 39 × Nat) := []
  panicIn : Bool := false
  panic   : Bool := false
  ctl     : Option (BitVec 15 × Bool × Word) := none
  answer  : Option Word := none
  netRsp  : List (Byte × BitVec 2 × List Byte) := []
  hqRsp   : List (Fin 8 × Option Word) := []
  ram     : SMap Byte := []
  ramMarks : SMap Mark := []
  ramOut  : List (Option (Word × Bool)) := []
  clkLock : BitVec 4 := 0
  ffs     : SMap Bool := []
  pinHeld : BitVec 12 := 0
  entries : List (Nat × Nat) := []
  recNo   : Nat := 0
  written : List (Nat × BitVec 1024) := []
  data    : List Byte := []
  digest  : List Byte := []
  deriving DecidableEq, Repr

/-- A user I/O bank (R643, R644): whether VCCO lies within limits now, its level in units of 10 mV, the level that the module measured
during configuration (0 when VCCO was out of limits then), and the levels that its pins were last seen at. -/
structure IoBankSt where
  ok       : Bool := false
  level    : Byte := 0
  measured : Byte := 0
  levels   : BitVec 24 := 0
  deriving DecidableEq, Repr

/-- Commission states (Table 13.4). -/
inductive CState where
  | accepted | ready | running | preempted | finished | committing | committed | retired
  deriving DecidableEq, Repr

/-- A commission (chapter 13). `step` is the step of R540 under way, `jcommit` its COMMIT record, `mirWait` the granules of the
mirror writes that its mirror barrier still waits for, `onTie9` whether that record last left on port 9, `ctime` its commit
timestamp. `byCmsn` is, on a victim of pre-emption, the commission that waits for its hatches (R571); `atime` is when it was accepted. -/
structure Cmsn where
  key      : CmsnKey
  tag      : BitVec 32
  port     : Fin 8
  modes    : Modes
  body     : List Byte
  state    : CState
  held     : Bool := false
  status   : Byte := 0
  attempts : Nat := 0
  slot     : Nat := 0
  plate    : Fin 8
  hatches  : List HatchId := []
  ended    : List HatchId := []
  pgroups  : List (Fin 8 × BitVec 4) := []
  mgroup   : Option (BitVec 4) := none
  start    : Nat := 0
  order    : Nat := 0
  jcommit  : Option Word := none
  step     : Nat := 0
  mirWait  : List (BitVec 25) := []
  onTie9   : Bool := false
  ctime    : Word := 0
  fault    : Option (BitVec 25) := none
  byCmsn   : Option CmsnKey := none
  atime    : Word := 0
  deriving DecidableEq, Repr

/-- A proof slot (§8.4): its state (0 FREE, 1 OPEN, 2 COMMITTED, 3 DISCARDED), its commission, the granules it
covers, the plates that have acknowledged its last change (R365), whether its entries are rewritten, the plates that have
answered DONE since (R366), and the frames that its entries named before. -/
structure SlotSt where
  state    : BitVec 2 := 0
  key      : CmsnKey := { stream := 0, seq := 0 }
  granules : List Nat := []
  acks     : Byte := 0xFF
  dones    : Byte := 0
  rewrote  : Bool := false
  freed    : List Nat := []
  deriving DecidableEq, Repr

/-- An acceptance that waits for the twin's JACK (R530), and the time at which the commission came. -/
structure PendAcc where
  key   : CmsnKey
  port  : Fin 8
  modes : Modes
  body  : List Byte
  jseq  : Word
  come  : Word
  deriving DecidableEq, Repr

/-- The commission engine (chapter 13): its tables, the commissions, the acceptances that wait for a JACK and the commissions
that wait behind them (R527, R529), both journal rings, the JOURNAL messages no JACK covers, the proof slots, the granules being
paged in with their frames (R372), the frames that changed entries named, with the plates whose DONE has been seen since (R358), the
granules that leave a frame for another one, with both frames (R387), and the time of the fault record whose stack is being restored
(R390). -/
structure EngineSt where
  ready    : Bool := false
  inReset  : Bool := false
  cmsns    : List Cmsn := []
  order    : Nat := 0
  streams  : SMap (Option (BitVec 32)) := []
  pending  : List PendAcc := []
  late     : List (Fin 8 × CmsnKey × List Byte × Word) := []
  own      : List JRec := []
  partner  : List JRec := []
  sentJ    : List JRec := []
  jseq     : Word := 0
  jacked   : Word := 0
  stored   : Word := 0
  slots    : SMap SlotSt := []
  mgroups  : List (BitVec 4 × CmsnKey) := []
  mbars    : SMap BarSt := []
  pageIns  : List (Nat × Nat) := []
  limbo    : List (Nat × Byte) := []
  moves    : List (Nat × Nat × Nat) := []
  restoring : Option Word := none
  deriving DecidableEq, Repr

/-- A declared durable region (§8.5, R593): first granule, count, and 0 declared, 1 durable, 2 withdrawing. -/
structure DurRegion where
  first : Nat
  count : Nat
  state : BitVec 2
  deriving DecidableEq, Repr

/-- Pairing states (Table 13.7), in the order of their codes. -/
inductive PState where
  | solo | pairing | paired | isolated | takeover | detaching | fenced
  deriving DecidableEq, Repr

/-- The pairing agent (§13.7, §13.8): the partner, the durable regions of this module and of the partner, the
mirror writes not yet acknowledged, the mirror that this module holds, heartbeat loss and a valid token, and whether this
module pairs after a module reset (R556), and a PROPOSE that came in SOLO (assumption 33). -/
structure PairSt where
  state     : PState := .solo
  epoch     : BitVec 32 := 0
  peer      : Word := 0
  peerCap   : Word := 0
  peerRanges : List (Nat × Nat) := []
  proposed  : BitVec 32 := 0
  sentAgree : Bool := false
  gotAgree  : Bool := false
  rejoin    : Bool := false
  sentReady : Bool := false
  gotReady  : Bool := false
  hbLoss    : Bool := false
  token     : Bool := false
  sentDet   : Bool := false
  gotDet    : Bool := false
  regions   : List DurRegion := []
  mirOut    : List MirrorMsg := []
  mirror    : SMap Byte := []
  mirProof  : SMap (Option Byte) := []
  mirSlots  : List (Nat × Byte) := []
  proposal  : Option PairMsg := none
  back      : List Msg := []
  deriving DecidableEq, Repr

/-- An entry of the global fault collector (R564, R565). -/
structure GEntry where
  key   : BitVec 16
  info  : Bool
  own   : Bool
  wit   : BitVec 16
  rcd   : FRec
  deriving DecidableEq, Repr

/-- The global fault collector (§13.9): the records on their way to it, its open and closed banks, and
whether a record has arrived in this window. -/
structure GfcSt where
  frec   : List FRec := []
  opened : List GEntry := []
  closed : List GEntry := []
  held   : Bool := false
  tested : Nat := 0
  seen   : Bool := false
  fencedUnits : List (BitVec 16) := []
  cut    : List (RouterId × Fin 256) := []
  deriving DecidableEq, Repr

/-- An event record (R595). -/
structure EvRec where
  eseq   : Word
  time   : Word
  type   : BitVec 16
  unit   : BitVec 16
  detail : Word
  deriving DecidableEq, Repr

/-- A management command (Table 14.7), without its requester. -/
inductive MgmtCmd where
  | ident
  | status
  | regrd (addrs : List Word)
  | regwr (writes : List (Word × Word))
  | telem (items : List (BitVec 16 × BitVec 16))
  | subscribe (slot : Nat) (udp : BitVec 16) (mask period : BitVec 32) (items : List (BitVec 16 × BitVec 16))
  | evlog (first : Word) (count : Nat)
  | imgBegin (flash len : Nat) (abort : Bool)
  | imgData (off : Nat) (data : List Byte)
  | imgEnd
  | imgStatus
  | reset (mid : Word)
  | fence (mid : Word)
  | token (t : FenceToken)
  | faultnClear
  | attach
  | detach
  | durDeclare (first : BitVec 25) (count : BitVec 26)
  | durWithdraw (region : Nat)
  | durStatus
  | cancel (k : CmsnKey)
  | streamClose (stream : BitVec 16)
  | policyGet (ids : List (BitVec 16))
  | policySet (sets : List (BitVec 16 × BitVec 32))
  | dbglane (op : BitVec 2)
  deriving DecidableEq, Repr

/-- What a management port sends (§14.3): a response with its opcode, STATUS and body, an event push, or an
answer to ARP, neighbour discovery or echo. -/
inductive MgmtOut where
  | response (r : MgmtReq) (opcode status : BitVec 16) (body : List Byte)
  | push (slot : Nat) (udp : BitVec 16) (body : List Byte)
  | arp (m : Fin 2) (target : BitVec 128)
  | nd (m : Fin 2) (target : BitVec 128)
  | echo (m : Fin 2) (payload : List Byte)
  deriving DecidableEq, Repr

/-- A subscriber (R595): `sent` is the last event record it has been pushed, `told` the time of its last telemetry push. -/
structure SubSt where
  port   : Fin 2
  source : BitVec 128
  udp    : BitVec 16
  mask   : BitVec 32
  period : BitVec 32
  items  : List (BitVec 16 × BitVec 16)
  sent   : Word
  told   : Word
  deriving DecidableEq, Repr

/-- An image upload (R590). -/
structure UploadSt where
  phase  : BitVec 4 := 0
  flash  : Bool := false
  len    : Nat := 0
  bytes  : SMap (Option Byte) := []
  reason : Byte := 0
  deriving DecidableEq, Repr

/-- The management server and ports (§14.3): the commands that wait for the server, oldest first (R588), the responses kept under R589 with
their times, the event log, subscribers,
policies, the upload, telemetry with the latency histograms of R603, and what the last command or event sent. -/
structure MgmtSt where
  queue  : List (MgmtReq × MgmtCmd) := []
  kept   : List (Word × MgmtReq × BitVec 16 × BitVec 16 × List Byte) := []
  log    : List EvRec := []
  eseq   : Word := 0
  subs   : SMap (Option SubSt) := []
  policy : SMap (BitVec 32) := []
  up     : UploadSt := {}
  tel    : SMap Word := []
  hist   : SMap Nat := []
  link   : BitVec 2 := 0
  fecInUse : BitVec 2 := 0
  sent   : List MgmtOut := []
  dbg    : BitVec 2 := 0
  deriving DecidableEq, Repr

/-- The boot ROM (chapter 12): whether a command stream runs, its selected plate, plaintext offset and BODY_LEN, the key of the segment
under way (R488); the blobs
staged for DRAM, as (plate, offset in the general region, length, destination); the images tried; the stacks that trained at
start-up; and whether firmware runs. -/
structure BootSt where
  loading  : Bool := false
  plate    : Fin 8 := 0
  offset   : Nat := 0
  bodyLen  : Nat := 0
  key      : List Byte := []
  image    : Fin 2 := 0
  staged   : List (Fin 8 × Nat × Nat × Word) := []
  tried    : BitVec 2 := 0
  firmware : Bool := false
  deriving DecidableEq, Repr

/-- Pins, supplies and references (chapters 15 and 16); `flRstN` is FL_RST_N, and `flResets` counts the times that it has been driven low
(R653). -/
structure PinSt where
  v48      : Bool := false
  pwrOk    : Bool := false
  resetN   : Bool := false
  faultN   : Bool := true
  cfgDone  : Bool := false
  cfgErr   : Bool := false
  twin     : Bool := false
  bootsel  : BitVec 2 := 0
  testkeep : Bool := false
  sref     : Bool := true
  mref     : Bool := true
  lref     : BitVec 5 := 0x1F
  cold     : Bool := false
  flRstN   : Bool := false
  flResets : Nat := 0
  deriving DecidableEq, Repr

/-- The test port (§14.2.2): the selected instruction, what the boundary register last captured and its update latch, the
bypass bit, the CSREAD capture, what another register last shifted out, and Test-Logic-Reset. -/
structure TestSt where
  instr    : Byte := 0x01
  boundary : BitVec 393 := 0
  driven   : BitVec 393 := 0
  bypass   : Bool := false
  capture  : Word := 0
  tdo      : Option Word := none
  tlr      : Bool := true
  deriving DecidableEq, Repr

/-- What survives a module reset and a power cycle (R628): the retirement tables, the repair record, GLB_RESERVE.NEXT,
flash contents. -/
structure NvSt where
  ret     : SMap Word := []
  repair  : List Word := []
  next    : Byte := 0x10
  flash0  : SMap Byte := []
  flash1  : SMap Byte := []
  deriving DecidableEq, Repr

/-- The control complex and module-wide bits (§14.1, §15): in module reset, the RWL fields locked, application
cores removed, those that run firmware, each in the place of the work it does (R575; assumption 141), the input component of R615, functions in per-function reset, a repair entry being written,
the interrupt lines of Table 14.15 with the edges that a command raises, whether an access of the command would have to wait (empty
between commands, assumption 13), half of the watchdog timeout passed, the dedup table of R454, the frames of the DRAM reserve as (first, count), GLB_TIME, and
the firmware servers that run (Table 14.23). -/
structure ModuleSt where
  inReset  : Bool := true
  locked   : Bool := false
  appDown  : List Nat := []
  appRun   : List Nat := List.range 14
  inputC   : BitVec 2 := 0
  busy     : List Nat := []
  repairW  : Option Word := none
  lines    : BitVec 6 := 0
  edge     : BitVec 6 := 0
  stall    : Bool := false
  half     : Bool := false
  dedup    : SMap (Option (BitVec 32)) := []
  time     : Word := 0
  server   : BitVec 3 := 0
  tripped  : Bool := false
  mapUsed  : List (Nat × Nat) := []
  deriving DecidableEq, Repr

/-- The KX-8. `freeCtr` is the model's own field: the free values of Config are applied to it, and each one
taken advances it (assumption 2). `crossing` holds W1C clears on their way to the flag's owner (R18). -/
structure State where
  pending  : List Instr := []
  freeCtr  : Nat := 0
  regs     : SMap Word := []
  crossing : List (Nat × Word) := []
  cores    : SMap CoreSt := []
  hatches  : SMap HatchSt := []
  plates   : SMap PlateSt := []
  drams    : SMap StackSt := []
  routers  : SMap RouterSt := []
  inbox    : SMap (List Packet) := []
  ports    : SMap PortSt := []
  regions  : SMap RegionSt := []
  banks    : SMap IoBankSt := []
  engine   : EngineSt := {}
  pair     : PairSt := {}
  gfc      : GfcSt := {}
  mgmt     : MgmtSt := {}
  boot     : BootSt := {}
  pins     : PinSt := {}
  test     : TestSt := {}
  nv       : NvSt := {}
  mod      : ModuleSt := {}
  deriving DecidableEq, Repr

/-- The machine right after a module reset started at power-up (R626–R628): every field at its reset value, no
command waiting. -/
def State.reset : State := {}

/-- Why a command stops the machine. -/
inductive Fault where
  /-- Raised by a command whose operand is no message, line or block that the hardware can carry (a parcel
  that is not 256 bytes, R446; a line that is not 128 bytes, R471).  Safe: no such command reaches the part. -/
  | illFormed
  deriving DecidableEq, Repr

/-- Why a command has no meaning. -/
inductive Refusal where
  /-- Raised by an arm of `exec` that has no meaning yet, with the row's mnemonic.  Safe: nothing is claimed. -/
  | notModelled (mnemonic : String)
  deriving DecidableEq, Repr

end Sys2Proof.Machine
end

