-- ==== Sys2Proof/Machine/RegMap.lean ====
section
/-! DEFINITION. The control space (§0.5, §0.6): which register an address names, the access type of each of its
bits (Table 0.3) and its value after a module reset.  The tables follow the field tables of the manual's
register sections; a bit in no mask is RO or reserved.  A field whose value mirrors state kept elsewhere
has reset value 0 here and is computed by `readReg`. -/
namespace Sys2Proof.Machine

/-- The writable bits of a register by access type (Table 0.3) and its reset value. -/
structure RegInfo where
  rw    : Word := 0
  rwl   : Word := 0
  wo    : Word := 0
  w1c   : Word := 0
  w1p   : Word := 0
  reset : Word := 0
  deriving DecidableEq, Repr

/-- Whether offset `o` is one of `n` registers from `base` at distance `stride`. -/
def inArr (base stride n o : Nat) : Bool := base ≤ o && o < base + stride * n && (o - base) % stride == 0

/-- CORE_SKEWn: ROW(8n+e) is 8n+e (Table 3.10). -/
def skewReset (n : Nat) : Word :=
  (List.range 8).foldl (fun w e => w ||| BitVec.ofNat 64 ((8 * n + e) <<< (8 * e))) 0

/-- NIURI_CFG: CLASS is 1 on ports 8 and 9 (R419); TXPRESET 3, ENABLE 1. -/
def niuriCfgReset (k : Fin 10) : Word := if 8 ≤ k.val then 0x309#64 else 0x301#64

/-- The registers of the device-global window (Tables 0.4, 1.3, 13.17–13.24, 14.10–14.19, 15.8–15.15) by offset. -/
def globReg (o : Nat) : Option RegInfo :=
  if inArr 0x2000 0x8 256 o then some {} -- GFC_SUSPi
  else if inArr 0x10000 0x8 2048 o then some {} -- GFC_RECi
  else if inArr 0x128 0x8 5 o then some {} -- GLB_LIMERR_EVT
  else if inArr 0x208 0x8 11 o then some {} -- FUNC_BUSYn
  else match o with
  | 0x0 => some { reset := 0xB42E038408100000#64 } -- GLB_IDENT
  | 0x8 => some {} -- GLB_TOPO
  | 0x1000 => some { w1p := 0x1#64 } -- GFC_CTL
  | 0x1008 => some {} -- GFC_STAT
  | 0x1010 => some { w1c := 0x1#64 } -- GFC_INT
  | 0x1018 => some {} -- GFC_INT_EVT
  | 0x1020 => some {} -- GFC_DISCARD
  | 0x1028 => some {} -- GFC_ACCESS
  | 0x1030 => some { rw := 0x1#64 } -- GFC_FAULTN
  | 0x100 => some { rw := 0x7FF#64, reset := 0x401#64 } -- GLB_MODE
  | 0x108 => some { rw := 0xFFFF#64 } -- GLB_CLKMODE
  | 0x110 => some { rw := 0xFFFF#64, reset := 0x1770#64 } -- GLB_PCAP
  | 0x10 => some {} -- GLB_TIME
  | 0x18 => some { rw := 0xFFFF00000000#64, w1p := 0x1#64, reset := 0x3E800000000#64 } -- GLB_WDOG
  | 0x20 => some { rw := 0xFF#64, reset := 0x1000#64 } -- GLB_RESERVE
  | 0x118 => some { rw := 0xFFFF#64, w1p := 0xFF0000000000#64 } -- GLB_CLKLIM
  | 0x120 => some { w1c := 0x1F#64 } -- GLB_LIMERR
  | 0x200 => some { wo := 0xFFFFFFFFFFFFFFFF#64 } -- FUNC_RESET
  | 0x300 => some { reset := 0x2#64 } -- GLB_START
  | 0x308 => some { reset := 0x1#64 } -- GLB_RSTCAUSE
  | 0x310 => some {} -- GLB_PINS
  | _ => none

/-- The registers of a plate controller (Tables 7.13–7.14, 8.10–8.13; R666) by offset. -/
def plateReg (o : Nat) : Option RegInfo :=
  if inArr 0x2010 0x8 3 o then some { rw := 0x1FF01FF01FF01FF#64 } -- XLT_OWNERn
  else if inArr 0x2038 0x8 2 o then some {} -- XLT_ERR_EVT
  else if inArr 0x2050 0x8 2 o then some {} -- PSTORE_ERR_EVT
  else match o with
  | 0x1000 => some { rwl := 0x1FFF0FFFFFFF#64 } -- PLAN_BASE
  | 0x1008 => some { rw := 0x7#64 } -- PLAN_CTL
  | 0x1010 => some { rwl := 0xFFFFFFFFFFFFFFFF#64 } -- PLAN_KREG
  | 0x2000 => some { rwl := 0x3FFFFF003FFFFF#64, reset := 0x1BF800000BF800#64 } -- XLT_MAPSEG
  | 0x2008 => some { rw := 0x3FFFFFFFFFFFF#64, w1p := 0x8000000000000000#64, reset := 0x4000000000000000#64 } -- XLT_INVAL
  | 0x2028 => some {} -- XLT_CNT
  | 0x2030 => some { w1c := 0x3#64 } -- XLT_ERR
  | 0x2048 => some { w1c := 0x3#64 } -- PSTORE_ERR
  | _ => none

/-- The registers of a hatch sequencer (Tables 2.6–2.7, 6.18–6.26, 7.12) by offset. -/
def hatchReg (o : Nat) : Option RegInfo :=
  if inArr 0x1000 0x8 16 o then some {} -- HATCH_ENCCNTn
  else if inArr 0x18 0x8 4 o then some {} -- HATCH_LOOPn
  else match o with
  | 0x1080 => some { w1p := 0xFFFF#64 } -- HATCH_ENCCLR
  | 0x0 => some {} -- HATCH_SEQSTAT
  | 0x8 => some { wo := 0xFFFFFFFFFFFFFFFF#64 } -- HATCH_LAUNCH
  | 0x10 => some { reset := 0xFFFFFFFFFFFFFFFF#64 } -- HATCH_LOOPCTL
  | 0x40 => some { rw := 0xFF#64 } -- HATCH_TRACE
  | 0x48 => some { rw := 0xFFFFFFFFFFFFFFFF#64 } -- HATCH_TRACEBASE
  | 0x50 => some { rw := 0x1FFFFFFFFFFF#64, reset := 0x8398A418820#64 } -- HATCH_CORES
  | 0x80 => some {} -- HATCH_LDSTAT
  | _ => none

/-- The registers of a core (Tables 2.18, 3.9–3.15, 4.7–4.10, 5.11–5.16, 6.23–6.25, 7.11, 8.9) by offset. -/
def coreReg (o : Nat) : Option RegInfo :=
  if inArr 0x408 0x8 4 o then some {} -- CORE_NUMFLAG_EVT
  else if inArr 0x810 0x8 16 o then some { rw := 0xFFFFFFFFFFFFFFFF#64, reset := skewReset ((o - 0x810) / 8) } -- CORE_SKEWn
  else if inArr 0x8A0 0x8 2 o then some {} -- CORE_MXERR_EVT
  else if inArr 0x910 0x8 3 o then some {} -- CORE_ACCERR_EVT
  else if inArr 0xA10 0x8 3 o then some {} -- CORE_VFAULT_EVT
  else if inArr 0x1000 0x8 512 o then some { rw := 0xFFFFFFFFFFFFFFFF#64 } -- CORE_LCACHE
  else if inArr 0x308 0x8 4 o then some {} -- CORE_FAULT_EVT
  else if inArr 0x350 0x8 2 o then some {} -- CORE_EVENT0
  else if inArr 0xB10 0x8 2 o then some {} -- CORE_FETCHERR_EVT
  else if inArr 0xC08 0x8 2 o then some {} -- CORE_CSERR_EVT
  else match o with
  | 0x428 => some {} -- CORE_CVTCNT
  | 0x400 => some { w1c := 0xF#64 } -- CORE_NUMFLAG
  | 0x800 => some { rw := 0xFF#64, reset := 0x80#64 } -- CORE_ROWMAP
  | 0x890 => some {} -- CORE_MXSTAT
  | 0x898 => some { w1c := 0x3#64 } -- CORE_MXERR
  | 0x8B0 => some {} -- CORE_MXSTALL
  | 0x8B8 => some { w1p := 0x1#64 } -- CORE_MXTEST
  | 0x8C0 => some {} -- CORE_MXGOLD
  | 0x900 => some { reset := 0xC0#64 } -- CORE_ACCSTAT
  | 0x908 => some { w1c := 0x7#64 } -- CORE_ACCERR
  | 0x928 => some {} -- CORE_ACCELOG
  | 0xA00 => some {} -- CORE_SFUSTAT
  | 0xA08 => some { w1c := 0x7#64 } -- CORE_VFAULT
  | 0xA28 => some {} -- CORE_VFLOG
  | 0xA40 => some { rw := 0xFF000000000C#64, w1p := 0x3#64 } -- CORE_SACTL
  | 0xA48 => some { rw := 0xFFFFFFFFFFFFFFFF#64 } -- CORE_SAWIN
  | 0x300 => some { w1c := 0xF#64 } -- CORE_FAULT
  | 0x340 => some {} -- CORE_FLOG
  | 0xB00 => some {} -- CORE_FETCHSTAT
  | 0xB08 => some { w1c := 0x3#64 } -- CORE_FETCHERR
  | 0xB20 => some {} -- CORE_FETCHCNT
  | 0xC00 => some { w1c := 0x3#64 } -- CORE_CSERR
  | 0xC20 => some { rw := 0x3C#64, w1p := 0x1#64 } -- CORE_CVCTL
  | 0xC28 => some { rw := 0xFFFFFF7FFFFFFFFF#64 } -- CORE_CVSRC
  | 0xC30 => some {} -- CORE_CVRES
  | _ => none

/-- The registers of a stack controller (Tables 8.14–8.21) by offset. -/
def stackReg (o : Nat) : Option RegInfo :=
  if inArr 0x20 0x8 4 o then some {} -- STACK_ERR_EVT
  else if inArr 0x1000 0x8 256 o then some {} -- STACK_RETTABi
  else match o with
  | 0x0 => some { rw := 0xFF0003FF#64, rwl := 0x30000#64, reset := 0x18000020#64 } -- STACK_CFG
  | 0x8 => some { rw := 0xFFFFFFFFFFFFFF#64, reset := 0x7D13200200FFFF#64 } -- STACK_QOS
  | 0x10 => some {} -- STACK_STAT
  | 0x18 => some { w1c := 0xF#64 } -- STACK_ERR
  | 0x40 => some {} -- STACK_ELOG
  | 0x48 => some { rw := 0xFFFFFF0000000000#64, w1p := 0x1#64 } -- STACK_RETIRE
  | 0x50 => some {} -- STACK_QOSSTAT
  | _ => none

/-- The registers of a router (Tables 9.7–9.10), the route entries apart from their reset value by offset. -/
def routerReg (o : Nat) : Option RegInfo :=
  if inArr 0x10 0x8 7 o then some {} -- NET_ERR_EVT
  else if inArr 0x800 0x8 256 o then some { rw := 0x1FFFFFFFFFFFFF#64 } -- NET_RTEi
  else match o with
  | 0x0 => some {} -- NET_LINK
  | 0x8 => some { w1c := 0x7F#64 } -- NET_ERR
  | _ => none

/-- The registers of a plate's network registers (Tables 9.11–9.12) by offset. -/
def netPlateReg (o : Nat) : Option RegInfo :=
  match o with
  | 0x0 => some { rw := 0xFFFFFF#64, reset := 0x800C8#64 } -- NET_CFG
  | 0x8 => some { rw := 0xFFF#64 } -- NET_PWR
  | _ => none

/-- The registers of a margin region (Tables 11.6–11.13) by offset. -/
def regionReg (o : Nat) : Option RegInfo :=
  if inArr 0x30 0x8 4 o then some {} -- MRG_ERR_EVT
  else if inArr 0x60 0x8 4 o then some { rw := 0x3FF1#64, reset := 0x640#64 } -- MRG_CLKn
  else match o with
  | 0x0 => some {} -- MRG_STAT
  | 0x8 => some { rw := 0xFFFF0001#64, reset := 0x640000#64 } -- MRG_CTL
  | 0x10 => some { rw := 0x17F7F#64, reset := 0x2030#64 } -- MRG_NETCFG
  | 0x18 => some { rw := 0xFFFFFFFFFFFFFFFF#64 } -- MRG_QBIND
  | 0x20 => some { rw := 0x1FFFFFFFF#64 } -- MRG_TAG
  | 0x28 => some { w1c := 0xF#64 } -- MRG_ERR
  | _ => none

/-- The registers of a configuration channel (Tables 12.15–12.20) by offset. -/
def channelReg (o : Nat) : Option RegInfo :=
  if inArr 0x28 0x8 2 o then some {} -- ICP_ERR_EVT
  else match o with
  | 0x0 => some { rw := 0x7FFFFFFFFF#64 } -- ICP_SRC
  | 0x8 => some { w1p := 0x1#64 } -- ICP_CTL
  | 0x10 => some {} -- ICP_STAT
  | 0x18 => some {} -- ICP_WIN
  | 0x20 => some { w1c := 0x3#64 } -- ICP_ERR
  | 0x38 => some {} -- ICP_CNT
  | _ => none

/-- The registers of a user I/O bank (Tables 11.14–11.15) by offset. -/
def bankReg (o : Nat) : Option RegInfo :=
  if inArr 0x100 0x8 24 o then some { rwl := 0x3FBFFFF#64, reset := 0x2000#64 } -- IOB_PINn
  else match o with
  | 0x0 => some {} -- IOB_STAT
  | _ => none

/-- The registers of a scrubber (Tables 12.21–12.26) by offset. -/
def scrubReg (o : Nat) : Option RegInfo :=
  if inArr 0x18 0x8 4 o then some {} -- SCRUB_ERR_EVT
  else match o with
  | 0x0 => some { rw := 0xFF01#64, reset := 0x1001#64 } -- SCRUB_CTL
  | 0x8 => some {} -- SCRUB_STAT
  | 0x10 => some { w1c := 0xF#64 } -- SCRUB_ERR
  | 0x38 => some {} -- SCRUB_LOG
  | 0x40 => some {} -- SCRUB_RCNT
  | _ => none

/-- The registers of a handle queue (§7.9) by offset. -/
def queueReg (o : Nat) : Option RegInfo :=
  if inArr 0x28 0x8 2 o then some {} -- HQ_ERR_EVT
  else match o with
  | 0x0 => some { rw := 0x7FFFFFFFFF#64 } -- HQ_POOL
  | 0x8 => some { rw := 0xFFFFFFFF03FFFFFF#64, reset := 0x3E800000000#64 } -- HQ_CFG
  | 0x10 => some {} -- HQ_STAT
  | 0x18 => some { w1p := 0x1#64 } -- HQ_CTL
  | 0x20 => some { w1c := 0x3#64 } -- HQ_ERR
  | _ => none

/-- The registers of a Niuri port (Tables 10.13–10.23) by offset. -/
def portReg (k : Fin 10) (o : Nat) : Option RegInfo :=
  if inArr 0x38 0x8 10 o then some {} -- NIURI_ERR_EVT
  else if inArr 0x100 0x8 16 o then some {} -- NIURI_LANEi
  else match o with
  | 0x0 => some { rw := 0x707#64, rwl := 0x10#64, reset := niuriCfgReset k } -- NIURI_CFG
  | 0x8 => some { rw := 0xFFFFFFFFFFFFFFFF#64, reset := 0x6403E8000A0014#64 } -- NIURI_TRAIN
  | 0x10 => some { rw := 0xFFFFFFFF#64, reset := 0x81003E8#64 } -- NIURI_LINKCFG
  | 0x18 => some { rw := 0x1FFF1FFF#64, reset := 0xC000800#64 } -- NIURI_RXBUF
  | 0x20 => some {} -- NIURI_STAT
  | 0x28 => some { w1p := 0x1#64 } -- NIURI_CTL
  | 0x30 => some { w1c := 0x3FF#64 } -- NIURI_ERR
  | 0x90 => some {} -- NIURI_CNT
  | 0x98 => some {} -- NIURI_STRCNT
  | _ => none

/-- The registers of configuration and security (Tables 12.12–12.14, 15.17–15.19) by offset. -/
def confReg (o : Nat) : Option RegInfo :=
  if inArr 0x8 0x8 2 o then some {} -- CFG_RESULTn
  else if inArr 0x100 0x8 12 o then some { reset := Config.keyHash (fin 12 ((o - 0x100) / 8)) } -- CFG_KEYHASHn
  else if inArr 0x1000 0x8 1024 o then some {} -- CFG_REPAIRi
  else match o with
  | 0x0 => some {} -- CFG_STAT
  | 0x200 => some {} -- CFG_REPAIRST
  | 0x208 => some { wo := 0xFFFFFFFFFFFFFFFF#64 } -- CFG_REPAIRW
  | _ => none

/-- The registers of the commission engine, pairing and the fabric windows (Tables 13.25–13.32, 14.11, 14.20–14.21) by offset. -/
def engineReg (o : Nat) : Option RegInfo :=
  if inArr 0x28 0x8 4 o then some {} -- CMSN_ERR_EVT
  else if inArr 0x180 0x8 8 o then some { rw := 0x80000000000007FF#64, reset := 0x401#64 } -- CMSN_PMODEk
  else if inArr 0x200 0x10 16 o then some { rw := 0xE0FF007FFFFFFFFF#64 } -- FAB_WINi_BASE
  else if inArr 0x208 0x10 16 o then some { rw := 0xFFFFFFFFFF#64 } -- FAB_WINi_SIZE
  else match o with
  | 0x0 => some { rw := 0xFFFFFF0E00#64, reset := 0x300640400#64 } -- CMSN_CFG
  | 0x8 => some { rw := 0xFF#64, reset := 0xFF#64 } -- CMSN_ACCEPT
  | 0x10 => some { reset := 0xFF000000000000#64 } -- CMSN_STAT
  | 0x18 => some { rw := 0xFFFFFFFFFFFF#64, w1p := 0x8000000000000000#64 } -- CMSN_CANCEL
  | 0x20 => some { w1c := 0xF#64 } -- CMSN_ERR
  | 0x100 => some { rw := 0xFFFFFFFFFFFFFFF1#64, reset := 0x40138827100A31#64 } -- PAIR_CFG
  | 0x108 => some {} -- PAIR_STAT
  | _ => none

/-- The registers of the management ports (Tables 14.22–14.26) by offset. -/
def mgmtReg (o : Nat) : Option RegInfo :=
  if inArr 0x100 0x40 2 o then some { rw := 0x1000000000000#64, reset := Config.mac (fin 2 ((o - 0x100) / 64)) } -- MGMT_CFGm
  else if inArr 0x108 0x40 2 o then some { rw := 0xFFFFFFFF#64 } -- MGMT_IP4m
  else if inArr 0x110 0x40 2 o then some { rw := 0xFFFFFFFFFFFFFFFF#64 } -- MGMT_IP6Hm
  else if inArr 0x118 0x40 2 o then some { rw := 0xFFFFFFFFFFFFFFFF#64 } -- MGMT_IP6Hm
  else match o with
  | 0x0 => some { reset := Config.mid } -- MGMT_MID
  | 0x8 => some {} -- MGMT_STAT
  | _ => none
/-- The window of the control space that an address lies in (Tables 0.5, 0.6; §7.9, §9.7, §11.9, §12.6). -/
inductive Blk where
  | glob
  | plate (p : Fin 8)
  | hatch (i : HatchId)
  | core (i : CoreId)
  | stack (i : StackId)
  | router (i : RouterId)
  | netPlate (p : Fin 8)
  | region (i : RegionId)
  | channel (i : RegionId)
  | bank (i : BankId)
  | scrub (p : Fin 8)
  | queue (p : Fin 8) (q : Fin 256)
  | port (k : Fin 10)
  | conf
  | engine
  | mgmt
  deriving DecidableEq, Repr

/-- The control-space address of a block (Tables 0.5, 0.6). -/
def Blk.base : Blk → Nat
  | .glob => 0
  | .plate p => plateBase p
  | .hatch i => plateBase i.p + 0x100000 + i.h.val * 0x40000
  | .core i => plateBase i.p + 0x200000 + i.c.val * 0x10000
  | .stack i => plateBase i.p + 0x800000 + i.s.val * 0x20000
  | .router i => plateBase i.p + 0xA00000 + i.q.val * 0x10000
  | .netPlate p => plateBase p + 0xA40000
  | .region i => plateBase i.p + 0xC00000 + i.r.val * 0x10000
  | .channel i => plateBase i.p + 0xC80000 + i.r.val * 0x100
  | .bank i => plateBase i.p + 0xCC0000 + i.j.val * 0x1000
  | .scrub p => plateBase p + 0xE00000
  | .queue p q => plateBase p + 0x80000 + q.val * 0x40
  | .port k => 0x200000000 + k.val * 0x100000
  | .conf => 0x300000000
  | .engine => 0x400000000
  | .mgmt => 0x500000000
where
  plateBase (p : Fin 8) : Nat := 0x100000000 + p.val * 0x1000000

/-- The block and the offset in it of an address inside plate window `p` (Table 0.6). -/
def locatePlate (p : Fin 8) (o : Nat) : Option (Blk × Nat) :=
  if o < 0x80000 then some (.plate p, o)
  else if o < 0x84000 then some (.queue p (fin 256 ((o - 0x80000) / 0x40)), o % 0x40)
  else if o < 0x100000 then none
  else if o < 0x200000 then some (.hatch ⟨p, fin 4 ((o - 0x100000) / 0x40000)⟩, o % 0x40000)
  else if o < 0x200000 + 36 * 0x10000 then some (.core ⟨p, fin 36 ((o - 0x200000) / 0x10000)⟩, o % 0x10000)
  else if o < 0x800000 then none
  else if o < 0x880000 then some (.stack ⟨p, fin 4 ((o - 0x800000) / 0x20000)⟩, o % 0x20000)
  else if o < 0xA00000 then none
  else if o < 0xA40000 then some (.router ⟨p, fin 4 ((o - 0xA00000) / 0x10000)⟩, o % 0x10000)
  else if o < 0xA50000 then some (.netPlate p, o % 0x10000)
  else if o < 0xC00000 then none
  else if o < 0xC80000 then some (.region ⟨p, fin 8 ((o - 0xC00000) / 0x10000)⟩, o % 0x10000)
  else if o < 0xC80800 then some (.channel ⟨p, fin 8 ((o - 0xC80000) / 0x100)⟩, o % 0x100)
  else if o < 0xCC0000 then none
  else if o < 0xCC2000 then some (.bank ⟨p, fin 2 ((o - 0xCC0000) / 0x1000)⟩, o % 0x1000)
  else if o < 0xE00000 then none
  else some (.scrub p, o - 0xE00000)

/-- The block and the offset in it of a control-space address (Table 0.5). -/
def locate (a : Nat) : Option (Blk × Nat) :=
  let top := a / 0x100000000
  let o := a % 0x100000000
  if top = 0 then some (.glob, o)
  else if top = 1 then if o < 0x8000000 then locatePlate (fin 8 (o / 0x1000000)) (o % 0x1000000) else none
  else if top = 2 then if o < 0xA00000 then some (.port (fin 10 (o / 0x100000)), o % 0x100000) else none
  else if top = 3 then some (.conf, o)
  else if top = 4 then some (.engine, o)
  else if top = 5 then some (.mgmt, o)
  else none

/-- The grid position of router `q` of plate `p` (§9.1). -/
def gridX (i : RouterId) : Nat := 2 * (i.p.val % 4) + i.q.val % 2
def gridY (i : RouterId) : Nat := 2 * (i.p.val / 4) + i.q.val / 2

/-- NET_RTE entry `e` after a module reset: V = 1 and the default route from router `i` to the hub of endpoint
addresses with [9:2] = `e`: all E or W steps first, then all N or S steps, then the hub code (R406). -/
def defaultRoute (i : RouterId) (e : Nat) : Word :=
  let d : RouterId := ⟨fin 8 (e / 32), fin 4 (e / 8)⟩
  let step (a b back fwd : Nat) := if a ≤ b then List.replicate (b - a) fwd else List.replicate (a - b) back
  let gs := step (gridX i) (gridX d) 3 1 ++ step (gridY i) (gridY d) 0 2 ++ [4 + e / 2 % 4]
  BitVec.ofNat 64 ((2 ^ 52 + gs.length * 2 ^ 48) + gs.foldr (fun g r => g + 8 * r) 0)

/-- The register at offset `o` of a block, if one stands there (R11). -/
def regIn (b : Blk) (o : Nat) : Option RegInfo :=
  match b with
  | .glob => globReg o
  | .plate _ => plateReg o
  | .hatch _ => hatchReg o
  | .core _ => coreReg o
  | .stack _ => stackReg o
  | .router i =>
    if inArr 0x800 8 256 o then
      some { rw := 0x1FFFFFFFFFFFFF#64, reset := defaultRoute i ((o - 0x800) / 8) }
    else routerReg o
  | .netPlate _ => netPlateReg o
  | .region _ => regionReg o
  | .channel _ => channelReg o
  | .bank _ => bankReg o
  | .scrub _ => scrubReg o
  | .queue _ _ => queueReg o
  | .port k => portReg k o
  | .conf => confReg o
  | .engine => engineReg o
  | .mgmt => mgmtReg o

/-- The register at a control-space address. -/
def regAt (a : Nat) : Option RegInfo :=
  match locate a with
  | some (b, o) => regIn b o
  | none => none

/-- The stored value of the register at `a` after a module reset. -/
def resetOf (a : Nat) : Word :=
  match regAt a with
  | some r => r.reset
  | none => 0

end Sys2Proof.Machine
end

