-- ==== Sys2Proof/Machine/Ops.lean ====
section
/-! DEFINITION. Shared operations: fields of words, sparse tables, bytes, the units of State, registers with
their flags and counters, fault records, and the outcome of a command. -/
namespace Sys2Proof.Machine

/-! ### Fields and bytes -/

/-- Bits `[lo+n-1:lo]` of a number. -/
def fld (w lo n : Nat) : Nat := w >>> lo % 2 ^ n

/-- Bits `[lo+n-1:lo]` of a word. -/
def bitsOf (w : Word) (lo n : Nat) : Nat := fld w.toNat lo n

/-- Bit `k` of a word. -/
def bitOf (w : Word) (k : Nat) : Bool := w.toNat.testBit k

/-- `w` with bits `[lo+n-1:lo]` replaced by `v`. -/
def withBits (w : Word) (lo n v : Nat) : Word :=
  (w &&& ~~~(BitVec.ofNat 64 ((2 ^ n - 1) <<< lo))) ||| BitVec.ofNat 64 ((v % 2 ^ n) <<< lo)

/-- `v` held at the largest value of `n` bits, as saturating counters are. -/
def satN (n v : Nat) : Nat := min v (2 ^ n - 1)

/-- A little-endian number from its bytes (R6). -/
def leNat (bs : List Byte) : Nat := bs.foldr (fun b r => b.toNat + 256 * r) 0

/-- The `n` little-endian bytes of a number (R6). -/
def leBytes : Nat → Nat → List Byte
  | 0, _ => []
  | n + 1, v => BitVec.ofNat 8 v :: leBytes n (v / 256)

/-- Bytes `[o, o+n)` of a list, zeros beyond its end. -/
def slice (bs : List Byte) (o n : Nat) : List Byte :=
  let t := (bs.drop o).take n
  t ++ List.replicate (n - t.length) 0

/-- The little-endian number in bytes `[o, o+n)`. -/
def leAt (bs : List Byte) (o n : Nat) : Nat := leNat (slice bs o n)

/-- The 64-bit words of a byte list. -/
def wordsOf (n : Nat) (bs : List Byte) : List Word :=
  (List.range n).map fun i => BitVec.ofNat 64 (leAt bs (8 * i) 8)

/-- A signed reading of an `n`-bit number. -/
def sgn (n v : Nat) : Int := if v < 2 ^ (n - 1) then v else (v : Int) - 2 ^ n

/-- The `n`-bit two's complement of an integer. -/
def unsgn (n : Nat) (v : Int) : Nat := (v % (2 ^ n : Int)).toNat

/-- Element `i` of a list, or `d`. -/
def nth {α : Type} (d : α) (l : List α) (i : Nat) : α := (l[i]?).getD d

/-- `l` with element `i` replaced. -/
def setNth {α : Type} (l : List α) (i : Nat) (v : α) : List α := l.set i v

/-- The first `i < n` that satisfies `p`, as `List.find?` over a range. -/
def firstIdx (n : Nat) (p : Nat → Bool) : Option Nat := (List.range n).find? p

/-- CRC-32C, one byte (R391). -/
def crcByte (crc : BitVec 32) (b : Byte) : BitVec 32 :=
  (List.range 8).foldl (fun (c : BitVec 32) _ =>
    if c.toNat % 2 = 1 then (c >>> 1) ^^^ 0x82F63B78#32 else c >>> 1) (crc ^^^ b.setWidth 32)

/-- CRC-32C of a byte list. -/
def crc32c (bs : List Byte) : BitVec 32 := bs.foldl crcByte 0xFFFFFFFF#32 ^^^ 0xFFFFFFFF#32

/-! ### Sparse tables -/

/-- The entry of key `k`; `d` is what an absent key reads as. -/
def sget {α : Type} (d : α) : SMap α → Nat → α
  | [], _ => d
  | (j, v) :: r, k => if k = j then v else sget d r k

/-- `m` without key `k`. -/
def sdel {α : Type} : SMap α → Nat → SMap α
  | [], _ => []
  | (j, v) :: r, k => if k = j then sdel r k else (j, v) :: sdel r k

/-- `m` with `v` at key `k`, keys kept rising. -/
def sput {α : Type} : SMap α → Nat → α → SMap α
  | [], k, v => [(k, v)]
  | (j, w) :: r, k, v =>
    if k = j then (k, v) :: r else if k < j then (k, v) :: (j, w) :: r else (j, w) :: sput r k v

/-- `m` with `v` at key `k` in canonical form: no entry equals what an absent key reads as. -/
def sset {α : Type} [DecidableEq α] (d : α) (m : SMap α) (k : Nat) (v : α) : SMap α :=
  if v = d then sdel m k else sput m k v

/-- `m` with every key of `[lo, lo+n)` absent. -/
def sclear {α : Type} (m : SMap α) (lo n : Nat) : SMap α :=
  m.filter fun e => decide (e.1 < lo) || decide (lo + n ≤ e.1)

/-- `n` bytes from address `a`. -/
def readMem (m : SMap Byte) (a n : Nat) : List Byte := (List.range n).map fun i => sget 0 m (a + i)

/-- Bytes stored from address `a`. -/
def writeMem (m : SMap Byte) (a : Nat) : List Byte → SMap Byte
  | [] => m
  | b :: bs => writeMem (sset 0 m a b) (a + 1) bs

/-- Whether a table is in canonical form: keys strictly rising, no entry at its default. -/
def canonical {α : Type} [DecidableEq α] (d : Nat → α) : SMap α → Bool
  | [] => true
  | [(k, v)] => decide (v ≠ d k)
  | (k, v) :: (j, w) :: r => decide (v ≠ d k) && decide (k < j) && canonical d ((j, w) :: r)

/-- A byte memory in canonical form. -/
def memWf (m : SMap Byte) : Bool := canonical (fun _ => 0) m

/-! ### The units of State -/

def State.core (s : State) (i : CoreId) : CoreSt := sget {} s.cores i.key
def State.setCore (s : State) (i : CoreId) (c : CoreSt) : State :=
  { s with cores := sset {} s.cores i.key c }
def State.modCore (s : State) (i : CoreId) (f : CoreSt → CoreSt) : State := s.setCore i (f (s.core i))

def State.hatch (s : State) (i : HatchId) : HatchSt := sget {} s.hatches i.key
def State.setHatch (s : State) (i : HatchId) (h : HatchSt) : State :=
  { s with hatches := sset {} s.hatches i.key h }
def State.modHatch (s : State) (i : HatchId) (f : HatchSt → HatchSt) : State := s.setHatch i (f (s.hatch i))

def State.plate (s : State) (p : Fin 8) : PlateSt := sget {} s.plates p.val
def State.setPlate (s : State) (p : Fin 8) (x : PlateSt) : State :=
  { s with plates := sset {} s.plates p.val x }
def State.modPlate (s : State) (p : Fin 8) (f : PlateSt → PlateSt) : State := s.setPlate p (f (s.plate p))

def State.stack (s : State) (i : StackId) : StackSt := sget {} s.drams i.key
def State.setStack (s : State) (i : StackId) (x : StackSt) : State :=
  { s with drams := sset {} s.drams i.key x }
def State.modStack (s : State) (i : StackId) (f : StackSt → StackSt) : State := s.setStack i (f (s.stack i))

def State.router (s : State) (i : RouterId) : RouterSt := sget {} s.routers i.key
def State.setRouter (s : State) (i : RouterId) (x : RouterSt) : State :=
  { s with routers := sset {} s.routers i.key x }
def State.modRouter (s : State) (i : RouterId) (f : RouterSt → RouterSt) : State :=
  s.setRouter i (f (s.router i))

def State.port (s : State) (k : Fin 10) : PortSt := sget {} s.ports k.val
def State.setPort (s : State) (k : Fin 10) (x : PortSt) : State :=
  { s with ports := sset {} s.ports k.val x }
def State.modPort (s : State) (k : Fin 10) (f : PortSt → PortSt) : State := s.setPort k (f (s.port k))

def State.region (s : State) (i : RegionId) : RegionSt := sget {} s.regions i.key
def State.setRegion (s : State) (i : RegionId) (x : RegionSt) : State :=
  { s with regions := sset {} s.regions i.key x }
def State.modRegion (s : State) (i : RegionId) (f : RegionSt → RegionSt) : State :=
  s.setRegion i (f (s.region i))

def State.bank (s : State) (i : BankId) : IoBankSt := sget {} s.banks i.key
def State.setBank (s : State) (i : BankId) (x : IoBankSt) : State :=
  { s with banks := sset {} s.banks i.key x }

def State.modEngine (s : State) (f : EngineSt → EngineSt) : State := { s with engine := f s.engine }
def State.modPair (s : State) (f : PairSt → PairSt) : State := { s with pair := f s.pair }
def State.modGfc (s : State) (f : GfcSt → GfcSt) : State := { s with gfc := f s.gfc }
def State.modMgmt (s : State) (f : MgmtSt → MgmtSt) : State := { s with mgmt := f s.mgmt }
def State.modMod (s : State) (f : ModuleSt → ModuleSt) : State := { s with mod := f s.mod }
def State.modPins (s : State) (f : PinSt → PinSt) : State := { s with pins := f s.pins }
def State.modBoot (s : State) (f : BootSt → BootSt) : State := { s with boot := f s.boot }

/-- Every hatch, core, stack and region of the module, in order. -/
def plateIds : List (Fin 8) := List.finRange 8
def hatchIds : List HatchId := plateIds.flatMap fun p => (List.finRange 4).map fun h => ⟨p, h⟩
def coreIds : List CoreId := plateIds.flatMap fun p => (List.finRange 36).map fun c => ⟨p, c⟩
def stackIds : List StackId := plateIds.flatMap fun p => (List.finRange 4).map fun q => ⟨p, q⟩
def regionIds : List RegionId := plateIds.flatMap fun p => (List.finRange 8).map fun r => ⟨p, r⟩
def routerIds : List RouterId := plateIds.flatMap fun p => (List.finRange 4).map fun q => ⟨p, q⟩
/-- The physical cores of a hatch, by position (R26). -/
def hatchCores (i : HatchId) : List CoreId := (List.finRange 9).map i.core

/-- The save region of a hatch in plate store (Table 8.2): its first byte and its length. -/
def saveBase (h : Fin 4) : Nat := 0x1800000 + h.val * 0x2400000
def saveSize : Nat := 0x2400000

/-- Whether a mark is of a word that reads as zeros. -/
def Mark.dead : Mark → Bool
  | .corrected _ => false
  | .uncorrectable | .poisoned => true

/-- What the last saved image, if any, gives at a place of plate store (assumption 114). -/
def PlateSt.image (x : PlateSt) (a : Nat) : Byte :=
  if 0x1800000 ≤ a ∧ a < 0xA800000 then
    let k := sget 0 x.saves ((a - 0x1800000) / saveSize)
    if k = 0 then 0 else Config.saveByte k ((a - 0x1800000) % saveSize)
  else 0

/-- A byte of plate store. -/
def PlateSt.byte (x : PlateSt) (a : Nat) : Byte := sget 0 x.store a ^^^ x.image a

/-! ### Registers, flags and counters -/

/-- The stored value of the register at control-space address `a`. -/
def State.reg (s : State) (a : Nat) : Word := sget (resetOf a) s.regs a

/-- Store a register. -/
def State.setReg (s : State) (a : Nat) (v : Word) : State := { s with regs := sset (resetOf a) s.regs a v }

/-- A field of a register. -/
def State.rf (s : State) (a lo n : Nat) : Nat := bitsOf (s.reg a) lo n

/-- Write a field of a register. -/
def State.setRf (s : State) (a lo n v : Nat) : State := s.setReg a (withBits (s.reg a) lo n v)

/-- Add to a counter field, holding it at its largest value. -/
def State.satRf (s : State) (a lo n v : Nat) : State := s.setRf a lo n (satN n (s.rf a lo n + v))

/-- Add to a counter field that wraps. -/
def State.addRf (s : State) (a lo n v : Nat) : State := s.setRf a lo n (s.rf a lo n + v)

/-- One hardware event of W1C flag `b` of the register at `a`: the flag is set, and its companion counter, which
stands at `a + 8 + 8b` in every flag register of the manual, adds one (R15). -/
def State.flag (s : State) (a b : Nat) : State :=
  (s.setReg a (s.reg a ||| BitVec.ofNat 64 (2 ^ b))).setReg (a + 8 + 8 * b) (s.reg (a + 8 + 8 * b) + 1)

/-- A register of a block at an offset. -/
def Blk.at (b : Blk) (o : Nat) : Nat := b.base + o

def coreAt (i : CoreId) (o : Nat) : Nat := (Blk.core i).base + o
def hatchAt (i : HatchId) (o : Nat) : Nat := (Blk.hatch i).base + o
def plateAt (p : Fin 8) (o : Nat) : Nat := (Blk.plate p).base + o
def stackAt (i : StackId) (o : Nat) : Nat := (Blk.stack i).base + o
def routerAt (i : RouterId) (o : Nat) : Nat := (Blk.router i).base + o
def portAt (k : Fin 10) (o : Nat) : Nat := (Blk.port k).base + o
def regionAt (i : RegionId) (o : Nat) : Nat := (Blk.region i).base + o
def channelAt (i : RegionId) (o : Nat) : Nat := (Blk.channel i).base + o
def scrubAt (p : Fin 8) (o : Nat) : Nat := (Blk.scrub p).base + o
def queueAt (p : Fin 8) (q : Nat) (o : Nat) : Nat := (Blk.queue p (fin 256 q)).base + o
def bankAt (i : BankId) (o : Nat) : Nat := (Blk.bank i).base + o
def netAt (p : Fin 8) (o : Nat) : Nat := (Blk.netPlate p).base + o
def confAt (o : Nat) : Nat := Blk.conf.base + o
def engineAt (o : Nat) : Nat := Blk.engine.base + o
def mgmtAt (o : Nat) : Nat := Blk.mgmt.base + o

/-- A discarded write is counted, without a fault (R13). -/
def State.discard (s : State) : State := s.setReg 0x1020 (s.reg 0x1020 + 1)

/-! ### Fault records -/

/-- A unit ID (Table 13.12). -/
def unitId (type plate index : Nat) : BitVec 16 := BitVec.ofNat 16 (type * 4096 + plate * 512 + index)
def coreUnit (i : CoreId) : BitVec 16 := unitId 1 i.p.val i.c.val
def hatchUnit (i : HatchId) : BitVec 16 := unitId 2 i.p.val i.h.val
def stackUnit (i : StackId) : BitVec 16 := unitId 3 i.p.val i.s.val
def regionUnit (i : RegionId) : BitVec 16 := unitId 4 i.p.val i.r.val
def scrubUnit (p : Fin 8) : BitVec 16 := unitId 5 p.val 0
def linkGroup (i : RouterId) (m : Mesh) : BitVec 16 :=
  unitId 6 i.p.val (4 * i.q.val + match m with | .n => 0 | .e => 1 | .s => 2 | .w => 3)
def portUnit (k : Fin 10) : BitVec 16 := unitId 8 0 k.val
def mgmtUnit (m : Fin 2) : BitVec 16 := unitId 9 0 m.val
def engineUnit : BitVec 16 := unitId 10 0 0
def pstoreUnit (p : Fin 8) : BitVec 16 := unitId 11 p.val 0

/-- A fault record leaves for the global fault collector in a FREC packet (Table 13.11). -/
def State.report (s : State) (r : FRec) : State := s.modGfc fun g => { g with frec := g.frec ++ [r] }

/-- A flag record (Table 13.13). -/
def flagRec (s : State) (suspect reporter : BitVec 16) (regNo flag : Nat) (tag : BitVec 32)
    (bundle slot detail : Nat) : FRec :=
  { time := s.mod.time, suspect, reporter, cls := 1,
    body := [BitVec.ofNat 64 (flag + regNo * 256 + tag.toNat * 2 ^ 32),
             BitVec.ofNat 64 (bundle % 2 ^ 16 + slot % 8 * 2 ^ 16 + detail % 2 ^ 32 * 2 ^ 32)] }

/-- Send a flag record (Table 13.13). -/
def State.reportFlag (s : State) (suspect reporter : BitVec 16) (regNo flag : Nat)
    (tag : BitVec 32 := 0) (bundle slot detail : Nat := 0) : State :=
  s.report (flagRec s suspect reporter regNo flag tag bundle slot detail)

/-- The PORT code of a port class in GFC_ACCESS (Table 13.22). -/
def portCode : PortClass → Nat
  | .management => 0 | .fabric => 1 | .tie => 2 | .icp => 3 | .testPort => 4 | .complex => 5

/-- The global fault collector records an access fault: GFC_ACCESS and a record with REG 0x0D (R10, R11). -/
def State.accessFault (s : State) (src : PortClass) (write : Bool) (a : Nat) : State :=
  (s.setReg 0x1028 (BitVec.ofNat 64
      (2 ^ 63 + (if write then 2 ^ 62 else 0) + portCode src * 2 ^ 40 + a % 2 ^ 40))).reportFlag 0 0 0x0D 0

/-! ### Power domains (§9.6) -/

/-- The key of a domain in `PlateSt.domains`. -/
def domKey : Domain → Nat
  | .hatch h => h.val
  | .region r => 4 + r.val
def State.dom (s : State) (p : Fin 8) (d : Domain) : DomainSt := sget {} (s.plate p).domains (domKey d)
def State.setDom (s : State) (p : Fin 8) (d : Domain) (x : DomainSt) : State :=
  s.modPlate p fun y => { y with domains := sset {} y.domains (domKey d) x }
/-- Whether a domain is awake. -/
def State.awake (s : State) (p : Fin 8) (d : Domain) : Bool := !(s.dom p d).asleep && !(s.dom p d).waking

/-! ### Free values, events and the outcome of a command -/

/-- Take a fresh free word (assumption 2). -/
def State.fresh (s : State) : Word × State := (Config.freeWord s.freeCtr, { s with freeCtr := s.freeCtr + 1 })

/-- The event log keeps 1,024 records and overwrites the oldest (R595). -/
def State.event (s : State) (type : Nat) (unit : BitVec 16) (detail : Nat) : State :=
  s.modMgmt fun m =>
    let e : EvRec := { eseq := m.eseq + 1, time := s.mod.time, type := BitVec.ofNat 16 type, unit,
                       detail := BitVec.ofNat 64 detail }
    let l := m.log ++ [e]
    { m with eseq := m.eseq + 1, log := l.drop (l.length - 1024) }

/-- Count in a telemetry item (R602), keyed by ID and instance. -/
def State.tel (s : State) (id inst : Nat) (v : Nat := 1) : State :=
  s.modMgmt fun m =>
    let k := id * 65536 + inst
    { m with tel := sset 0 m.tel k (sget 0 m.tel k + BitVec.ofNat 64 v) }

/-- Sample a telemetry gauge (R602). -/
def State.gauge (s : State) (id inst v : Nat) : State :=
  s.modMgmt fun m => { m with tel := sset 0 m.tel (id * 65536 + inst) (BitVec.ofNat 64 v) }

/-- A latency since a time is counted in its histogram: 0 LAT_ACCEPT, 1 LAT_JACK, 2 LAT_COMPLETE (R603).  Bucket b holds latencies from
2^(b/4) ns: those whose fourth power is at least 2^b. -/
def State.latency (s : State) (item : Nat) (since : Word) : State :=
  s.modMgmt fun m =>
    let k := item * 160 + min 159 (((s.mod.time - since).toNat ^ 4).log2)
    { m with hist := sset 0 m.hist k (sget 0 m.hist k + 1) }

/-- A recovery of a kind has finished; its fault record bears the time `since` (Tables 14.8, 14.16). -/
def State.recovered (s : State) (kind : Nat) (since : Word) : State :=
  let us := (s.mod.time - since).toNat / 1000
  let max_ := (sget 0 s.mgmt.tel (0x0203 * 65536 + kind)).toNat
  ((s.gauge 0x0202 kind us).gauge 0x0203 kind (max us max_)).event 0x08 0 (kind + us * 256)

/-- An interrupt line whose source is a change is raised by the command that makes it (R601). -/
def State.edge (s : State) (line : Nat) : State :=
  s.modMod fun m => { m with edge := m.edge ||| BitVec.ofNat 6 (2 ^ line) }

/-- A per-function reset of an index starts: its bit of FUNC_BUSYn is 1 (R631). -/
def State.setBusy (s : State) (k : Nat) : State :=
  s.modMod fun m => { m with busy := if m.busy.contains k then m.busy else m.busy ++ [k] }

/-- Line 5 is raised when the status register at `a` has changed from `s` to `t` (Table 14.15). -/
def edgeIf (a : Nat) (s t : State) : State := if s.reg a = t.reg a then t else t.edge 5

/-- The interrupt lines whose source is a level: a line is asserted while its source flag is set (R601,
Table 14.15): 0 GFC_INT.WINDOW, 2 PAIR_STAT.HBMISSED non-zero, 3 any flag of CMSN_ERR, 4 half of the
watchdog timeout. -/
def levelLines (s : State) : BitVec 6 :=
  (if bitOf (s.reg 0x1010) 0 then 1#6 else 0#6)
    ||| (if s.rf 0x400000108 16 8 ≠ 0 then 4#6 else 0#6)
    ||| (if s.rf 0x400000020 0 4 ≠ 0 then 8#6 else 0#6)
    ||| (if s.mod.half then 16#6 else 0#6)

/-- FAULT_N is driven low by GFC_FAULTN.ASSERT (R568), by an expired watchdog (R577), by a start-up failure
(R625) and by a thermal trip of the module (R615). -/
def faultLow (s : State) : Bool :=
  bitOf (s.reg 0x1030) 0 || bitOf (s.reg 0x18) 1 || bitOf (s.reg 0x300) 4 || s.mod.tripped

/-- The outputs that follow the state: the interrupt lines and FAULT_N. -/
def settle (s : State) : State :=
  { s with mod := { s.mod with lines := levelLines s ||| s.mod.edge, edge := 0, stall := false },
           pins := { s.pins with faultN := !faultLow s } }

/-- The outcome of a command that has its effect. -/
def done (s : State) : Host.Outcome State Fault Refusal := .next (settle s)

/-- The outcome of a command whose accesses to DRAM may have to wait: it then has not happened yet, and a later command does it
(R379, R386, R389, assumption 13). -/
def doneWhenServed (s t : State) : Host.Outcome State Fault Refusal := done (if t.mod.stall then s else t)

/-! ### Policies (Table 14.10) -/

/-- The default of a steward policy, and the value in force (R597). -/
def policyDefault (id : Nat) : Nat :=
  nth 0 [0, 0, 4, 24, 1, 50, 16, 100, 10000, 24, 1, 10, 4, 3, 1000, 1, 1, 100, 25, 60, 2, 10, 100, 1000] id
def State.policy (s : State) (id : Nat) : Nat := (sget (BitVec.ofNat 32 (policyDefault id)) s.mgmt.policy id).toNat

end Sys2Proof.Machine
end

