-- ==== Sys2Proof/Machine/Crypto.lean ====
section
/-! DEFINITION. The cryptographic standards that R484–R488 name: SHA-384 and HMAC (FIPS 180-4, RFC 2104), AES-256 with its key wrap and
Galois counter mode (FIPS 197, RFC 3394, SP 800-38D), RSASSA-PSS (RFC 8017) and SLH-DSA-SHA2-192s (FIPS 205).  The manual names
them and does not restate them: what they say is taken from the standards (PRESUMED, assumption 44). -/
namespace Sys2Proof.Machine

/-! ### Byte strings (R483) -/

/-- The number that a byte string spells, the highest byte first. -/
def beNat (bs : List Byte) : Nat := bs.foldl (fun r b => r * 256 + b.toNat) 0
/-- A number in `n` bytes, the highest first. -/
def beBytes (n v : Nat) : List Byte := (leBytes n v).reverse
/-- The exclusive or of two byte strings, as long as the first. -/
def xorBytes (a b : List Byte) : List Byte := a.zipIdx.map fun x => x.1 ^^^ nth 0 b x.2
/-- `n` pieces of `k` bytes. -/
def chunks (k : Nat) : Nat → List Byte → List (List Byte)
  | 0, _ => []
  | n + 1, bs => bs.take k :: chunks k n (bs.drop k)

/-! ### SHA-2 (FIPS 180-4) -/

/-- A member of the family: the width of its words, the rotations of its four functions (the last of a small one a shift), its round
constants. -/
structure Sha2 where
  w    : Nat
  big0 : Nat × Nat × Nat
  big1 : Nat × Nat × Nat
  sm0  : Nat × Nat × Nat
  sm1  : Nat × Nat × Nat
  k    : List Nat

/-- The round constants of SHA-384 and SHA-512: fractional parts of the cube roots of the first primes. -/
def sha512K : List Nat :=
  [0x428A2F98D728AE22, 0x7137449123EF65CD, 0xB5C0FBCFEC4D3B2F, 0xE9B5DBA58189DBBC, 0x3956C25BF348B538, 0x59F111F1B605D019, 
   0x923F82A4AF194F9B, 0xAB1C5ED5DA6D8118, 0xD807AA98A3030242, 0x12835B0145706FBE, 0x243185BE4EE4B28C, 0x550C7DC3D5FFB4E2, 
   0x72BE5D74F27B896F, 0x80DEB1FE3B1696B1, 0x9BDC06A725C71235, 0xC19BF174CF692694, 0xE49B69C19EF14AD2, 0xEFBE4786384F25E3, 
   0x0FC19DC68B8CD5B5, 0x240CA1CC77AC9C65, 0x2DE92C6F592B0275, 0x4A7484AA6EA6E483, 0x5CB0A9DCBD41FBD4, 0x76F988DA831153B5, 
   0x983E5152EE66DFAB, 0xA831C66D2DB43210, 0xB00327C898FB213F, 0xBF597FC7BEEF0EE4, 0xC6E00BF33DA88FC2, 0xD5A79147930AA725, 
   0x06CA6351E003826F, 0x142929670A0E6E70, 0x27B70A8546D22FFC, 0x2E1B21385C26C926, 0x4D2C6DFC5AC42AED, 0x53380D139D95B3DF, 
   0x650A73548BAF63DE, 0x766A0ABB3C77B2A8, 0x81C2C92E47EDAEE6, 0x92722C851482353B]
  ++ [0xA2BFE8A14CF10364, 0xA81A664BBC423001, 0xC24B8B70D0F89791, 0xC76C51A30654BE30, 0xD192E819D6EF5218, 0xD69906245565A910, 
   0xF40E35855771202A, 0x106AA07032BBD1B8, 0x19A4C116B8D2D0C8, 0x1E376C085141AB53, 0x2748774CDF8EEB99, 0x34B0BCB5E19B48A8, 
   0x391C0CB3C5C95A63, 0x4ED8AA4AE3418ACB, 0x5B9CCA4F7763E373, 0x682E6FF3D6B2B8A3, 0x748F82EE5DEFB2FC, 0x78A5636F43172F60, 
   0x84C87814A1F0AB72, 0x8CC702081A6439EC, 0x90BEFFFA23631E28, 0xA4506CEBDE82BDE9, 0xBEF9A3F7B2C67915, 0xC67178F2E372532B, 
   0xCA273ECEEA26619C, 0xD186B8C721C0C207, 0xEADA7DD6CDE0EB1E, 0xF57D4F7FEE6ED178, 0x06F067AA72176FBA, 0x0A637DC5A2C898A6, 
   0x113F9804BEF90DAE, 0x1B710B35131C471B, 0x28DB77F523047D84, 0x32CAAB7B40C72493, 0x3C9EBE0A15C9BEBC, 0x431D67C49C100D4C, 
   0x4CC5D4BECB3E42B6, 0x597F299CFC657E2A, 0x5FCB6FAB3AD6FAEC, 0x6C44198C4A475817]
/-- The round constants of SHA-256. -/
def sha256K : List Nat :=
  [0x428A2F98, 0x71374491, 0xB5C0FBCF, 0xE9B5DBA5, 0x3956C25B, 0x59F111F1, 0x923F82A4, 0xAB1C5ED5, 0xD807AA98, 0x12835B01, 0x243185BE, 
   0x550C7DC3, 0x72BE5D74, 0x80DEB1FE, 0x9BDC06A7, 0xC19BF174, 0xE49B69C1, 0xEFBE4786, 0x0FC19DC6, 0x240CA1CC, 0x2DE92C6F, 0x4A7484AA, 
   0x5CB0A9DC, 0x76F988DA, 0x983E5152, 0xA831C66D, 0xB00327C8, 0xBF597FC7, 0xC6E00BF3, 0xD5A79147, 0x06CA6351, 0x14292967, 0x27B70A85, 
   0x2E1B2138, 0x4D2C6DFC, 0x53380D13, 0x650A7354, 0x766A0ABB, 0x81C2C92E, 0x92722C85]
  ++ [0xA2BFE8A1, 0xA81A664B, 0xC24B8B70, 0xC76C51A3, 0xD192E819, 0xD6990624, 0xF40E3585, 0x106AA070, 0x19A4C116, 0x1E376C08, 0x2748774C, 
   0x34B0BCB5, 0x391C0CB3, 0x4ED8AA4A, 0x5B9CCA4F, 0x682E6FF3, 0x748F82EE, 0x78A5636F, 0x84C87814, 0x8CC70208, 0x90BEFFFA, 0xA4506CEB, 
   0xBEF9A3F7, 0xC67178F2]

def sha2x64 : Sha2 := { w := 64, big0 := (28, 34, 39), big1 := (14, 18, 41), sm0 := (1, 8, 7), sm1 := (19, 61, 6), k := sha512K }
def sha2x32 : Sha2 := { w := 32, big0 := (2, 13, 22), big1 := (6, 11, 25), sm0 := (7, 18, 3), sm1 := (17, 19, 10), k := sha256K }

/-- A word rotated right. -/
def rotr (w n x : Nat) : Nat := x / 2 ^ n + x % 2 ^ n * 2 ^ (w - n)
def Sha2.big (p : Sha2) (r : Nat × Nat × Nat) (x : Nat) : Nat := rotr p.w r.1 x ^^^ rotr p.w r.2.1 x ^^^ rotr p.w r.2.2 x
def Sha2.sm (p : Sha2) (r : Nat × Nat × Nat) (x : Nat) : Nat := rotr p.w r.1 x ^^^ rotr p.w r.2.1 x ^^^ x / 2 ^ r.2.2

/-- The rounds over the constants that are left; `m` are the next sixteen words of the message schedule. -/
def Sha2.rounds (p : Sha2) : List Nat → List Nat → List Nat → List Nat
  | [], _, v => v
  | k :: ks, m, v =>
    let x (i : Nat) : Nat := nth 0 v i
    let y (i : Nat) : Nat := nth 0 m i
    let ch := (x 4 &&& x 5) ^^^ ((2 ^ p.w - 1 - x 4) &&& x 6)
    let maj := (x 0 &&& x 1) ^^^ (x 0 &&& x 2) ^^^ (x 1 &&& x 2)
    let t := x 7 + p.big p.big1 (x 4) + ch + k + y 0
    let a := (t + p.big p.big0 (x 0) + maj) % 2 ^ p.w
    let e := (x 3 + t) % 2 ^ p.w
    let next := (p.sm p.sm1 (y 14) + y 9 + p.sm p.sm0 (y 1) + y 0) % 2 ^ p.w
    Sha2.rounds p ks (m.drop 1 ++ [next]) [a, x 0, x 1, x 2, e, x 4, x 5, x 6]

/-- The hash value after one block. -/
def Sha2.block (p : Sha2) (v : List Nat) (b : List Byte) : List Nat :=
  let r := p.rounds p.k ((chunks (p.w / 8) 16 b).map beNat) v
  v.zipIdx.map fun x => (x.1 + nth 0 r x.2) % 2 ^ p.w

/-- The digest of a message from an initial hash value, as the words of it. -/
def Sha2.hash (p : Sha2) (iv : List Nat) (msg : List Byte) : List Byte :=
  let n := 2 * p.w
  let used := msg.length + 1 + p.w / 4
  let m := msg ++ [0x80] ++ List.replicate ((n - used % n) % n) 0 ++ beBytes (p.w / 4) (8 * msg.length)
  ((chunks n (m.length / n) m).foldl p.block iv).flatMap (beBytes (p.w / 8))

/-- SHA-384 (R484, R485). -/
def sha384 (msg : List Byte) : List Byte :=
  (sha2x64.hash
  [0xCBBB9D5DC1059ED8, 0x629A292A367CD507, 0x9159015A3070DD17, 0x152FECD8F70E5939, 0x67332667FFC00B31, 0x8EB44A8768581511, 
   0xDB0C2E0D64F98FA7, 0x47B5481DBEFA4FA4] msg).take 48

def sha512 (msg : List Byte) : List Byte :=
  sha2x64.hash
  [0x6A09E667F3BCC908, 0xBB67AE8584CAA73B, 0x3C6EF372FE94F82B, 0xA54FF53A5F1D36F1, 0x510E527FADE682D1, 0x9B05688C2B3E6C1F, 
   0x1F83D9ABFB41BD6B, 0x5BE0CD19137E2179] msg

def sha256 (msg : List Byte) : List Byte :=
  sha2x32.hash
  [0x6A09E667, 0xBB67AE85, 0x3C6EF372, 0xA54FF53A, 0x510E527F, 0x9B05688C, 0x1F83D9AB, 0x5BE0CD19] msg

/-- HMAC-SHA-384 with a key of at most 128 bytes (R488). -/
def hmac384 (key msg : List Byte) : List Byte :=
  let pad (x : Byte) : List Byte := (List.range 128).map fun k => nth 0 key k ^^^ x
  sha384 (pad 0x5C ++ sha384 (pad 0x36 ++ msg))

/-! ### AES-256 (FIPS 197) -/

/-- The S-box and its inverse, sixteen entries a number, the first lowest. -/
def sboxRows : List Nat :=
  [0x76ABD7FE2B670130C56F6BF27B777C63,
   0xC072A49CAFA2D4ADF04759FA7DC982CA,
   0x1531D871F1E5A534CCF73F362693FDB7,
   0x75B227EBE28012079A059618C323C704,
   0x842FE329B3D63B52A05A6E1B1A2C8309,
   0xCF584C4A39BECB6A5BB1FC20ED00D153,
   0xA89F3C507F02F94585334D43FBAAEFD0,
   0xD2F3FF1021DAB6BCF5389D928F40A351,
   0x73195D643D7EA7C41744975FEC130CCD,
   0xDB0B5EDE14B8EE4688902A22DC4F8160,
   0x79E4959162ACD3C25C2406490A3A32E0,
   0x08AE7A65EAF4566CA94ED58D6D37C8E7,
   0x8A8BBD4B1F74DDE8C6B4A61C2E2578BA,
   0x9E1DC186B95735610EF6034866B53E70,
   0xDF2855CEE9871E9B948ED9691198F8E1,
   0x16BB54B00F2D99416842E6BF0D89A18C]
def invSboxRows : List Nat :=
  [0xFBD7F3819EA340BF38A53630D56A0952,
   0xCBE9DEC444438E3487FF2F9B8239E37C,
   0x4EC3FA420B954CEE3D23C2A632947B54,
   0x25D18B6D49A25B76B224D92866A12E08,
   0x92B6655DCC5CA4D41698688664F6F872,
   0x849D8DA75746155EDAB9EDFD5048706C,
   0x0645B3B80558E4F70AD3BC8C00ABD890,
   0x6B8A130103BDAFC1020F3FCA8F1E2CD0,
   0x73E6B4F0CECFF297EADC674F4111913A,
   0x6EDF751CE837F9E28535ADE72274AC96,
   0x1BBE18AA0E62B76F89C5291D711AF147,
   0xF45ACD78FEC0DB9A2079D2C64B3E56FC,
   0x5FEC8027591012B131C7078833A8DD1F,
   0xEF9CC9939F7AE52D0D4AB519A97F5160,
   0x619953833CBBEBC8B0F52AAE4D3BE0A0,
   0x7D0C2155631469E126D677BA7E042B17]

def boxAt (t : List Nat) (x : Nat) : Nat := fld (nth 0 t (x / 16)) (8 * (x % 16)) 8
def sbox (x : Nat) : Nat := boxAt sboxRows x
def invSbox (x : Nat) : Nat := boxAt invSboxRows x

/-- Multiplication by x, and by a number, in the field of AES. -/
def xtime (x : Nat) : Nat := if x < 128 then 2 * x else (2 * x) ^^^ 0x11B
def gmul (n x : Nat) : Nat :=
  let y := xtime x
  let z := xtime y
  (if n.testBit 0 then x else 0) ^^^ (if n.testBit 1 then y else 0) ^^^ (if n.testBit 2 then z else 0) ^^^ (if n.testBit 3 then xtime z else 0)

/-- The key schedule: `n` words of four bytes more, after those of the list. -/
def expandKey : Nat → List (List Nat) → List (List Nat)
  | 0, ws => ws
  | n + 1, ws =>
    let i := ws.length
    let t := nth [] ws (i - 1)
    let s (k : Nat) : Nat := sbox (nth 0 t k)
    let t := if i % 8 = 0 then [s 1 ^^^ 2 ^ (i / 8 - 1), s 2, s 3, s 0] else if i % 8 = 4 then [s 0, s 1, s 2, s 3] else t
    expandKey n (ws ++ [t.zipIdx.map fun x => x.1 ^^^ nth 0 (nth [] ws (i - 8)) x.2])

/-- The fifteen round keys of a 32-byte key. -/
def roundKeys (key : List Byte) : List (List Nat) :=
  let ws := expandKey 52 ((chunks 4 8 key).map fun c => c.map (·.toNat))
  (List.range 15).map fun r => ((List.range 4).map fun k => nth [] ws (4 * r + k)).flatten

def addKey (a k : List Nat) : List Nat := a.zipIdx.map fun x => x.1 ^^^ nth 0 k x.2
/-- A linear step on the four columns, by the first row of its matrix. -/
def mixColumns (m : List Nat) (a : List Nat) : List Nat :=
  (List.range 16).map fun i =>
    (List.range 4).foldl (fun r k => r ^^^ gmul (nth 0 m ((k + 4 - i % 4) % 4)) (nth 0 a (i / 4 * 4 + k))) 0

/-- A block enciphered under round keys. -/
def aesEnc (ks : List (List Nat)) (b : List Byte) : List Byte :=
  let shift (a : List Nat) : List Nat := (List.range 16).map fun i => sbox (nth 0 a ((i + 4 * (i % 4)) % 16))
  let a := addKey (b.map (·.toNat)) (nth [] ks 0)
  let a := ((ks.drop 1).take 13).foldl (fun a k => addKey (mixColumns [2, 3, 1, 1] (shift a)) k) a
  (addKey (shift a) (nth [] ks 14)).map (BitVec.ofNat 8)

/-- A block deciphered under round keys. -/
def aesDec (ks : List (List Nat)) (b : List Byte) : List Byte :=
  let unshift (a : List Nat) : List Nat := (List.range 16).map fun i => invSbox (nth 0 a ((i + 16 - 4 * (i % 4)) % 16))
  let a := addKey (b.map (·.toNat)) (nth [] ks 14)
  let a := ((ks.drop 1).take 13).reverse.foldl (fun a k => mixColumns [14, 11, 13, 9] (addKey (unshift a) k)) a
  (addKey (unshift a) (nth [] ks 0)).map (BitVec.ofNat 8)

/-! ### The key wrap of RFC 3394 -/

/-- The steps of the unwrap from step `t` down to 1, over the integrity register and the four blocks. -/
def unwrapSteps (ks : List (List Nat)) : Nat → List Byte × List (List Byte) → List Byte × List (List Byte)
  | 0, x => x
  | t + 1, (a, r) =>
    let i := t % 4
    let b := aesDec ks (xorBytes a (beBytes 8 (t + 1)) ++ nth [] r i)
    unwrapSteps ks t (b.take 8, r.set i (b.drop 8))

/-- A 32-byte key unwrapped under a KEK, or none where the integrity check fails (R486). -/
def unwrapKey (kek wkey : List Byte) : Option (List Byte) :=
  let (a, r) := unwrapSteps (roundKeys kek) 24 (wkey.take 8, chunks 8 4 (wkey.drop 8))
  if a = List.replicate 8 0xA6 then some r.flatten else none

/-! ### Galois counter mode (SP 800-38D) -/

/-- The product in the field of GHASH; the highest bit of a block is its first. -/
def ghashMul (x y : Nat) : Nat :=
  ((List.range 128).foldl (fun (r : Nat × Nat) i =>
    (if x.testBit (127 - i) then r.1 ^^^ r.2 else r.1, if r.2 % 2 = 1 then r.2 / 2 ^^^ 0xE1 * 2 ^ 120 else r.2 / 2)) (0, y)).1

/-- GHASH of a string of whole blocks. -/
def ghash (h : Nat) (bs : List Byte) : Nat :=
  (chunks 16 (bs.length / 16) bs).foldl (fun r b => ghashMul (r ^^^ beNat b) h) 0

/-- A string padded with zeros to whole blocks. -/
def padBlock (bs : List Byte) : List Byte := bs ++ List.replicate ((16 - bs.length % 16) % 16) 0

/-- The tag of a ciphertext: key, 12-byte IV, additional authenticated data (R487). -/
def gcmTag (key iv aad ct : List Byte) : List Byte :=
  let ks := roundKeys key
  let h := beNat (aesEnc ks (List.replicate 16 0))
  let s := ghash h (padBlock aad ++ padBlock ct ++ beBytes 8 (8 * aad.length) ++ beBytes 8 (8 * ct.length))
  xorBytes (beBytes 16 s) (aesEnc ks (iv ++ beBytes 4 1))

/-- Bytes `[o, o+n)` of the key stream of a key and an IV. -/
def gcmStream (key iv : List Byte) (o n : Nat) : List Byte :=
  let ks := roundKeys key
  let k := o / 16
  slice ((List.range ((o + n + 15) / 16 - k)).flatMap fun j => aesEnc ks (iv ++ beBytes 4 (2 + k + j))) (o - 16 * k) n

/-! ### RSASSA-PSS (RFC 8017) -/

/-- MGF1 over a hash of `hl` bytes. -/
def mgf1 (hash : List Byte → List Byte) (hl : Nat) (seed : List Byte) (n : Nat) : List Byte :=
  ((List.range ((n + hl - 1) / hl)).flatMap fun c => hash (seed ++ beBytes 4 c)).take n

/-- The 65,537th power of a number modulo another. -/
def pow65537 (x n : Nat) : Nat := (List.range 16).foldl (fun r _ => r * r % n) (x % n) * x % n

/-- RSASSA-PSS verification with SHA-384, MGF1 with SHA-384, a salt of 48 bytes and the exponent 65,537: modulus, message, signature
(R485). -/
def rsaPss (modulus msg sig : List Byte) : Bool :=
  let n := beNat modulus
  let s := beNat sig
  let emBits := n.log2
  let emLen := (emBits + 7) / 8
  let top := 2 ^ (emBits - 8 * (emLen - 1))
  if (n.log2 + 8) / 8 ≠ sig.length ∨ n ≤ s ∨ emLen < 98 then false
  else
    let em := beBytes emLen (pow65537 s n)
    let db := xorBytes (em.take (emLen - 49)) (mgf1 sha384 48 (slice em (emLen - 49) 48) (emLen - 49))
    let db := BitVec.ofNat 8 ((nth 0 db 0).toNat % top) :: db.drop 1
    let salt := db.drop (emLen - 97)
    2 ^ (8 * emLen) > pow65537 s n && nth 0 em (emLen - 1) == 0xBC && decide ((nth 0 em 0).toNat < top)
      && (db.take (emLen - 98)).all (· == 0) && nth 0 db (emLen - 98) == 1
      && sha384 (List.replicate 8 0 ++ sha384 msg ++ salt) == slice em (emLen - 49) 48

/-! ### SLH-DSA-SHA2-192s (FIPS 205) -/

/-- An address: layer, tree, type, and its last three words. -/
structure SlhAdrs where
  layer : Nat
  tree  : Nat
  type  : Nat
  a     : Nat
  b     : Nat
  c     : Nat

/-- The compressed address. -/
def SlhAdrs.bytes (x : SlhAdrs) : List Byte :=
  beBytes 1 x.layer ++ beBytes 8 x.tree ++ beBytes 1 x.type ++ beBytes 4 x.a ++ beBytes 4 x.b ++ beBytes 4 x.c

/-- The functions F, and H and T, under the public seed. -/
def slhF (seed : List Byte) (x : SlhAdrs) (m : List Byte) : List Byte :=
  (sha256 (seed ++ List.replicate 40 0 ++ x.bytes ++ m)).take 24
def slhH (seed : List Byte) (x : SlhAdrs) (m : List Byte) : List Byte :=
  (sha512 (seed ++ List.replicate 104 0 ++ x.bytes ++ m)).take 24

/-- The `n` digits of `b` bits of a string, the highest first. -/
def digits (b n : Nat) (bs : List Byte) : List Nat :=
  (List.range n).map fun i => beNat bs / 2 ^ (8 * bs.length - b * (i + 1)) % 2 ^ b

/-- The climb from node `i` over an authentication path; `z` is the height of the next node, and `adr` its address. -/
def slhClimb (seed : List Byte) (adr : Nat → Nat → SlhAdrs) : List (List Byte) → Nat → Nat → List Byte → List Byte
  | [], _, _, v => v
  | p :: ps, z, i, v => slhClimb seed adr ps (z + 1) (i / 2) (slhH seed (adr z (i / 2)) (if i % 2 = 0 then v ++ p else p ++ v))

/-- The WOTS+ public key that a signature of a 24-byte string gives. -/
def wotsKey (seed : List Byte) (layer tree leaf : Nat) (sig msg : List Byte) : List Byte :=
  let ds := digits 4 48 msg
  let ds := ds ++ digits 4 3 (beBytes 2 ((ds.map fun d => 15 - d).sum * 16))
  slhH seed ⟨layer, tree, 1, leaf, 0, 0⟩ ((ds.zipIdx.zip (chunks 24 51 sig)).flatMap fun x =>
    (List.range (15 - x.1.1)).foldl (fun v j => slhF seed ⟨layer, tree, 0, leaf, x.1.2, x.1.1 + j⟩ v) x.2)

/-- The roots of the seven XMSS trees, from the lowest layer up. -/
def hyperRoot (seed : List Byte) : Nat → Nat → Nat → Nat → List Byte → List Byte → List Byte
  | 0, _, _, _, _, v => v
  | n + 1, layer, tree, leaf, sig, v =>
    let node := wotsKey seed layer tree leaf sig v
    let v := slhClimb seed (fun z i => ⟨layer, tree, 2, 0, z, i⟩) (chunks 24 9 (sig.drop 1224)) 1 leaf node
    hyperRoot seed n (layer + 1) (tree / 512) (tree % 512) (sig.drop 1440) v

/-- SLH-DSA-SHA2-192s verification in pure form with an empty context: public key, message, signature (R485). -/
def slhDsa (pk msg sig : List Byte) : Bool :=
  let seed := pk.take 24
  let root := pk.drop 24
  let r := sig.take 24
  let dg := mgf1 sha512 64 (r ++ seed ++ sha512 (r ++ pk ++ [0, 0] ++ msg)) 39
  let tree := beNat (slice dg 30 7) % 2 ^ 54
  let leaf := beNat (slice dg 37 2) % 2 ^ 9
  let fors := (digits 14 17 (dg.take 30)).zipIdx.flatMap fun x =>
    let t := chunks 24 15 (sig.drop (24 + 360 * x.2))
    let i := x.2 * 2 ^ 14 + x.1
    slhClimb seed (fun z i => ⟨0, tree, 3, leaf, z, i⟩) (t.drop 1) 1 i (slhF seed ⟨0, tree, 3, leaf, 0, i⟩ (nth [] t 0))
  sig.length == 16224 && hyperRoot seed 7 0 tree leaf (sig.drop 6144) (slhH seed ⟨0, tree, 4, leaf, 0, 0⟩ fors) == root

end Sys2Proof.Machine
end

