-- ==== Sys2Proof/Machine/Float.lean ====
section
/-! DEFINITION. The eleven formats of chapter 2: exact values, one rounding (R92, R93), the outcomes of Table
2.11, subnormals (§2.8), exact arithmetic, maximum, minimum and comparison (§2.9). -/
namespace Sys2Proof.Machine

/-- The formats (Table 2.1); Q15 and Q31 read S16 and S32 patterns as fixed point (R72). -/
inductive Fmt where
  | b32 | t16 | b16 | s32 | s16 | q31 | q15 | s8 | k4 | k5 | n4 | b64
  deriving DecidableEq, Repr

/-- The unscaled format of a format code (Table 6.8). -/
def Fmt.ofCode (c : BitVec 4) : Option Fmt :=
  match c.toNat with
  | 0 => some .b32 | 1 => some .t16 | 2 => some .b16 | 3 => some .s32 | 4 => some .s16 | 5 => some .q31
  | 6 => some .q15 | 7 => some .s8 | 8 => some .k4 | 9 => some .k5 | 10 => some .n4 | _ => none

/-- The width in bits of an element. -/
def Fmt.width : Fmt → Nat
  | .b64 => 64
  | .b32 | .s32 | .q31 => 32
  | .t16 | .b16 | .s16 | .q15 => 16
  | .s8 | .k4 | .k5 => 8
  | .n4 => 4

/-- Whether a format is a float. -/
def Fmt.isFloat : Fmt → Bool
  | .b32 | .t16 | .b16 | .k4 | .k5 | .n4 | .b64 => true
  | _ => false

/-- Fraction bits of a float (R63, Tables 2.1, 2.4). -/
def Fmt.frac : Fmt → Nat
  | .b32 => 23 | .t16 => 7 | .b16 => 10 | .k4 => 3 | .k5 => 2 | .n4 => 1 | .b64 => 52 | _ => 0

/-- Exponent bias of a float. -/
def Fmt.bias : Fmt → Nat
  | .b32 | .t16 => 127 | .b16 | .k5 => 15 | .k4 => 7 | .n4 => 1 | .b64 => 1023 | _ => 0

/-- Unbiased exponent of the smallest normal. -/
def Fmt.emin (f : Fmt) : Int := 1 - (f.bias : Int)

/-- Unbiased exponent T of the largest finite value (Tables 2.2, 2.4). -/
def Fmt.top : Fmt → Int
  | .k4 => 8 | .k5 => 15 | .n4 => 2 | .b16 => 15 | .b64 => 1023 | _ => 127

/-- Largest significand at T, as an integer with `frac` fraction bits (Tables 2.2, 2.4). -/
def Fmt.sigMax (f : Fmt) : Nat := if f = .k4 then 14 else 2 ^ (f.frac + 1) - 1

/-- Whether the format has an infinity. -/
def Fmt.hasInf : Fmt → Bool
  | .k4 | .n4 => false
  | f => f.isFloat

/-- The canonical NaN (R69). -/
def Fmt.nan : Fmt → Nat
  | .b32 => 0x7FC00000 | .t16 => 0x7FC0 | .b16 => 0x7E00 | .k4 => 0x7F | .k5 => 0x7E
  | .b64 => 0x7FF8000000000000 | _ => 0

/-- An exact value: a NaN, an infinity, or `±m·2^e` (zero keeps its sign, R106). -/
inductive Val where
  | nan
  | inf (neg : Bool)
  | fin (neg : Bool) (m : Nat) (e : Int)
  deriving DecidableEq, Repr

/-- Arithmetic flags as R113 numbers them in CORE_NUMFLAG. -/
abbrev Flags := BitVec 4
def fInvalid : Flags := 1#4
def fDivzero : Flags := 2#4
def fOverflow : Flags := 4#4
def fUnderflow : Flags := 8#4

/-- `m / 2^k` rounded to nearest, ties to even (R92). -/
def rne (m k : Nat) : Nat :=
  let q := m >>> k
  let r := m - q <<< k
  let h := 1 <<< k
  if h < 2 * r || (2 * r == h && q % 2 == 1) then q + 1 else q

/-- `m·2^e` rounded to `fb` fraction bits with an unbounded exponent above and the subnormal grid below
`2^emin` (R93, R104); `rtz` rounds toward zero instead (KX-4 mode, R248). -/
def roundGrid (rtz : Bool) (fb : Nat) (emin : Int) (m : Nat) (e : Int) : Nat × Int :=
  if m = 0 then (0, e)
  else
    let lead := e + (Nat.log2 m : Int)
    let q := max lead emin - (fb : Int)
    if q ≤ e then (m <<< (e - q).toNat, q)
    else (if rtz then m >>> (q - e).toNat else rne m (q - e).toNat, q)

/-- Whether `m·2^e` exceeds the largest finite value. -/
def Fmt.over (f : Fmt) (m : Nat) (e : Int) : Bool :=
  if m = 0 then false
  else
    let lead := e + (Nat.log2 m : Int)
    decide (f.top < lead) ||
      (decide (lead = f.top) && decide (f.sigMax <<< (Nat.log2 m + 1) < m <<< (f.frac + 1)))

/-- The code of a value that lies on the grid of `f` and does not overflow. -/
def Fmt.pack (f : Fmt) (neg : Bool) (m : Nat) (e : Int) : Nat :=
  let s := if neg then 2 ^ (f.width - 1) else 0
  if m = 0 then s
  else
    let lead := e + (Nat.log2 m : Int)
    let q := max lead f.emin - (f.frac : Int)
    let sig := if q ≤ e then m <<< (e - q).toNat else m >>> (q - e).toNat
    if lead < f.emin then s + sig
    else s + ((lead + f.bias).toNat - 1) <<< f.frac + sig

/-- Infinity's code. -/
def Fmt.infCode (f : Fmt) (neg : Bool) : Nat :=
  (if neg then 2 ^ (f.width - 1) else 0) + (2 ^ (f.width - 1) - 2 ^ f.frac)

/-- The largest finite value's code. -/
def Fmt.maxCode (f : Fmt) (neg : Bool) : Nat := f.pack neg f.sigMax (f.top - f.frac)

/-- The exact value of a code (§2.2–§2.4): every NaN code is the one quiet NaN (R64). -/
def Fmt.decode (f : Fmt) (code : Nat) : Val :=
  if f.isFloat then
    let neg := code.testBit (f.width - 1)
    let x := fld code f.frac (f.width - 1 - f.frac)
    let m := code % 2 ^ f.frac
    let all := x == 2 ^ (f.width - 1 - f.frac) - 1
    if f.hasInf && all then (if m = 0 then .inf neg else .nan)
    else if f = .k4 && all && m == 7 then .nan
    else if x = 0 then .fin neg m (f.emin - f.frac)
    else .fin neg (2 ^ f.frac + m) ((x : Int) - f.bias - f.frac)
  else
    let n := sgn f.width (code % 2 ^ f.width)
    .fin (decide (n < 0)) n.natAbs (match f with | .q15 => -15 | .q31 => -31 | _ => 0)

/-- Whether a value is non-zero and below the normal range of `f`. -/
def Fmt.isSub (f : Fmt) (m : Nat) (e : Int) : Bool :=
  m != 0 && decide (e + (Nat.log2 m : Int) < f.emin)

/-- Whether the subnormal mode governs a format (R65, R70, R102). -/
def Fmt.flushes (f : Fmt) : Bool := f = .b32 || f = .t16 || f = .b16

/-- An operand as the mode reads it: in Flush mode a subnormal is a zero with its sign (R103). -/
def Fmt.operand (f : Fmt) (keep : Bool) (code : Nat) : Val :=
  match f.decode code with
  | .fin neg m e => if !keep && f.flushes && f.isSub m e then .fin neg 0 0 else .fin neg m e
  | v => v

/-- One rounding of an exact value to float format `f` with the outcomes of Table 2.11, R103 and R104.
`rtz` is the rounding of KX-4 mode. -/
def roundFloat (f : Fmt) (sat keep : Bool) (v : Val) (rtz : Bool := false) : Nat × Flags :=
  match v with
  | .nan => if f = .n4 then (0, fInvalid) else (f.nan, 0)
  | .inf neg =>
    if f.hasInf then (f.infCode neg, 0)
    else if f = .n4 then (f.maxCode neg, fInvalid)
    else if sat then (f.maxCode neg, 0) else (f.nan, fInvalid)
  | .fin neg m e =>
    let (m', e') := roundGrid rtz f.frac f.emin m e
    if f.over m' e' then
      if sat || f = .n4 then (f.maxCode neg, fOverflow)
      else if f.hasInf then (f.infCode neg, fOverflow) else (f.nan, fOverflow)
    else
      let z := m' == 0 || (!keep && f.flushes && f.isSub m' e')
      (f.pack neg (if z then 0 else m') e', if z && m != 0 then fUnderflow else 0)

/-- The value that `roundFloat` stores, and its flags. -/
def roundVal (f : Fmt) (sat keep : Bool) (v : Val) : Val × Flags :=
  let r := roundFloat f sat keep v
  (f.decode r.1, r.2)

/-- A signed mantissa. -/
def sm (neg : Bool) (m : Nat) : Int := if neg then -(m : Int) else m

/-- Two signed values on a common exponent. -/
def align (n1 : Bool) (m1 : Nat) (e1 : Int) (n2 : Bool) (m2 : Nat) (e2 : Int) : Int × Int × Int :=
  let e := min e1 e2
  (sm n1 (m1 <<< (e1 - e).toNat), sm n2 (m2 <<< (e2 - e).toNat), e)

/-- Exact sum (R106, R116): opposite infinities are INVALID; a cancelling sum is +0. -/
def vAdd (a b : Val) : Val × Flags :=
  match a, b with
  | .nan, _ => (.nan, 0)
  | _, .nan => (.nan, 0)
  | .inf s, .inf t => if s = t then (.inf s, 0) else (.nan, fInvalid)
  | .inf s, _ => (.inf s, 0)
  | _, .inf t => (.inf t, 0)
  | .fin n1 m1 e1, .fin n2 m2 e2 =>
    if m1 = 0 ∧ m2 = 0 then (.fin (n1 && n2) 0 0, 0)
    else
      let (x, y, e) := align n1 m1 e1 n2 m2 e2
      let t := x + y
      (.fin (decide (t < 0)) t.natAbs e, 0)

/-- A value with its sign changed. -/
def vNeg : Val → Val
  | .nan => .nan
  | .inf n => .inf (!n)
  | .fin n m e => .fin (!n) m e

/-- Its magnitude. -/
def vAbs : Val → Val
  | .nan => .nan
  | .inf _ => .inf false
  | .fin _ m e => .fin false m e

/-- Exact product: infinity times zero is INVALID (R111). -/
def vMul (a b : Val) : Val × Flags :=
  match a, b with
  | .nan, _ => (.nan, 0)
  | _, .nan => (.nan, 0)
  | .inf s, .inf t => (.inf (s != t), 0)
  | .inf s, .fin t m _ => if m = 0 then (.nan, fInvalid) else (.inf (s != t), 0)
  | .fin s m _, .inf t => if m = 0 then (.nan, fInvalid) else (.inf (s != t), 0)
  | .fin s m e, .fin t n g => (.fin (s != t) (m * n) (e + g), 0)

/-- Exact `a·b + c`.  That 0 × ∞ raises INVALID beside a NaN addend too, which IEEE 754-2019 leaves to the implementation, is the model's
choice (assumption 126). -/
def vFma (a b c : Val) : Val × Flags :=
  let (p, f) := vMul a b
  let (r, g) := vAdd p c
  (r, f ||| g)

/-- The quotient `m1·2^e1 / (m2·2^e2)` as a dyadic that rounds the same way at any precision up to 80 bits:
80 or more quotient bits with a sticky bit. -/
def divSticky (m1 : Nat) (e1 : Int) (m2 : Nat) (e2 : Int) : Nat × Int :=
  let k := 82 + Nat.log2 m2
  let n := m1 <<< k
  let q := n / m2
  (2 * q + (if q * m2 = n then 0 else 1), e1 - e2 - (k : Int) - 1)

/-- Exact quotient: x/0 is an infinity with DIVZERO, 0/0 and inf/inf are INVALID (R111, R116). -/
def vDiv (a b : Val) : Val × Flags :=
  match a, b with
  | .nan, _ => (.nan, 0)
  | _, .nan => (.nan, 0)
  | .inf _, .inf _ => (.nan, fInvalid)
  | .inf s, .fin t _ _ => (.inf (s != t), 0)
  | .fin s _ _, .inf t => (.fin (s != t) 0 0, 0)
  | .fin s m e, .fin t n g =>
    if n = 0 then (if m = 0 then (.nan, fInvalid) else (.inf (s != t), fDivzero))
    else let (q, x) := divSticky m e n g; (.fin (s != t) q x, 0)

/-- Order of two values that are not NaN; −0 equals +0 (R110). -/
def vCmp (a b : Val) : Ordering :=
  match a, b with
  | .inf s, .inf t => if s = t then .eq else if s then .lt else .gt
  | .inf s, _ => if s then .lt else .gt
  | _, .inf t => if t then .gt else .lt
  | .fin n1 m1 e1, .fin n2 m2 e2 =>
    let (x, y, _) := align n1 m1 e1 n2 m2 e2
    compare x y
  | _, _ => .eq

/-- Whether a value is a NaN. -/
def Val.isNan : Val → Bool
  | .nan => true
  | _ => false

/-- Whether a value is negative, −0 included. -/
def Val.isNeg : Val → Bool
  | .nan => false
  | .inf n => n
  | .fin n _ _ => n

/-- Whether a value is ±0. -/
def Val.isZero : Val → Bool
  | .fin _ 0 _ => true
  | _ => false

/-- Maximum or minimum with −0 below +0; the propagating form gives a NaN when either operand is one, the number
form the other operand (R108). -/
def vMinMax (isMax prop : Bool) (a b : Val) : Val :=
  if a.isNan && b.isNan then .nan
  else if a.isNan then (if prop then .nan else b)
  else if b.isNan then (if prop then .nan else a)
  else
    let less := match vCmp a b with
      | .lt => true
      | .gt => false
      | .eq => a.isNeg && !b.isNeg
    if less == isMax then b else a

/-- Zero with a sign. -/
def vZero (neg : Bool) : Val := .fin neg 0 0

/-- An integer as a value. -/
def vInt (n : Int) : Val := .fin (decide (n < 0)) n.natAbs 0

/-- The exponent `floor(log2 |v|)` of a non-zero `m·2^e`. -/
def leadExp (m : Nat) (e : Int) : Int := e + (Nat.log2 m : Int)

/-! ### Conversion (§2.7) -/

/-- What a conversion gives: code, flags, and what CORE_CVTCNT counts (R91): elements flushed, N4 NaNs. -/
structure Cvt where
  code  : Nat
  flags : Flags := 0
  flush : Nat := 0
  nanz  : Nat := 0
  deriving DecidableEq, Repr

/-- The ends of an integer format. -/
def Fmt.imin (f : Fmt) : Int := -(2 ^ (f.width - 1) : Nat)
def Fmt.imax (f : Fmt) : Int := (2 ^ (f.width - 1) : Nat) - 1
/-- Fraction bits of a fixed-point format. -/
def Fmt.q : Fmt → Nat
  | .q15 => 15 | .q31 => 31 | _ => 0

/-- `±m·2^e · 2^q` rounded to nearest even as an integer. -/
def toInt (q : Nat) (neg : Bool) (m : Nat) (e : Int) : Int :=
  let x := e + (q : Int)
  sm neg (if 0 ≤ x then m <<< x.toNat else rne m (-x).toNat)

/-- Float to integer or fixed point (Table 2.12, R100). -/
def floatToInt (f : Fmt) (sat : Bool) (v : Val) : Nat × Flags :=
  let out (neg : Bool) : Nat × Flags :=
    if sat then (unsgn f.width (if neg then f.imin else f.imax), fOverflow)
    else (unsgn f.width f.imin, fInvalid)
  match v with
  | .nan => (0, fInvalid)
  | .inf neg => out neg
  | .fin neg m e =>
    let n := toInt f.q neg m e
    if f.imin ≤ n ∧ n ≤ f.imax then (unsgn f.width n, 0) else out neg

/-- An exact integer (in units of the destination's last place) put into an integer format: wrap or clamp with
OVERFLOW (R208, Table 2.12). -/
def fitInt (f : Fmt) (sat : Bool) (n : Int) : Nat × Flags :=
  if f.imin ≤ n ∧ n ≤ f.imax then (unsgn f.width n, 0)
  else (unsgn f.width (if sat then (if n < 0 then f.imin else f.imax) else n), fOverflow)

/-- Whether every value of float `src` is a value of another float `dst`: a widening (R96). -/
def Fmt.widens (src dst : Fmt) : Bool :=
  src.isFloat && dst.isFloat && src != dst && decide (src.frac ≤ dst.frac) && decide (src.top ≤ dst.top)
    && decide (dst.emin - dst.frac ≤ src.emin - src.frac)

/-- Any conversion of §2.7 between unscaled formats, with its counts (R91).  A widening raises no flag (R96). -/
def convert (src dst : Fmt) (sat keep : Bool) (code : Nat) : Cvt :=
  let v := if src.isFloat then src.operand keep code else src.decode code
  if dst.isFloat then
    let (c, fl) := roundFloat dst sat keep v
    let nz := match src.decode code with
      | .fin _ m _ => m != 0
      | _ => false
    let lost := nz && (dst.decode c).isZero
    let narrow := dst = .k4 || dst = .k5 || dst = .n4
    { code := c, flags := if src.widens dst then 0 else if lost then fl ||| fUnderflow else fl,
      flush := if narrow && lost then 1 else 0, nanz := if dst = .n4 && v.isNan then 1 else 0 }
  else if src.isFloat then
    let r := floatToInt dst sat v
    { code := r.1, flags := r.2 }
  else
    match v with
    | .fin neg m e => let r := fitInt dst sat (toInt dst.q neg m e); { code := r.1, flags := r.2 }
    | _ => { code := 0 }

/-- A scaled element with coarse scale `c` (binary32) and fine scale `e8` decoded into the float format `dst` (R97, R98). No slot
operation of the bundle names this conversion. -/
def decodeScaled (f dst : Fmt) (sat keep : Bool) (c e8 code : Nat) : Nat × Flags :=
  if e8 = 0 then (0, 0)
  else if e8 = 255 then (dst.nan, 0)
  else
    let (v, g) := vMul (Fmt.b32.decode c) (match f.decode code with
      | .fin n m e => .fin n m (e + e8 - 127)
      | v => v)
    let r := roundFloat dst sat keep v
    (r.1, g ||| r.2)

end Sys2Proof.Machine
end

