-- ==== Sys2Proof/Machine/Encoder.lean ====
section
/-! DEFINITION. The store-path encoder (§2.6): the fine scale of a block and its element codes (R80–R86). -/
namespace Sys2Proof.Machine

/-- One encoded block: the E8 code, the element codes (`none` out of bounds), counts and flags. -/
structure EncBlock where
  e8    : Nat
  codes : List (Option Nat)
  flush : Nat := 0
  nanz  : Nat := 0
  flags : Flags := 0
  deriving DecidableEq, Repr

/-- The first rounding point of one element (R80): the value, whether it was flushed, whether an N4 NaN was
replaced, and the flags. -/
def encFirst (f : Fmt) (encMul : Nat) (sat keep : Bool) (v : Nat) : Val × Nat × Nat × Flags :=
  let x := Fmt.b32.decode v
  let (p, g) := vMul x (Fmt.b32.decode encMul)
  let (u, h) := roundVal .b32 sat true p
  let sub := match u with
    | .fin _ m e => !keep && Fmt.b32.isSub m e
    | _ => false
  let gone := !x.isZero && !x.isNan && u.isZero
  let lost := gone || sub
  let u := if gone then vZero x.isNeg else if sub then vZero u.isNeg else u
  let nan4 := f = .n4 && u.isNan
  (if nan4 then vZero false else u, if lost then 1 else 0, if nan4 then 1 else 0,
    (g ||| h ||| (if lost then fUnderflow else 0)) ||| (if nan4 then fInvalid else 0))

/-- The fine scale for the largest finite magnitude `m·2^e` of a block (R81). -/
def fineScale (f : Fmt) (m : Nat) (e : Int) : Nat :=
  let lead := leadExp m e
  let l := Nat.log2 m
  let sig := if l ≤ f.frac then m <<< (f.frac - l) else rne m (l - f.frac)
  let e8 := lead - f.top + 127 + (if f.sigMax < sig then 1 else 0)
  if e8 < 1 then 1 else e8.toNat

/-- The largest finite magnitude of a list, as a value. -/
def maxFinite (vs : List Val) : Val :=
  vs.foldl (fun a v => match v with
    | .fin _ m e => if vCmp a (.fin false m e) == .lt then .fin false m e else a
    | _ => a) (vZero false)

/-- Encode one block (R80); `vs` holds the in-bounds binary32 inputs, `none` out of bounds. -/
def encodeBlock (f : Fmt) (encMul : Nat) (sat keep : Bool) (vs : List (Option Nat)) : EncBlock :=
  let us := vs.map fun v => v.map (encFirst f encMul sat keep)
  let inb := us.filterMap id
  let flags := inb.foldl (fun a u => a ||| u.2.2.2) (0 : Flags)
  let flush := (inb.map fun u => u.2.1).sum
  let nanz := (inb.map fun u => u.2.2.1).sum
  let ok := inb.map fun u => u.1
  if ok.isEmpty then { e8 := 0, codes := vs.map fun _ => none }
  else if f ≠ .n4 ∧ ok.all Val.isNan then
    { e8 := 255, codes := us.map fun u => u.map fun _ => f.nan, flush, nanz, flags }
  else
    let amax := maxFinite ok
    if amax.isZero ∧ ok.all Val.isZero then
      { e8 := 0, codes := us.map fun u => u.map fun _ => 0, flush, nanz, flags }
    else
      let e8 := match amax with
        | .fin _ 0 _ => 127
        | .fin _ m e => fineScale f m e
        | _ => 127
      let cs := us.map fun u => u.map fun u =>
        let (c, g) := roundFloat f sat true (match u.1 with
          | .fin n m e => .fin n m (e + 127 - e8)
          | v => v)
        let lost := match u.1 with
          | .fin _ m _ => m != 0 && (f.decode c).isZero
          | _ => false
        (c, if lost then 1 else 0, if lost then g ||| fUnderflow else g)
      let ins := cs.filterMap id
      { e8, codes := cs.map fun c => c.map (·.1), flush := flush + (ins.map fun c => c.2.1).sum, nanz,
        flags := ins.foldl (fun a c => a ||| c.2.2) flags }

end Sys2Proof.Machine
end

