-- ==== Sys2Proof/Machine/Fixed.lean ====
section
/-! DEFINITION. The exact functions that the special-function unit approximates, in fixed point with 320 fraction
bits: enough to place each value between two neighbouring binary32 values (§5.5, §5.9, §5.10).  A number
`x` here stands for `x / 2^320`. -/
namespace Sys2Proof.Machine

/-- Fraction bits. -/
def fxP : Nat := 320
/-- One. -/
def fxOne : Nat := 1 <<< 320

/-- `a·b`. -/
def fxMul (a b : Nat) : Nat := (a * b) >>> fxP
/-- `a/b`. -/
def fxDiv (a b : Nat) : Nat := (a <<< fxP) / b

/-- The sum of the terms `t, t·f 0, t·f 0·f 1, …` where the next term is `next k t`. -/
def fxSum (next : Nat → Nat → Nat) : Nat → Nat → Nat → Nat
  | 0, _, _ => 0
  | fuel + 1, k, t => if t = 0 then 0 else t + fxSum next fuel (k + 1) (next k t)

/-- `e^x` for `x < 128`: the series at `x/256`, squared eight times. -/
def fxExp (x : Nat) : Nat :=
  let r := x >>> 8
  let y := fxSum (fun k t => fxMul t r / (k + 1)) 100 0 fxOne
  (List.range 8).foldl (fun y _ => fxMul y y) y

/-- `artanh z` for `z ≤ 1/3`, as the sum of `z^(2k+1)/(2k+1)`. -/
def fxAtanh (z : Nat) : Nat :=
  let z2 := fxMul z z
  let rec go : Nat → Nat → Nat → Nat
    | 0, _, _ => 0
    | fuel + 1, k, t => if t = 0 then 0 else t / (2 * k + 1) + go fuel (k + 1) (fxMul t z2)
  go 220 0 z

/-- `ln 2`. -/
def fxLn2 : Nat := 2 * fxAtanh (fxOne / 3)

/-- `arctan (1/n)`. -/
def fxAtanInv (n : Nat) : Nat :=
  let rec go : Nat → Nat → Nat → Int
    | 0, _, _ => 0
    | fuel + 1, k, t =>
      if t = 0 then 0
      else (if k % 2 = 0 then ((t / (2 * k + 1) : Nat) : Int) else -((t / (2 * k + 1) : Nat) : Int))
        + go fuel (k + 1) (t / (n * n))
  (go 240 0 (fxOne / n)).toNat

/-- `π`. -/
def fxPi : Nat := 16 * fxAtanInv 5 - 4 * fxAtanInv 239

/-- The integer square root, bit by bit. -/
def isqrt (n : Nat) : Nat :=
  let rec go : Nat → Nat → Nat
    | 0, r => r
    | b + 1, r => let c := r + 1 <<< b; go b (if c * c ≤ n then c else r)
  go (Nat.log2 n / 2 + 1) 0

/-- `√x`. -/
def fxSqrt (x : Nat) : Nat := isqrt (x <<< fxP)

/-- `ln r` for `1 ≤ r < 2`. -/
def fxLn (r : Nat) : Nat := 2 * fxAtanh (fxDiv (r - fxOne) (r + fxOne))

/-- `sin x` for `0 ≤ x ≤ π/2`. -/
def fxSin (x : Nat) : Nat :=
  let x2 := fxMul x x
  let rec go : Nat → Nat → Nat → Int
    | 0, _, _ => 0
    | fuel + 1, k, t =>
      if t = 0 then 0
      else (if k % 2 = 0 then (t : Int) else -(t : Int))
        + go fuel (k + 1) (fxMul t x2 / ((2 * k + 2) * (2 * k + 3)))
  (go 100 0 x).toNat

/-- The sum of `x·a^n / (2n+1)!!`. -/
def fxOdd (x a : Nat) : Nat := fxSum (fun k t => fxMul t a / (2 * k + 3)) 2000 0 x

/-- `erf x` for `x < 16`: `2/√π · e^(−x²) · Σ 2^n x^(2n+1)/(2n+1)!!`, below 1. -/
def fxErf (x : Nat) : Nat :=
  let x2 := fxMul x x
  let e := (List.range 8).foldl (fun e _ => fxMul e e) (fxExp (x2 >>> 8))
  min (fxOne - 1) (fxDiv (2 * fxOdd x (2 * x2)) (fxMul (fxSqrt fxPi) e))

/-- `|Φ(x) − 1/2|` for `x < 16`, Φ the standard normal distribution; below 1/2. -/
def fxPhi (x : Nat) : Nat :=
  let x2 := fxMul x x
  let e := (List.range 8).foldl (fun e _ => fxMul e e) (fxExp (x2 >>> 9))
  min (fxOne / 2 - 1) (fxDiv (fxOdd x x2) (fxMul (fxSqrt (2 * fxPi)) e))

/-- `m·2^e` in fixed point, truncated. -/
def toFx (m : Nat) (e : Int) : Nat :=
  let s := e + (fxP : Int)
  if 0 ≤ s then m <<< s.toNat else m >>> (-s).toNat

/-- `2^r` for a fixed-point `0 ≤ r < 1`. -/
def fxExp2 (r : Nat) : Nat := fxExp (fxMul r fxLn2)

/-- `log2 r` for `1 ≤ r < 2`. -/
def fxLog2 (r : Nat) : Nat := fxDiv (fxLn r) fxLn2

/-- `1/(1+e^(−x))` for a signed fixed-point `x`, `|x| < 128`. -/
def fxSigm (neg : Bool) (x : Nat) : Nat :=
  let e := fxExp x
  if neg then fxDiv fxOne (fxOne + e) else fxDiv e (fxOne + e)

/-- `tanh |x|` for `|x| < 64`. -/
def fxTanh (x : Nat) : Nat := let e := fxExp (2 * x); fxDiv (e - fxOne) (e + fxOne)

/-- `|x|·Φ(x)` for a signed fixed-point `x`, `|x| < 16`. -/
def fxGglu (neg : Bool) (x : Nat) : Nat :=
  let h := fxOne / 2
  fxMul x (if neg then h - fxPhi x else h + fxPhi x)

end Sys2Proof.Machine
end

