-- ==== Sys2Proof/Machine/Sfu.lean ====
section
/-! DEFINITION. The special-function unit (§5.5–§5.7, §5.9): the exact points of Table 5.4 and R226, the KX-4
tables of R248, user-table evaluation (R232), and for every other Native operand a free choice inside the error
bound of Table 5.9 (assumption 20). -/
namespace Sys2Proof.Machine

/-- The built-in functions (Table 5.4). -/
inductive Sfn where
  | exp2 | log2 | rcp | rsq | sigm | tanh | gglu | erf | sint | cost
  deriving DecidableEq, Repr

def Sfn.code : Sfn → BitVec 8
  | .exp2 => 0x40 | .log2 => 0x41 | .rcp => 0x42 | .rsq => 0x43 | .sigm => 0x44 | .tanh => 0x45
  | .gglu => 0x46 | .erf => 0x47 | .sint => 0x48 | .cost => 0x49

/-- A value on the binary32 grid by truncation (R248). -/
def rtz32 (v : Val) : Val :=
  match v with
  | .fin n m e => let r := roundGrid true 23 (-126) m e; .fin n r.1 r.2
  | v => v

/-- One half, one. -/
def vOne : Val := .fin false 1 0
def vHalf : Val := .fin false 1 (-1)

/-- `x + y` and `x·y` without flags. -/
def vPlus (a b : Val) : Val := (vAdd a b).1
def vTimes (a b : Val) : Val := (vMul a b).1

/-- Scale by a power of two. -/
def vScale (v : Val) (k : Int) : Val :=
  match v with
  | .fin n m e => .fin n m (e + k)
  | v => v

/-- `floor (m·2^e)`, for `e` bounded below. -/
def floorN (m : Nat) (e : Int) : Nat := if 0 ≤ e then m <<< e.toNat else m >>> (-e).toNat

/-! ### KX-4 compatibility (R248) -/

/-- A KX-4 table value: the exact function at a grid point, rounded toward zero. -/
def kxY (f : Sfn) (i : Nat) : Val :=
  let fx (neg : Bool) (v : Nat) := rtz32 (.fin neg v (-(fxP : Int)))
  match f with
  | .exp2 => if i = 256 then .fin false 2 0 else if i = 0 then vOne else fx false (fxExp2 (i <<< (fxP - 8)))
  | .log2 => if i = 256 then vOne else if i = 0 then vZero false
             else fx false (fxLog2 (fxOne + i <<< (fxP - 8)))
  | .rcp => fx false (fxDiv fxOne (fxOne + i <<< (fxP - 8)))
  | .rsq =>
    let r := if i ≤ 128 then fxOne + i <<< (fxP - 7) else 2 * fxOne + (i - 128) <<< (fxP - 6)
    -- exact at 1 and 4
    if i = 0 then vOne else if i = 256 then vHalf else fx false (fxSqrt (fxDiv fxOne r))
  | .sigm =>
    let neg := decide (i < 128)
    let d := if neg then 128 - i else i - 128
    if i = 128 then vHalf else fx false (fxSigm neg (d <<< (fxP - 3)))
  | .tanh =>
    let neg := decide (i < 128)
    let d := if neg then 128 - i else i - 128
    if d = 0 then vZero false else fx neg (fxTanh (d <<< (fxP - 4)))
  | .erf =>
    let neg := decide (i < 128)
    let d := if neg then 128 - i else i - 128
    if d = 0 then vZero false else fx neg (fxErf (d <<< (fxP - 5)))
  | .gglu =>
    let neg := decide (i < 128)
    let d := if neg then 128 - i else i - 128
    if d = 0 then vZero false else fx neg (fxGglu neg (d <<< (fxP - 4)))
  | _ => vZero false

/-- The segment value for segment `i` and `u = um·2^ue` before its last rounding (R248).  Where `y_i` is 0 and the product's own
rounding gives 0, the product stands for it, so that the last rounding sees that a non-zero value becomes zero (R104). -/
def kxSum (f : Sfn) (i : Nat) (um : Nat) (ue : Int) : Val :=
  let y := kxY f i
  let d := rtz32 (vPlus (kxY f (i + 1)) (vNeg y))
  let p := vTimes d (.fin false um ue)
  if y.isZero && (rtz32 p).isZero then p else vPlus y (rtz32 p)

/-- The segment value for segment `i` and `u = um·2^ue` (R248). -/
def kxSeg (f : Sfn) (i : Nat) (um : Nat) (ue : Int) : Val := rtz32 (kxSum f i um ue)

/-- Split the non-negative dyadic `m·2^e`, scaled by `2^k`, into its integer part and fraction. -/
def splitFrac (m : Nat) (e k : Int) : Nat × Nat × Int :=
  let x := e + k
  if 0 ≤ x then (m <<< x.toNat, 0, 0)
  else let s := (-x).toNat; (m >>> s, m % 1 <<< s, x)

/-- A KX-4 function at a non-zero finite operand (R248, Table 5.8), before the rounding of its last operation. -/
def kx4 (f : Sfn) (neg : Bool) (m : Nat) (e : Int) : Val :=
  let lead := leadExp m e
  -- a function tabulated on a symmetric domain [−h, h) with 256 segments of width 2^−w
  let sym (h : Nat) (w : Int) (below above : Val) : Val :=
    if neg then
      if vCmp (.fin false m e) (vInt h) == .gt then below
      else
        let (q, fr, x) := splitFrac m e w
        if fr = 0 then (if q = 0 then kxSum f 128 0 0 else kxSum f (128 - q) 0 0)
        else kxSum f (127 - q) (1 <<< (-x).toNat - fr) x
    else if vCmp (.fin false m e) (vInt h) != .lt then above
    else
      let (q, fr, x) := splitFrac m e w
      kxSum f (128 + q) fr x
  match f with
  | .exp2 =>
    if !neg && decide (7 < lead) then .fin false 1 200
    else if neg && decide (7 < lead) then .fin false 1 (-256)
    else
      let (q, fr, x) := splitFrac m e 0
      let (n, rm) := if neg then (if fr = 0 then (-(q : Int), 0) else (-(q : Int) - 1, 1 <<< (-x).toNat - fr))
                     else ((q : Int), fr)
      let (i, um, ue) := splitFrac rm x 8
      vScale (kxSeg .exp2 i um ue) n
  | .log2 =>
    let (i, um, ue) := splitFrac (m - 1 <<< Nat.log2 m) (-(Nat.log2 m : Int)) 8
    vPlus (vInt lead) (kxSeg .log2 i um ue)
  | .rcp =>
    let (i, um, ue) := splitFrac (m - 1 <<< Nat.log2 m) (-(Nat.log2 m : Int)) 8
    match vScale (kxSeg .rcp i um ue) (-lead) with
    | .fin _ a b => .fin neg a b
    | v => v
  | .rsq =>
    let k := lead / 2
    let odd := lead % 2 = 1
    let fr := m - 1 <<< Nat.log2 m
    -- r − 1 on [1,2) in steps of 2^−7; r − 2 on [2,4) in steps of 2^−6
    let (i, um, ue) := splitFrac fr (-(Nat.log2 m : Int)) 7
    vScale (kxSeg .rsq (if odd then 128 + i else i) um ue) (-k)
  | .sigm => sym 16 3 (vZero false) vOne
  | .tanh => sym 8 4 (vNeg vOne) vOne
  | .erf => sym 4 5 (vNeg vOne) vOne
  | .gglu => sym 8 4 (vZero true) (.fin false m e)
  | _ => vZero false

/-! ### Native mode (R226, R250) -/

/-- The bound of Table 5.9 in units in the last place. -/
def Sfn.ulps : Sfn → Nat
  | .exp2 | .log2 | .rcp | .rsq => 1
  | .gglu => 3
  | _ => 2

/-- The magnitude of a binary32 code, with 2^128 in the place of infinity. -/
def b32Mag (k : Nat) : Val := if 0x7F800000 ≤ k then .fin false 1 128 else Fmt.b32.decode k

/-- Whether binary32 code `k` lies within `n` units in the last place of `m·2^e`, or, where that is subnormal or zero, within
2^−149 (R250). -/
def inBound (n m : Nat) (e : Int) (k : Nat) : Bool :=
  let bound : Val := if m = 0 || decide (leadExp m e < -126) then .fin false 1 (-149) else .fin false n (leadExp m e - 23)
  vCmp (vAbs (vPlus (b32Mag k) (.fin true m e))) bound != .gt

/-- The binary32 codes inside the bound of an exact value `m·2^e`, lowest first (R250); its truncation is one of them. -/
def boundCodes (n m : Nat) (e : Int) : List Nat :=
  let r := roundGrid true 23 (-126) m e
  let t := Fmt.b32.pack false r.1 r.2
  ((List.range (3 * n + 2)).map fun j => t + j).filterMap fun k =>
    if 2 * n ≤ k && inBound n m e (k - 2 * n) then some (k - 2 * n) else none

/-- A binary32 value inside the bound of an exact value `±m·2^e`, chosen among all of them by the free value `c` (R250).  An exact value
of 2^128 or more overflows (R208, Table 5.4). -/
def within (n : Nat) (neg : Bool) (m : Nat) (e : Int) (c : BitVec 32) : Val :=
  let ks := boundCodes n m e
  let k := nth 0 ks (c.toNat % ks.length)
  if (m != 0 && decide (128 ≤ leadExp m e)) || decide (0x7F800000 ≤ k) then .fin neg 1 200
  else match Fmt.b32.decode k with
    | .fin _ a b => .fin neg a b
    | v => v

/-- Sine or cosine of a 64-bit phase (R237, R238): the four quadrant points are exact. -/
def phaseFn (cos : Bool) (ph : Nat) (c : BitVec 32) : Val :=
  let ph := (ph + if cos then 2 ^ 62 else 0) % 2 ^ 64
  let q := ph / 2 ^ 62
  let r := ph % 2 ^ 62
  let neg := decide (2 ≤ q)
  if r = 0 then (if q % 2 = 0 then vZero false else .fin neg 1 0)
  else
    let r := if q % 2 = 0 then r else 2 ^ 62 - r
    within 2 neg (fxSin (fxMul (r <<< (fxP - 62)) (fxPi / 2))) (-(fxP : Int)) c

/-- A Native function at a non-zero finite operand that is no exact point of R226. -/
def native (f : Sfn) (neg : Bool) (m : Nat) (e : Int) (c : BitVec 32) : Val :=
  let lead := leadExp m e
  let x := toFx m e
  let fx (s : Bool) (v : Nat) := within f.ulps s v (-(fxP : Int)) c
  match f with
  | .exp2 =>
    if decide (7 < lead) then (if neg then within 1 false 0 0 c else .fin false 1 200)
    else
      let q := x >>> fxP
      let r := x % fxOne
      if neg then
        if r = 0 then within 1 false 1 (-(q : Int)) c
        else within 1 false (fxExp2 (fxOne - r)) (-(fxP : Int) - q - 1) c
      else within 1 false (fxExp2 r) (-(fxP : Int) + q) c
  | .log2 =>
    let l := fxLog2 (m <<< (fxP - Nat.log2 m))
    let t : Int := lead * (fxOne : Int) + (l : Int)
    fx (decide (t < 0)) t.natAbs
  | .rcp =>
    let (q, y) := divSticky 1 0 m e
    within 1 neg q y c
  | .rsq =>
    -- 1/sqrt(m·2^e) with an even exponent
    let (m, e) := if e % 2 = 0 then (m, e) else (2 * m, e - 1)
    within 1 false (isqrt ((1 <<< 200) / m)) (-100 - e / 2) c
  | .sigm => if decide (6 < lead) then (if neg then within 2 false 0 0 c else within 2 false (fxOne - 1) (-(fxP : Int)) c)
             else fx false (fxSigm neg x)
  | .tanh => if decide (5 < lead) then within 2 neg (fxOne - 1) (-(fxP : Int)) c else fx neg (fxTanh x)
  | .erf => if decide (3 < lead) then within 2 neg (fxOne - 1) (-(fxP : Int)) c else fx neg (fxErf x)
  | .gglu =>
    if decide (3 < lead) then
      if neg then within 3 true 0 0 c
      else within 3 false (m <<< 40 - 1) (e - 40) c
    else fx neg (fxGglu neg x)
  | .sint | .cost =>
    -- φ is x·2^64 modulo 2^64 (R237)
    let ph := floorN m (e + 64) % 2 ^ 64
    let ph := if neg then (2 ^ 64 - ph) % 2 ^ 64 else ph
    phaseFn (f = .cost) ph c

/-- A point where the result is exact in both modes (R226, R237, R238). -/
def exactPoint (f : Sfn) (neg : Bool) (m : Nat) (e : Int) : Option Val :=
  let pow2 := m == 1 <<< Nat.log2 m
  let lead := leadExp m e
  match f with
  | .exp2 =>
    if decide (lead ≤ 6) && decide (0 ≤ lead) && (splitFrac m e 0).2.1 == 0 then
      let n : Int := sm neg (splitFrac m e 0).1
      if -126 ≤ n ∧ n ≤ 127 then some (.fin false 1 n) else none
    else none
  | .log2 => if pow2 then some (vInt lead) else none
  | .rcp => if pow2 && decide (-lead ≤ 127) && decide (-126 ≤ -lead) then some (.fin neg 1 (-lead)) else none
  | .rsq => if pow2 && decide (lead % 2 = 0) then some (.fin false 1 (-(lead / 2))) else none
  | .sint => if lead < -32 then some (rtz32 (.fin neg 0 0)) else none
  | .cost => if lead < -32 then some vOne else none
  | _ => none

/-- `2πx` rounded once, for the small operands of SINT (R237). -/
def smallSin (neg : Bool) (m : Nat) (e : Int) : Val :=
  .fin neg (2 * fxPi * m) (e - (fxP : Int))

/-- The special values of Table 5.4. -/
def sfnSpecial (f : Sfn) (v : Val) : Option (Val × Flags) :=
  match f, v with
  | _, .nan => some (.nan, 0)
  | .exp2, .inf n => some (if n then vZero false else .inf false, 0)
  | .exp2, .fin _ 0 _ => some (vOne, 0)
  | .log2, .fin _ 0 _ => some (.inf true, fDivzero)
  | .log2, .inf n => some (if n then (.nan, fInvalid) else (.inf false, 0))
  | .log2, .fin true _ _ => some (.nan, fInvalid)
  | .rcp, .fin n 0 _ => some (.inf n, fDivzero)
  | .rcp, .inf n => some (vZero n, 0)
  | .rsq, .fin n 0 _ => some (.inf n, fDivzero)
  | .rsq, .inf n => some (if n then (.nan, fInvalid) else (vZero false, 0))
  | .rsq, .fin true _ _ => some (.nan, fInvalid)
  | .sigm, .inf n => some (if n then vZero false else vOne, 0)
  | .sigm, .fin _ 0 _ => some (vHalf, 0)
  | .tanh, .inf n => some (.fin n 1 0, 0)
  | .tanh, .fin n 0 _ => some (vZero n, 0)
  | .erf, .inf n => some (.fin n 1 0, 0)
  | .erf, .fin n 0 _ => some (vZero n, 0)
  | .gglu, .inf n => some (if n then vZero true else .inf false, 0)
  | .gglu, .fin n 0 _ => some (vZero n, 0)
  | .sint, .inf _ => some (.nan, fInvalid)
  | .sint, .fin n 0 _ => some (vZero n, 0)
  | .cost, .inf _ => some (.nan, fInvalid)
  | .cost, .fin _ 0 _ => some (vOne, 0)
  | _, _ => none

/-- The binary32 result of a special function (R224): `x` is a binary32 code. -/
def sfn32 (f : Sfn) (kx keep sat : Bool) (x : Nat) : Nat × Flags :=
  let v := Fmt.b32.operand keep x
  match sfnSpecial f v with
  | some (r, g) => let o := roundFloat .b32 sat keep r; (o.1, g ||| o.2)
  | none =>
    match v with
    | .fin n m e =>
      match exactPoint f n m e with
      | some r =>
        if f = .sint then roundFloat .b32 sat keep (smallSin n m e) else roundFloat .b32 sat keep r
      | none =>
        if kx && f ≠ .sint && f ≠ .cost then
          roundFloat .b32 true keep (kx4 f n m e) (rtz := true)
        else
          let r := native f n m e (Config.native f.code (BitVec.ofNat 32 x) 0)
          let o := roundFloat .b32 sat keep r
          (o.1, if (Fmt.b32.decode o.1).isZero && f ≠ .sint && f ≠ .cost then o.2 ||| fUnderflow else o.2)
    | _ => (Fmt.b32.nan, 0)

/-- A built-in function with its input widened and its result converted (R224): codes in and out. -/
def sfnConv (f : Sfn) (src dst : Fmt) (kx keep sat : Bool) (x : Nat) : Cvt :=
  let w := (convert src .b32 sat keep x).code
  let (r, g) := sfn32 f kx keep sat w
  let o := convert .b32 dst sat keep r
  { o with flags := o.flags ||| g }

/-- A position code (R239): a position outside 0 to 2^24 − 1 is INVALID. -/
def posc (cos : Bool) (q : Nat) (f : Nat) : Nat × Flags :=
  if 2 ^ 24 ≤ q then (Fmt.b32.nan, fInvalid)
  else roundFloat .b32 false true (phaseFn cos (q * f % 2 ^ 64)
    (Config.native (if cos then 0x4C else 0x4B) (BitVec.ofNat 32 q) (BitVec.ofNat 64 f)))

/-! ### User tables (R228–R236) -/

/-- A field of a table header (Table 5.5). -/
def hdrLo (h : BitVec 128) : Nat := fld h.toNat 0 32
def hdrBelow (h : BitVec 128) : Nat := fld h.toNat 32 32
def hdrAbove (h : BitVec 128) : Nat := fld h.toNat 64 32
def hdrN (h : BitVec 128) : Nat := fld h.toNat 96 10 + 1
def hdrW (h : BitVec 128) : Int := sgn 8 (fld h.toNat 106 8)
def hdrQuad (h : BitVec 128) : Bool := h.toNat.testBit 114
def hdrLut (h : BitVec 128) : Bool := h.toNat.testBit 115

/-- UFN on one binary32 operand (R232); a NaN coefficient raises no flag. -/
def ufn32 (b : Bank) (kx keep sat : Bool) (x : Nat) : Nat × Flags :=
  let rnd (v : Val) : Val × Flags :=
    let r := roundFloat .b32 sat keep v (rtz := kx)
    (Fmt.b32.decode r.1, r.2)
  let c (i k : Nat) : Val := Fmt.b32.operand keep (leNat (readMem b.recs (16 * i + 4 * k) 4))
  match Fmt.b32.operand keep x with
  | .nan => (Fmt.b32.nan, 0)
  | .inf n => (if n then hdrBelow b.hdr else hdrAbove b.hdr, 0)
  | v =>
    match vPlus v (vNeg (Fmt.b32.operand keep (hdrLo b.hdr))) with
    | .fin n m e =>
      if n && m != 0 then (hdrBelow b.hdr, 0)
      else
        let x := e - hdrW b.hdr
        if m ≠ 0 ∧ leadExp m x > 10 then (hdrAbove b.hdr, 0)
        else
          let (i, um, ue) := splitFrac m x 0
          if hdrN b.hdr ≤ i then (hdrAbove b.hdr, 0)
          else
            let u : Val := .fin false um ue
            let out (p : Val × Flags) (g : Flags) : Nat × Flags :=
              let r := roundFloat .b32 sat keep p.1 (rtz := kx)
              (r.1, r.2 ||| p.2 ||| g)
            if (c i 0).isNan || (c i 1).isNan || (hdrQuad b.hdr && (c i 2).isNan) then (Fmt.b32.nan, 0)
            else if hdrQuad b.hdr then
              let (t, g1) := vFma (c i 2) u (c i 1)
              let (t, g2) := rnd t
              out (vFma t u (c i 0)) (g1 ||| g2)
            else out (vFma (c i 1) u (c i 0)) 0
    | _ => (Fmt.b32.nan, 0)

end Sys2Proof.Machine
end

