-- ==== Sys2Proof/Machine/VecAlu.lean ====
section
/-! DEFINITION. What one vector-slot operation computes (chapter 5, §6.6): lane functions and the cross-lane
operations, over lists of 128 lane values. -/
namespace Sys2Proof.Machine

/-! ### Lanes -/

/-- The lanes of a vector register, lane 0 first. -/
def lanesOf (v : VReg) : List Nat := (List.range 128).map fun k => fld v.toNat (32 * k) 32

/-- A vector register from its lanes. -/
def ofLanes (l : List Nat) : VReg := BitVec.ofNat 4096 (l.foldr (fun x r => x % 2 ^ 32 + r <<< 32) 0)

/-- `old` with the lanes that `mask` selects taken from `new` (R21). -/
def mergeLanes (mask : PReg) (old new : VReg) : VReg :=
  ofLanes ((List.range 128).map fun k => fld (if mask.toNat.testBit k then new else old).toNat (32 * k) 32)

/-- Predicate bits from a function of the lane number. -/
def predOf (f : Nat → Bool) : PReg :=
  BitVec.ofNat 128 ((List.range 128).foldr (fun k r => (if f k then 1 else 0) + 2 * r) 0)

/-- `old` with the bits that `mask` selects taken from `new` (R274). -/
def mergePred (mask old new : PReg) : PReg := (new &&& mask) ||| (old &&& ~~~mask)

/-- The element that a lane holds (R206, R273). -/
def laneGet (f : Fmt) (x : Nat) : Nat := x % 2 ^ f.width

/-- The lane that holds an element: copies of the sign for S16, Q15 and S8, zeros for the floats (R206, R273). -/
def lanePut (f : Fmt) (code : Nat) : Nat :=
  match f with
  | .s16 | .q15 | .s8 => unsgn 32 (sgn f.width (code % 2 ^ f.width))
  | _ => code % 2 ^ f.width

/-- The result of an operation over the lanes, with the flags and counts of its active lanes (R112). -/
structure VRes where
  lanes : List Nat
  flags : Flags := 0
  flush : Nat := 0
  nanz  : Nat := 0
  deriving DecidableEq, Repr

/-- Apply a lane function to every lane that `mask` selects; the others hold 0 and raise nothing. -/
def vmap (mask : PReg) (f : Nat → Cvt) : VRes :=
  let rs := (List.range 128).map fun k => if mask.toNat.testBit k then f k else { code := 0 }
  { lanes := rs.map (·.code), flags := rs.foldl (fun a r => a ||| r.flags) 0,
    flush := (rs.map (·.flush)).sum, nanz := (rs.map (·.nanz)).sum }

/-- Which formats a group of operations admits (Table 5.1, R273). -/
def fmtMove (f : Fmt) : Bool := match f with
  | .b32 | .t16 | .b16 | .s32 | .s16 | .q31 | .q15 => true
  | _ => false
def fmtFloat (f : Fmt) : Bool := match f with
  | .b32 | .t16 | .b16 => true
  | _ => false

/-! ### One lane -/

/-- VADD, VSUB: the exact sum rounded once, or wrapped or clamped (R207, R208). -/
def laneAdd (sub : Bool) (f : Fmt) (sat keep : Bool) (a b : Nat) : Cvt :=
  let (c, g) :=
    if f.isFloat then
      let y := f.operand keep b
      let (v, g) := vAdd (f.operand keep a) (if sub then vNeg y else y)
      let r := roundFloat f sat keep v
      (r.1, g ||| r.2)
    else fitInt f sat (sgn f.width a + if sub then -(sgn f.width b) else sgn f.width b)
  { code := lanePut f c, flags := g }

/-- VABS and VNEG: a float changes its sign exactly, an integer overflows only at its most negative code. -/
def laneSign (neg : Bool) (f : Fmt) (sat keep : Bool) (a : Nat) : Cvt :=
  let (c, g) :=
    if f.isFloat then
      let v := f.operand keep a
      roundFloat f sat true (if neg then vNeg v else vAbs v)
    else
      let n := sgn f.width a
      fitInt f sat (if neg then -n else n.natAbs)
  { code := lanePut f c, flags := g }

/-- VMAX and VMIN in both forms (R108). -/
def laneMinMax (isMax prop : Bool) (f : Fmt) (keep : Bool) (a b : Nat) : Cvt :=
  let c :=
    if f.isFloat then
      (roundFloat f false true (vMinMax isMax prop (f.operand keep a) (f.operand keep b))).1
    else if decide (sgn f.width a < sgn f.width b) == isMax then b else a
  { code := lanePut f c }

/-- VMUL: a float product rounded once; an integer keeps the low bits, or clamps with the saturation bit (R208). -/
def laneMul (f : Fmt) (sat keep : Bool) (a b : Nat) : Cvt :=
  let (c, g) :=
    if f.isFloat then
      let (v, g) := vMul (f.operand keep a) (f.operand keep b)
      let r := roundFloat f sat keep v
      (r.1, g ||| r.2)
    else fitInt f sat (sgn f.width a * sgn f.width b)
  { code := lanePut f c, flags := g }

/-- VFMA (a·b + c) and VFMS (c − a·b), one rounding (R207). -/
def laneFma (sub : Bool) (f : Fmt) (sat keep : Bool) (a b c : Nat) : Cvt :=
  let x := f.operand keep a
  let (v, g) := vFma (if sub then vNeg x else x) (f.operand keep b) (f.operand keep c)
  let r := roundFloat f sat keep v
  { code := lanePut f r.1, flags := g ||| r.2 }

/-- VMULQ (R211). -/
def laneMulq (f : Fmt) (sat : Bool) (a b : Nat) : Cvt :=
  let p := sgn f.width a * sgn f.width b
  let (c, g) := fitInt f sat (sm (decide (p < 0)) (rne p.natAbs (f.width - 1)))
  { code := lanePut f c, flags := g }

/-- VCVT (R92). -/
def laneCvt (src dst : Fmt) (sat keep : Bool) (a : Nat) : Cvt :=
  let r := convert src dst sat keep (laneGet src a)
  { r with code := lanePut dst r.code }

/-- The six comparisons (R110), by the low bits of the opcode: EQ, NE, LT, LE, GT, GE. -/
def laneCmp (op : Nat) (f : Fmt) (keep : Bool) (a b : Nat) : Bool :=
  let o :=
    if f.isFloat then
      let x := f.operand keep a
      let y := f.operand keep b
      if x.isNan || y.isNan then none else some (vCmp x y)
    else some (compare (sgn f.width a) (sgn f.width b))
  match op with
  | 0 => o == some .eq
  | 1 => o != some .eq
  | 2 => o == some .lt
  | 3 => o == some .lt || o == some .eq
  | 4 => o == some .gt
  | _ => o == some .gt || o == some .eq

/-- The shifts of 32-bit patterns; a count of 32 or more shifts every bit out (R665). -/
def laneShl (n a : Nat) : Nat := if 32 ≤ n then 0 else a <<< n % 2 ^ 32
def laneShrl (n a : Nat) : Nat := if 32 ≤ n then 0 else a >>> n
def laneShra (n a : Nat) : Nat := unsgn 32 (sgn 32 a / (2 ^ min n 31 : Nat))

/-- One filter tap (Table 5.2): float formats add h·d to a binary32 accumulator with one rounding; Q15 adds
2·h·d to a Q31 accumulator. -/
def laneTap (f : Fmt) (sat keep : Bool) (acc h d : Nat) : Cvt :=
  if f.isFloat then
    let w (x : Nat) : Val := f.operand keep x
    let (v, g) := vFma (w h) (w d) (Fmt.b32.operand keep acc)
    let r := roundFloat .b32 sat keep v
    { code := r.1, flags := g ||| r.2 }
  else
    let r := fitInt .q31 sat (sgn 32 acc + 2 * (sgn 16 h * sgn 16 d))
    { code := r.1, flags := r.2 }

/-- VLUT (R233). -/
def laneLut (b : Bank) (x : Nat) : Cvt :=
  if x < 4096 then { code := leNat (readMem b.recs (4 * x) 4) } else { code := 0, flags := fInvalid }

/-- UFN with its input widened and its result converted (R224, R232). -/
def laneUfn (b : Bank) (src dst : Fmt) (kx keep sat : Bool) (x : Nat) : Cvt :=
  let w := (convert src .b32 sat keep (laneGet src x)).code
  let (r, g) := ufn32 b kx keep sat w
  let o := convert .b32 dst sat keep r
  { o with code := lanePut dst o.code, flags := o.flags ||| g }

/-- A built-in function (R224). -/
def laneSfn (f : Sfn) (src dst : Fmt) (kx keep sat : Bool) (x : Nat) : Cvt :=
  let o := sfnConv f src dst kx keep sat (laneGet src x)
  { o with code := lanePut dst o.code }

/-- POSC (R239): a binary32 result in a float destination. -/
def lanePosc (cos : Bool) (dst : Fmt) (keep sat : Bool) (q hi lo : Nat) : Cvt :=
  let (r, g) := posc cos q (hi <<< 32 + lo)
  let o := convert .b32 dst sat keep r
  { o with code := lanePut dst o.code, flags := o.flags ||| g }

/-! ### Across lanes -/

/-- The operand of a reduction as its lane holds it, which passes on unchanged where its partners are absent (R213): a float is read by the
subnormal mode, and a NaN is the canonical one (R69, R103). -/
def laneRead (f : Fmt) (keep : Bool) (w : Nat) : Nat :=
  if f.isFloat then (roundFloat f false true (f.operand keep w)).1 else w

/-- VROT: lane k takes lane (k + s) mod 128 (R212). -/
def vrotLanes (s : Nat) (a : List Nat) : List Nat :=
  (List.range 128).map fun k => nth 0 a ((k + s) % 128)

/-- The fixed seven-level tree of R213 over lanes that may be absent. -/
def redTree (f : Nat → Nat → Nat × Flags) (l : List (Option Nat)) : Option Nat × Flags :=
  let level (x : List (Option Nat) × Flags) (s : Nat) : List (Option Nat) × Flags :=
    let ps := (List.range 128).map fun k =>
      if k % (2 * s) = 0 then
        match nth none x.1 k, nth none x.1 (k + s) with
        | some a, some b => let r := f a b; (some r.1, r.2)
        | some a, none => (some a, 0)
        | none, o => (o, 0)
      else (nth none x.1 k, 0)
    (ps.map (·.1), ps.foldl (fun g p => g ||| p.2) x.2)
  let r := [1, 2, 4, 8, 16, 32, 64].foldl level (l, 0)
  (nth none r.1 0, r.2)

/-- VRED: the result in every lane; +0 when every lane is absent (R213). -/
def vredLanes (f : Nat → Nat → Nat × Flags) (mask : PReg) (a : List Nat) : VRes :=
  let (r, g) := redTree f ((List.range 128).map fun k =>
    if mask.toNat.testBit k then some (nth 0 a k) else none)
  { lanes := List.replicate 128 (r.getD 0), flags := g }

/-! ### Statistics (§5.8) -/

/-- Round once to the W48 format: 47 fraction bits with the binary64 exponent range, beyond which lies infinity with OVERFLOW; a
non-zero value that becomes zero raises UNDERFLOW (R111, R116, R241).  The flags that formed the value are kept. -/
def r48 (x : Val × Flags) : Val × Flags :=
  match x.1 with
  | .fin n m e =>
    let r := roundGrid false 47 (-1022) m e
    if r.1 != 0 && decide (1023 < leadExp r.1 r.2) then (.inf n, x.2 ||| fOverflow)
    else (.fin n r.1 r.2, if r.1 == 0 && m != 0 then x.2 ||| fUnderflow else x.2)
  | _ => x

/-- A W48 value as its binary64 code, and back. -/
def w48Code (v : Val) : BitVec 64 := BitVec.ofNat 64 (roundFloat .b64 false true v).1
def w48Val (c : BitVec 64) : Val := Fmt.b64.decode c.toNat

/-- VSTAT.ADD on one lane (R242, R246): `x` is a code of format `f`. -/
def statAdd (f : Fmt) (keep : Bool) (l : StatLane) (x : Nat) : StatLane × Flags :=
  if l.nan then (l, 0)
  else
    match f.operand keep x with
    | .nan => ({ l with nan := true }, 0)
    | .inf _ => ({ l with nan := true }, fInvalid)
    | v =>
      if l.n.toNat = 2 ^ 32 - 1 then ({ l with nan := true }, fOverflow)
      else
        let n1 := l.n.toNat + 1
        let mu := w48Val l.mu
        let d := r48 (vAdd v (vNeg mu))
        let q := r48 (vDiv d.1 (vInt n1))
        let mu' := r48 (vAdd mu q.1)
        let dd := r48 (vMul d.1 d.1)
        let r := r48 (vDiv (vInt l.n.toNat) (vInt n1))
        let t := r48 (vMul dd.1 r.1)
        let m2 := r48 (vAdd (w48Val l.m2) t.1)
        ({ l with n := BitVec.ofNat 32 n1, mu := w48Code mu'.1, m2 := w48Code m2.1 },
          d.2 ||| q.2 ||| mu'.2 ||| dd.2 ||| r.2 ||| t.2 ||| m2.2)

/-- The merge of lane `b` into lane `a` (R243, R246). -/
def statMerge (a b : StatLane) : StatLane × Flags :=
  if a.nan || b.nan then ({ a with nan := true }, 0)
  else if b.n = 0 then (a, 0)
  else if a.n = 0 then (b, 0)
  else
    let nt := a.n.toNat + b.n.toNat
    if 2 ^ 32 ≤ nt then ({ a with nan := true }, fOverflow)
    else
      let d := r48 (vAdd (w48Val b.mu) (vNeg (w48Val a.mu)))
      let q := r48 (vDiv (vInt b.n.toNat) (vInt nt))
      let t := r48 (vMul d.1 q.1)
      let mu := r48 (vAdd (w48Val a.mu) t.1)
      let p := r48 (vInt (a.n.toNat * b.n.toNat), 0)
      let nn := r48 (vDiv p.1 (vInt nt))
      let dd := r48 (vMul d.1 d.1)
      let u := r48 (vMul dd.1 nn.1)
      let m := r48 (vAdd (w48Val a.m2) (w48Val b.m2))
      let m2 := r48 (vAdd m.1 u.1)
      ({ a with n := BitVec.ofNat 32 nt, mu := w48Code mu.1, m2 := w48Code m2.1 },
        d.2 ||| q.2 ||| t.2 ||| mu.2 ||| p.2 ||| nn.2 ||| dd.2 ||| u.2 ||| m.2 ||| m2.2)

/-- VSTAT.MERGE over the 128 lanes of a set: everything into lane 0, the others cleared (R243). -/
def statTree (l : List StatLane) : StatLane × Flags :=
  let level (x : List StatLane × Flags) (s : Nat) : List StatLane × Flags :=
    let ps := (List.range 128).map fun k =>
      if k % (2 * s) = 0 then statMerge (nth {} x.1 k) (nth {} x.1 (k + s)) else (nth {} x.1 k, 0)
    (ps.map (·.1), ps.foldl (fun g p => g ||| p.2) x.2)
  let r := [1, 2, 4, 8, 16, 32, 64].foldl level (l, 0)
  (nth {} r.1 0, r.2)

/-- VSTAT.MEAN of a lane (R245, R246). -/
def statMean (keep sat : Bool) (l : StatLane) : Nat × Flags :=
  if l.nan then (Fmt.b32.nan, 0)
  else if l.n = 0 then (0, 0) else roundFloat .b32 sat keep (w48Val l.mu)

/-- VSTAT.VAR of a lane: M2/n, or M2/(n − 1) in the sample form (R245, R246). -/
def statVar (sample keep sat : Bool) (l : StatLane) : Nat × Flags :=
  if l.nan then (Fmt.b32.nan, 0)
  else
    let k := l.n.toNat - if sample then 1 else 0
    if k = 0 then (0, 0) else roundFloat .b32 sat keep (vDiv (w48Val l.m2) (vInt k)).1

/-- A lane's 32-byte record and back (R247). -/
def statBytes (l : StatLane) : List Byte :=
  leBytes 4 l.n.toNat ++ leBytes 4 (if l.nan then 1 else 0) ++ leBytes 8 l.mu.toNat ++ leBytes 8 l.m2.toNat
    ++ leBytes 8 0
def statOfBytes (b : List Byte) : StatLane :=
  { n := BitVec.ofNat 32 (leAt b 0 4), nan := (leAt b 4 1).testBit 0,
    mu := BitVec.ofNat 64 (leAt b 8 8), m2 := BitVec.ofNat 64 (leAt b 16 8) }

end Sys2Proof.Machine
end

