-- ==== Sys2Proof/Machine/Operands.lean ====
section
/-! DEFINITION. How an operation of a bundle reads and writes its operands: registers (§6.2), circular buffers
(R214, R277), core store with its stores on the way (R268), and the environment in which a bundle issues. -/
namespace Sys2Proof.Machine

/-! ### Registers -/

/-- s0 reads 0 (Table 6.2). -/
def CoreSt.s (c : CoreSt) (r : BitVec 5) : Word := if r = 0 then 0 else sget 0 c.sregs r.toNat
/-- A write to s0 is discarded. -/
def CoreSt.setS (c : CoreSt) (r : BitVec 5) (v : Word) : CoreSt :=
  if r = 0 then c else { c with sregs := sset 0 c.sregs r.toNat v }
def CoreSt.v (c : CoreSt) (r : BitVec 5) : VReg := sget 0 c.vregs r.toNat
def CoreSt.setV (c : CoreSt) (r : BitVec 5) (v : VReg) : CoreSt :=
  { c with vregs := sset 0 c.vregs r.toNat v }
/-- p0 reads all ones (Table 6.2). -/
def CoreSt.p (c : CoreSt) (r : BitVec 3) : PReg := if r = 0 then BitVec.allOnes 128 else sget 0 c.preds r.toNat
/-- A write to p0 is discarded. -/
def CoreSt.setP (c : CoreSt) (r : BitVec 3) (v : PReg) : CoreSt :=
  if r = 0 then c else { c with preds := sset 0 c.preds r.toNat v }
def CoreSt.cb (c : CoreSt) (n : BitVec 3) : CBuf := sget {} c.cbs n.toNat
def CoreSt.setCb (c : CoreSt) (n : BitVec 3) (b : CBuf) : CoreSt :=
  { c with cbs := sset {} c.cbs n.toNat b }
/-- The event count of e0–e15. -/
def CoreSt.ev (c : CoreSt) (e : BitVec 4) : Nat := (sget 0 c.events e.toNat).toNat
def CoreSt.setEv (c : CoreSt) (e : BitVec 4) (n : Nat) : CoreSt :=
  { c with events := sset 0 c.events e.toNat (BitVec.ofNat 8 n) }
/-- An accumulator entry of a set (Table 4.1). -/
def CoreSt.entry (c : CoreSt) (set : BitVec 2) (i : Nat) : Acc := sget {} c.acc (set.toNat * 32768 + i)
def CoreSt.setEntry (c : CoreSt) (set : BitVec 2) (i : Nat) (a : Acc) : CoreSt :=
  { c with acc := sset {} c.acc (set.toNat * 32768 + i) a }
/-- A row state (§4.6); each set has a table of 256. -/
def CoreSt.row (c : CoreSt) (set : BitVec 2) (r : Nat) : RowSt := sget {} c.rows (set.toNat * 256 + r)
def CoreSt.setRow (c : CoreSt) (set : BitVec 2) (r : Nat) (x : RowSt) : CoreSt :=
  { c with rows := sset {} c.rows (set.toNat * 256 + r) x }
/-- A bank of a user table. -/
def CoreSt.bank (c : CoreSt) (t : BitVec 2) (b : Bool) : Bank :=
  sget {} c.tables (2 * t.toNat + if b then 1 else 0)
def CoreSt.setBank (c : CoreSt) (t : BitVec 2) (b : Bool) (x : Bank) : CoreSt :=
  { c with tables := sset {} c.tables (2 * t.toNat + if b then 1 else 0) x }
/-- Whether bank 1 of a table is active. -/
def CoreSt.active1 (c : CoreSt) (t : BitVec 2) : Bool := c.actBank.toNat.testBit t.toNat
/-- The active bank of a table (R235). -/
def CoreSt.activeBank (c : CoreSt) (t : BitVec 2) : Bank := c.bank t (c.active1 t)
/-- The lanes of a statistics set. -/
def CoreSt.stat (c : CoreSt) (k : BitVec 2) : List StatLane :=
  (List.range 128).map fun i => sget {} c.stats (k.toNat * 128 + i)
def CoreSt.setStat (c : CoreSt) (k : BitVec 2) (l : List StatLane) : CoreSt :=
  { c with stats := (List.range 128).foldl (fun m i => sset {} m (k.toNat * 128 + i) (nth {} l i)) c.stats }

/-! ### Core store and circular buffers -/

/-- Bytes of core store in X and Y together (§5.3). -/
def storeSize : Nat := 0x2000000

/-- The core-store address of byte offset `o` of a buffer (R214). -/
def CBuf.addr (b : CBuf) (o : Int) : Nat :=
  b.base.toNat + ((b.head.toNat + o) % (b.len.toNat : Int)).toNat

/-- The head moved by `n` bytes modulo the length (R277). -/
def CBuf.step (b : CBuf) (n : Int) : CBuf :=
  { b with head := BitVec.ofNat 26 ((b.head.toNat + n) % (b.len.toNat : Int)).toNat }

/-- Whether a buffer is fit for an access: length not 0, base and length multiples of 16, wholly in one half
(R277). -/
def CBuf.ok (b : CBuf) : Bool :=
  b.len != 0 && b.base.toNat % 16 == 0 && b.len.toNat % 16 == 0 &&
    (b.base.toNat + b.len.toNat ≤ 0x1000000 ||
      (0x1000000 ≤ b.base.toNat && b.base.toNat + b.len.toNat ≤ storeSize))

/-- Whether a byte of core store reads as zero: its word is uncorrectable (R351), or its line is poisoned by a held
fault (R323). -/
def CoreSt.dead (c : CoreSt) (a : Nat) : Bool :=
  (c.csMarks.any fun m => m.1 == a / 8 && (m.2 == .uncorrectable || m.2 == .poisoned))
    || c.held.any fun h => h.left.any fun x => x / 128 == a / 128

/-- One byte of core store as a reader sees it. -/
def CoreSt.byte (c : CoreSt) (a : Nat) : Byte :=
  if storeSize ≤ a then Config.beyond a else if c.dead a then 0 else sget 0 c.store a

/-- `n` bytes of core store. -/
def CoreSt.rd (c : CoreSt) (a n : Nat) : List Byte := (List.range n).map fun j => c.byte (a + j)
/-- `n` bytes at buffer offset `o`. -/
def CoreSt.rdCb (c : CoreSt) (b : CBuf) (o : Int) (n : Nat) : List Byte :=
  (List.range n).map fun j => c.byte (b.addr (o + (j : Nat)))

/-- One write of bytes under their bit masks (R275).  A word written whole is good again; an uncorrectable word
written in part stays uncorrectable (R668).  Bytes written whole leave the poison of held faults (R324). -/
def CoreSt.wrMany (c : CoreSt) (ws : List (Nat × Byte × Byte)) : CoreSt :=
  let ws := ws.filter fun w => w.1 < storeSize
  let whole (a : Nat) : Bool := ws.any fun w => w.1 == a && w.2.2 == 0xFF
  let marks := c.csMarks.filterMap fun m =>
    if (List.range 8).all fun j => whole (8 * m.1 + j) then none
    else if ws.any fun w => w.1 / 8 == m.1 then
      (match m.2 with
        | .corrected _ => none
        | _ => some (m.1, .poisoned))
    else some m
  { c with
    store := ws.foldl (fun m w => sset 0 m w.1 ((w.2.1 &&& w.2.2) ||| (sget 0 m w.1 &&& ~~~w.2.2))) c.store
    csMarks := marks
    held := c.held.map fun h => { h with left := h.left.filter fun a => !whole a } }

/-- Whole bytes of a store. -/
def fullBytes (a : Nat) (bs : List Byte) : List (Nat × Byte × Byte) :=
  (List.range bs.length).map fun j => (a + j, nth 0 bs j, 0xFF)

/-- Write bytes to core store. -/
def CoreSt.wr (c : CoreSt) (a : Nat) (bs : List Byte) : CoreSt := c.wrMany (fullBytes a bs)
/-- Write bytes at buffer offset `o`. -/
def CoreSt.wrCb (c : CoreSt) (b : CBuf) (o : Int) (bs : List Byte) : CoreSt :=
  c.wrMany ((List.range bs.length).map fun j => (b.addr (o + (j : Nat)), nth 0 bs j, 0xFF))

/-- Record a range that an operation reads. -/
def CoreSt.log (c : CoreSt) (a n : Nat) : CoreSt := { c with rdLog := c.rdLog ++ [(a, n)] }
/-- Record bytes at buffer offset `o`. -/
def CoreSt.logCb (c : CoreSt) (b : CBuf) (o : Int) (n : Nat) : CoreSt :=
  { c with rdLog := c.rdLog ++ (List.range n).map fun j => (b.addr (o + (j : Nat)), 1) }

/-! ### The environment of a bundle -/

/-- What a bundle's operations read besides the core: the commission's modes, identity and loop indices, the issue
cycle, and in stand-alone mode the plate-bus window and the plate store. -/
structure Env where
  keep   : Bool
  kx4    : Bool
  alone  : Bool
  ci     : Nat
  ncore  : Nat
  hidx   : Nat
  hcnt   : Nat
  tag    : BitVec 32
  time   : Word
  lc     : List Nat
  inner  : Nat
  bundle : Nat
  cyc    : Nat
  saBase : Nat := 0
  saSize : Nat := 0
  pstore : PlateSt := {}
  deriving DecidableEq, Repr

/-- The outcome of one slot in one core: a cause of Table 6.18, or the core with what the slot did. -/
abbrev SlotR := Except Nat CoreSt

/-- Causes of Table 6.18. -/
def cOpcode : Nat := 1
def cOperand : Nat := 2
def cDiverge : Nat := 3
def cBrTarget : Nat := 4
def cLoopNest : Nat := 5
def cPastEnd : Nat := 6
def cEvOvf : Nat := 7
def cMode : Nat := 8
def cCombo : Nat := 9

/-- Queue a register write for `lat` issue cycles later (R266). -/
def CoreSt.later (c : CoreSt) (e : Env) (lat : Nat) (t : Target) (g : Flags := 0) (flush nanz : Nat := 0)
    (slot : Option (BitVec 4) := none) : CoreSt :=
  { c with pend := c.pend ++ [{ due := e.cyc + lat, tgt := t, flags := g, flush, nanz, slot }] }

/-- Queue a store, effective for reads 3 issue cycles later (R268). -/
def CoreSt.storeLater (c : CoreSt) (e : Env) (bs : List (Nat × Byte × Byte)) : CoreSt :=
  { c with pendSt := c.pendSt ++ [{ due := e.cyc + 3, bytes := bs }] }

/-- Element `k` of width `f.width` at bit offset `k·width` of a byte list (R68). -/
def elemAt (f : Fmt) (bs : List Byte) (k : Nat) : Nat :=
  if f = .n4 then fld (nth 0 bs (k / 2)).toNat (4 * (k % 2)) 4
  else leAt bs (k * (f.width / 8)) (f.width / 8)

/-- The bytes of `n` packed elements (R68). -/
def packElems (f : Fmt) (cs : List Nat) : List Byte :=
  if f = .n4 then
    (List.range ((cs.length + 1) / 2)).map fun i =>
      BitVec.ofNat 8 (nth 0 cs (2 * i) % 16 + 16 * (nth 0 cs (2 * i + 1) % 16))
  else cs.flatMap fun c => leBytes (f.width / 8) c

/-- The bytes that `n` elements take (½ byte for N4). -/
def Fmt.bytes (f : Fmt) (n : Nat) : Nat := (f.width * n + 7) / 8

/-- The innermost active loop's iteration index, 0 when none is active (R278). -/
def innerIndex (ls : List (Option LoopLv)) : Nat :=
  ((ls.filterMap id).foldl (fun (a : Nat × Nat) l => if a.1 ≤ l.depth then (l.depth, l.index) else a) (0, 0)).2

/-- The parameter word of a T-form operation: the register SP, or core store at SP + 8·i (R278). -/
def paramWord (e : Env) (c : CoreSt) (t : Bool) (sp : BitVec 5) : Except Nat Word :=
  if t then
    let a := (c.s sp).toNat + 8 * e.inner
    if a % 8 = 0 ∧ a + 8 ≤ storeSize then .ok (BitVec.ofNat 64 (leNat (c.rd a 8))) else .error cOperand
  else .ok (c.s sp)

end Sys2Proof.Machine
end

