-- ==== Sys2Proof/Machine/Vector.lean ====
section
/-! DEFINITION. The vector slot (chapter 5, §6.6): each operation in one core, with the operands that its encoding
admits (Table 6.9, R256, R273) and its latency (Table 5.1, Table 6.4). -/
namespace Sys2Proof.Machine

/-- The operands of a vector slot as one core reads them. -/
structure VOps where
  mask : PReg
  a    : List Nat
  b    : List Nat
  c    : List Nat
  sb   : Word
  deriving DecidableEq, Repr

def vOperands (f : VFields) (c0 : CoreSt) : VOps :=
  let sb := c0.s f.vb
  { mask := c0.p f.pred, a := lanesOf (c0.v f.va),
    b := if f.sb then List.replicate 128 (sb.toNat % 2 ^ 32) else lanesOf (c0.v f.vb),
    c := lanesOf (c0.v f.vc), sb }

/-- Demand a condition, with the cause of an illegal operation. -/
def need (ok : Bool) (cause : Nat) : Except Nat Unit := if ok then .ok () else .error cause

/-- A vector result of the lanes that PRED selects. -/
def vOut (e : Env) (f : VFields) (mask : PReg) (lat : Nat) (r : VRes) (c : CoreSt) : CoreSt :=
  c.later e lat (.vector f.vd (ofLanes r.lanes) mask) r.flags r.flush r.nanz

/-- The format of the slot, when the group admits it. -/
def vFmt (ok : Fmt → Bool) (f : VFields) : Except Nat Fmt :=
  match Fmt.ofCode f.fmt with
  | some x => if ok x then .ok x else .error cOpcode
  | none => .error cOpcode

def vMove (e : Env) (op : Nat) (f : VFields) (c0 c : CoreSt) : SlotR := do
  let x ← vFmt (fun x => fmtMove x || (op == 1 && (x == .k4 || x == .k5 || x == .n4))) f
  need (if op = 4 then f.imm.toNat < 8 else f.imm = 0) cOpcode
  need (op ≠ 2 || f.sb) cOpcode
  let o := vOperands f c0
  let sel := c0.p (BitVec.ofNat 3 f.imm.toNat)
  let copy (w : Nat) : Nat := lanePut x (laneGet x w)
  let g (k : Nat) : Nat :=
    if op = 1 then copy (nth 0 o.a k)
    else if op = 2 then copy (o.sb.toNat % 2 ^ 32)
    else if op = 3 then 128 * e.ci + k
    else copy (if sel.toNat.testBit k then nth 0 o.a k else nth 0 o.b k)
  .ok (vOut e f o.mask 2 (vmap o.mask fun k => { code := g k }) c)

def vLogic (e : Env) (op : Nat) (f : VFields) (c0 c : CoreSt) : SlotR := do
  let _ ← vFmt fmtMove f
  let shift := decide (0x0C ≤ op)
  need (if shift && !f.sb then f.imm.toNat < 32 else f.imm = 0) cOpcode
  let o := vOperands f c0
  let n := if f.sb then o.sb.toNat % 2 ^ 32 else f.imm.toNat
  let g (a b : Nat) : Nat :=
    if op = 0x08 then a &&& b
    else if op = 0x09 then a ||| b
    else if op = 0x0A then a ^^^ b
    else if op = 0x0B then 2 ^ 32 - 1 - a
    else if op = 0x0C then laneShl n a
    else if op = 0x0D then laneShrl n a
    else laneShra n a
  .ok (vOut e f o.mask 2 (vmap o.mask fun k => { code := g (nth 0 o.a k) (nth 0 o.b k) }) c)

/-- VCMP compares floats and integers (Table 5.1). -/
def vCompare (e : Env) (op : Nat) (f : VFields) (c0 c : CoreSt) : SlotR := do
  let x ← vFmt (fun x => fmtFloat x || x == .s32 || x == .s16) f
  need (f.imm = 0 && f.vd.toNat < 8) cOpcode
  let o := vOperands f c0
  .ok (c.later e 3 (.pred (f.vd.setWidth 3)
    (predOf fun k => laneCmp (op - 0x10) x e.keep (laneGet x (nth 0 o.a k)) (laneGet x (nth 0 o.b k))) o.mask))

def vAddClass (e : Env) (op : Nat) (f : VFields) (c0 c : CoreSt) : SlotR := do
  let x ← vFmt fmtMove f
  need (f.imm = 0) cOpcode
  let o := vOperands f c0
  .ok (vOut e f o.mask 4 (vmap o.mask fun k =>
    let a := laneGet x (nth 0 o.a k)
    let b := laneGet x (nth 0 o.b k)
    if op = 0x18 then laneAdd false x f.sat e.keep a b
    else if op = 0x19 then laneAdd true x f.sat e.keep a b
    else if op = 0x1A then laneSign false x f.sat e.keep a
    else if op = 0x1B then laneSign true x f.sat e.keep a
    else laneMinMax (op < 0x1E) (op % 2 = 0) x e.keep a b) c)

def vMulClass (e : Env) (op : Nat) (f : VFields) (c0 c : CoreSt) : SlotR := do
  let x ← vFmt (fun x => if op = 0x23 then x == .q15 || x == .q31
    else fmtFloat x || (op == 0x20 && (x == .s32 || x == .s16))) f
  need (f.imm = 0) cOpcode
  let o := vOperands f c0
  .ok (vOut e f o.mask 5 (vmap o.mask fun k =>
    let a := laneGet x (nth 0 o.a k)
    let b := laneGet x (nth 0 o.b k)
    if op = 0x20 then laneMul x f.sat e.keep a b
    else if op = 0x23 then laneMulq x f.sat a b
    else laneFma (op = 0x22) x f.sat e.keep a b (laneGet x (nth 0 o.c k))) c)

def vConvert (e : Env) (f : VFields) (c0 c : CoreSt) : SlotR := do
  let dst ← vFmt (fun _ => true) f
  need (f.imm.toNat < 16) cOpcode
  match Fmt.ofCode (f.imm.setWidth 4) with
  | none => .error cOpcode
  | some src =>
    let o := vOperands f c0
    .ok (vOut e f o.mask 4 (vmap o.mask fun k => laneCvt src dst f.sat e.keep (nth 0 o.a k)) c)

def vRotate (e : Env) (f : VFields) (c0 c : CoreSt) : SlotR := do
  let _ ← vFmt (fun x => x == .b32 || x == .s32) f
  need (if f.sb then f.imm = 0 else f.imm.toNat < 128) cOpcode
  let o := vOperands f c0
  let s := if f.sb then o.sb.toNat % 128 else f.imm.toNat
  .ok (vOut e f o.mask 4 { lanes := vrotLanes s o.a } c)

/-- VRED writes every lane of VD, whatever PRED holds (R213). -/
def vReduce (e : Env) (op : Nat) (f : VFields) (c0 c : CoreSt) : SlotR := do
  let x ← vFmt (fun x => x == .b32 || x == .s32) f
  need (f.imm = 0) cOpcode
  let o := vOperands f c0
  let g (a b : Nat) : Nat × Flags :=
    let r := if op = 0x31 then laneAdd false x f.sat e.keep a b
             else laneMinMax (op < 0x34) (op % 2 = 0) x e.keep a b
    (r.code, r.flags)
  .ok (vOut e f (BitVec.allOnes 128) 9 (vredLanes g o.mask (o.a.map (laneRead x e.keep))) c)

/-- VTAP (R215–R217): both heads step at once, its accumulator is written 5 issue cycles later. -/
def vTap (e : Env) (f : VFields) (c0 c : CoreSt) : SlotR := do
  let x ← vFmt (fun x => fmtFloat x || x == .q15) f
  need (f.imm.toNat < 64) cOpcode
  let nh : BitVec 3 := f.imm.setWidth 3
  let nd : BitVec 3 := (f.imm >>> 3).setWidth 3
  let h := c0.cb nh
  let d := c0.cb nd
  let fit (b : CBuf) : Bool := b.base.toNat % 128 == 0 && b.len != 0 && b.len.toNat % 128 == 0
  need (fit h && fit d && h.base.toNat + h.len.toNat ≤ 0x1000000 && 0x1000000 ≤ d.base.toNat
    && d.base.toNat + d.len.toNat ≤ storeSize) cOperand
  let o := vOperands f c0
  let acc := lanesOf (c0.v f.vd)
  let es := x.width / 8
  let lane := f.mod.toNat % 2 == 1
  let el (b : CBuf) (k : Nat) : Nat := leNat (c0.rdCb b (k * es : Nat) es)
  let r := vmap o.mask fun k => laneTap x f.sat e.keep (nth 0 acc k) (el h (if lane then k else 0)) (el d k)
  let n : Nat := if lane then 128 * es else es
  let c := c.setCb nh ((c.cb nh).step n)
  let c := c.setCb nd ((c.cb nd).step (-(n : Int)))
  let on := (List.range 128).filter fun k => o.mask.toNat.testBit k
  let c := on.foldl (fun (c : CoreSt) k =>
    (c.logCb h ((if lane then k else 0) * es : Nat) es).logCb d (k * es : Nat) es) c
  .ok (vOut e f o.mask 5 r c)

/-- The built-in function of an opcode. -/
def sfnOf (n : Nat) : Option Sfn :=
  [.exp2, .log2, .rcp, .rsq, .sigm, .tanh, .gglu, .erf, .sint, .cost][n]?

def vSpecial (e : Env) (op : Nat) (f : VFields) (c0 c : CoreSt) : SlotR := do
  let dst ← vFmt fmtFloat f
  need (f.imm.toNat < if op = 0x4A then 64 else 16) cOpcode
  match Fmt.ofCode (f.imm.setWidth 4) with
  | none => .error cOpcode
  | some src =>
    need (fmtFloat src) cOpcode
    let o := vOperands f c0
    if op = 0x4A then
      let b := c0.activeBank (BitVec.ofNat 2 (f.imm.toNat / 16))
      need (!hdrLut b.hdr) cOperand
      .ok (vOut e f o.mask 12 (vmap o.mask fun k => laneUfn b src dst e.kx4 e.keep f.sat (nth 0 o.a k)) c)
    else
      match sfnOf (op - 0x40) with
      | none => .error cOpcode
      | some g =>
        .ok (vOut e f o.mask 12 (vmap o.mask fun k => laneSfn g src dst e.kx4 e.keep f.sat (nth 0 o.a k)) c)

def vPosc (e : Env) (op : Nat) (f : VFields) (c0 c : CoreSt) : SlotR := do
  let dst ← vFmt fmtFloat f
  need (f.imm = 0) cOpcode
  let o := vOperands f c0
  .ok (vOut e f o.mask 12 (vmap o.mask fun k =>
    lanePosc (op = 0x4C) dst e.keep f.sat (nth 0 o.a k) (nth 0 o.b k) (nth 0 o.c k)) c)

def vLut (e : Env) (f : VFields) (c0 c : CoreSt) : SlotR := do
  let _ ← vFmt fmtMove f
  need (f.imm.toNat < 4) cOpcode
  let b := c0.activeBank (BitVec.ofNat 2 f.imm.toNat)
  need (hdrLut b.hdr) cOperand
  let o := vOperands f c0
  .ok (vOut e f o.mask 8 (vmap o.mask fun k => laneLut b (nth 0 o.a k)) c)

/-- VSTAT: CLR, ADD and MERGE act on the set when their latency has passed; MEAN and VAR read it at issue. -/
def vStat (e : Env) (op : Nat) (f : VFields) (c0 c : CoreSt) : SlotR := do
  let x ← vFmt fmtFloat f
  need (f.imm.toNat < 4) cOpcode
  let k : BitVec 2 := f.imm.setWidth 2
  let o := vOperands f c0
  let st := c0.stat k
  if op = 0x50 then .ok (c.later e 2 (.stat 0 k 0 o.mask []))
  else if op = 0x51 then
    .ok (c.later e 6 (.stat (if e.keep then 2 else 1) k
      (ofLanes ((List.range 128).map fun i => nth 0 o.a i)) o.mask [BitVec.ofNat 8 f.fmt.toNat]))
  else if op = 0x52 then
    .ok (vOut e f o.mask 10 (vmap o.mask fun i =>
      let r := statMean e.keep f.sat (nth {} st i); { code := r.1, flags := r.2 }) c)
  else if op = 0x53 then
    .ok (vOut e f o.mask 10 (vmap o.mask fun i =>
      let r := statVar (f.mod.toNat % 2 = 1) e.keep f.sat (nth {} st i); { code := r.1, flags := r.2 }) c)
  else let _ := x; .ok (c.later e 24 (.stat 3 k 0 o.mask []))

/-- PAND, POR, PXOR, PNOT and PFIRST (R274, Table 6.9). -/
def vPred (e : Env) (op : Nat) (f : VFields) (c0 c : CoreSt) : SlotR := do
  let _ ← vFmt fmtMove f
  need (f.imm = 0 && (op != 0x64 || f.sb)) cOpcode
  let a := c0.p (f.va.setWidth 3)
  let b := c0.p (f.vb.setWidth 3)
  let r : PReg :=
    if op = 0x60 then a &&& b
    else if op = 0x61 then a ||| b
    else if op = 0x62 then a ^^^ b
    else if op = 0x63 then ~~~a
    else predOf fun k => k < min (c0.s f.vb).toNat 128
  .ok (c.later e 2 (.pred (f.vd.setWidth 3) r (c0.p f.pred)))

/-- The vector slot in one core. -/
def vectorSlot (e : Env) (op : BitVec 8) (f : VFields) (c0 c : CoreSt) : SlotR := do
  let n := op.toNat
  if 0x01 ≤ n ∧ n ≤ 0x04 then vMove e n f c0 c
  else if 0x08 ≤ n ∧ n ≤ 0x0E then vLogic e n f c0 c
  else if 0x10 ≤ n ∧ n ≤ 0x15 then vCompare e n f c0 c
  else if 0x18 ≤ n ∧ n ≤ 0x1F then vAddClass e n f c0 c
  else if 0x20 ≤ n ∧ n ≤ 0x23 then vMulClass e n f c0 c
  else if n = 0x28 then vConvert e f c0 c
  else if n = 0x30 then vRotate e f c0 c
  else if 0x31 ≤ n ∧ n ≤ 0x35 then vReduce e n f c0 c
  else if n = 0x38 then vTap e f c0 c
  else if 0x40 ≤ n ∧ n ≤ 0x4A then vSpecial e n f c0 c
  else if n = 0x4B ∨ n = 0x4C then vPosc e n f c0 c
  else if n = 0x4D then vLut e f c0 c
  else if 0x50 ≤ n ∧ n ≤ 0x54 then vStat e n f c0 c
  else if 0x60 ≤ n ∧ n ≤ 0x64 then vPred e n f c0 c
  else .error cOpcode

/-- Whether a vector operation reads or writes a float format (R209). -/
def vUsesFloat (op : BitVec 8) (f : VFields) : Bool :=
  let n := op.toNat
  let fl (c : BitVec 4) : Bool := match Fmt.ofCode c with
    | some x => x.isFloat
    | none => false
  if 0x40 ≤ n ∧ n ≤ 0x4C then true
  else if 0x50 ≤ n ∧ n ≤ 0x54 then true
  else if n = 0x28 then fl f.fmt || fl (f.imm.setWidth 4)
  else if n = 0x01 ∨ n = 0x02 ∨ n = 0x04 ∨ (0x10 ≤ n ∧ n ≤ 0x38) then fl f.fmt
  else false

/-- What a VSTAT write-back does to its set: 0 clear, 1 and 2 fold one element per lane in Flush or Keep mode, 3
merge, 4 restore, 5 restore merged. -/
def statApply (c : CoreSt) (op : BitVec 3) (k : BitVec 2) (v : VReg) (mask : PReg) (bytes : List Byte) :
    CoreSt × Flags :=
  let st := c.stat k
  let on (i : Nat) := mask.toNat.testBit i
  let fold (r : List (StatLane × Flags)) : CoreSt × Flags :=
    (c.setStat k (r.map (·.1)), r.foldl (fun g x => g ||| x.2) 0)
  match op.toNat with
  | 0 => (c.setStat k (List.replicate 128 {}), 0)
  | 1 | 2 =>
    let x := (Fmt.ofCode ((nth 0 bytes 0).setWidth 4)).getD .b32
    fold ((List.range 128).map fun i =>
      if on i then statAdd x (op = 2) (nth {} st i) (laneGet x (fld v.toNat (32 * i) 32)) else (nth {} st i, 0))
  | 3 =>
    let r := statTree st
    (c.setStat k [r.1], r.2)
  | 4 => (c.setStat k ((List.range 128).map fun i => statOfBytes (slice bytes (32 * i) 32)), 0)
  | _ => fold ((List.range 128).map fun i => statMerge (nth {} st i) (statOfBytes (slice bytes (32 * i) 32)))

end Sys2Proof.Machine
end

