-- ==== Sys2Proof/Machine/LoadStore.lean ====
section
/-! DEFINITION. The load and store slots (§6.7): core-store reads, table loads, statistics records, and stores with
conversion and encoding, in one core. -/
namespace Sys2Proof.Machine

/-- Addresses from here on stand for the plate bus of stand-alone mode (R220). -/
def plateBus : Nat := 2 ^ 40

/-- Whether a buffer goes to the plate bus: in stand-alone mode, one that lies wholly in neither half of the core
store (assumption 6). -/
def onPlateBus (e : Env) (b : CBuf) : Bool :=
  e.alone && b.len != 0 && b.base.toNat % 16 == 0 && b.len.toNat % 16 == 0 && !b.ok

/-- Whether a plate-store address lies in the window of CORE_SAWIN (R220). -/
def inWindow (e : Env) (a : Nat) : Bool := e.saBase ≤ a && a < e.saBase + e.saSize

/-- One byte at buffer offset `o`.  Of a plate-bus access that lies partly inside the window the bytes inside are read, which R220 does not
say (assumption 128). -/
def bufByte (e : Env) (c0 : CoreSt) (b : CBuf) (o : Int) : Byte :=
  if onPlateBus e b then
    (if inWindow e (b.addr o) && !(e.pstore.psMarks.any fun m => m.1 == b.addr o / 8 && m.2.dead) then e.pstore.byte (b.addr o) else 0)
  else c0.byte (b.addr o)

/-- Record the range that an access reads, plate-store bytes from 2^40 up, or the halt that an access outside the window causes. -/
def logRead (e : Env) (b : CBuf) (os : List Int) (c : CoreSt) : CoreSt :=
  if onPlateBus e b then
    let c := { c with rdLog := c.rdLog ++ (os.filter fun o => inWindow e (b.addr o)).map fun o => (plateBus + b.addr o, 1) }
    if os.all fun o => inWindow e (b.addr o) then c else { c with alarms := c.alarms ++ [.saAccess] }
  else { c with rdLog := c.rdLog ++ os.map fun o => (b.addr o, 1) }

/-- A store through a buffer: to the core store, or to the plate bus inside its window, byte by byte (assumption 128). -/
def bufStore (e : Env) (b : CBuf) (w : List (Int × Byte × Byte)) (c : CoreSt) : CoreSt :=
  if onPlateBus e b then
    let ok := w.all fun x => inWindow e (b.addr x.1)
    let ws := (w.filter fun x => inWindow e (b.addr x.1)).map fun x => (plateBus + b.addr x.1, x.2)
    let c := if ok then c else { c with alarms := c.alarms ++ [.saAccess] }
    c.storeLater e ws
  else c.storeLater e (w.map fun x => (b.addr x.1, x.2))

/-- The checks of R277 for a load or store slot. -/
def bufNeed (e : Env) (b : CBuf) : Except Nat Unit := need (b.ok || onPlateBus e b) cOperand

/-- PRED, MFMT, RFMT and SAT are 0 in every operation but VLD, VST and VST.E. -/
def plainFields (f : LFields) : Bool := f.pred = 0 && f.mfmt = 0 && f.rfmt = 0 && !f.sat

/-- The byte offset that OFF names, and the head step. -/
def atOf (f : LFields) : Int := f.off.toInt * 16
def stepOf (f : LFields) : Int := f.step.toInt * 16

/-- Step the head of the slot's buffer after the access (R277). -/
def stepCb (f : LFields) (c : CoreSt) : CoreSt := c.setCb f.cb ((c.cb f.cb).step (stepOf f))

/-- The bytes of a range of offsets. -/
def offs (o : Int) (n : Nat) : List Int := (List.range n).map fun j => o + (j : Nat)

/-- A load's latency: 48 issue cycles over the plate bus (R220). -/
def loadLat (e : Env) (b : CBuf) (n : Nat) : Nat := if onPlateBus e b then 48 else n

/-- VLD (R275): only active lanes are read. -/
def vldSlot (e : Env) (f : LFields) (c0 c : CoreSt) : SlotR := do
  match Fmt.ofCode f.mfmt, Fmt.ofCode f.rfmt with
  | some m, some r =>
    let b := c0.cb f.cb
    bufNeed e b
    let mask := c0.p f.pred
    let o (k : Nat) : Int := atOf f + ((m.width * k / 8 : Nat) : Int)
    let el (k : Nat) : Nat :=
      if m = .n4 then fld (bufByte e c0 b (o k)).toNat (4 * (k % 2)) 4
      else leNat ((offs (o k) (m.width / 8)).map (bufByte e c0 b))
    let res := vmap mask fun k =>
      let x := convert m r f.sat e.keep (el k)
      { code := lanePut r x.code, flags := x.flags }
    let act := (List.range 128).filter fun k => mask.toNat.testBit k
    let c := logRead e b (act.flatMap fun k => offs (o k) (max 1 (m.width / 8))) c
    .ok (stepCb f (c.later e (loadLat e b 16) (.vector f.r (ofLanes res.lanes) mask) res.flags))
  | _, _ => .error cOpcode

/-- SLD and PLD (R275). -/
def wordLoad (e : Env) (pred : Bool) (f : LFields) (c0 c : CoreSt) : SlotR := do
  need (plainFields f) cOpcode
  let b := c0.cb f.cb
  bufNeed e b
  let n := if pred then 16 else 8
  let v := leNat ((offs (atOf f) n).map (bufByte e c0 b))
  let c := logRead e b (offs (atOf f) n) c
  let t := if pred then Target.pred (f.r.setWidth 3) (BitVec.ofNat 128 v) (BitVec.allOnes 128)
           else Target.scalar f.r (BitVec.ofNat 64 v)
  .ok (stepCb f (c.later e (loadLat e b 16) t))

/-- A table image read byte by byte from buffer offset `o` (R229, R230). -/
def tableImage (rd : Nat → Byte) : Bank :=
  let hdr := BitVec.ofNat 128 (leNat ((List.range 16).map rd))
  let n := if hdrLut hdr then 16384 else 16 * hdrN hdr
  { hdr, recs := (List.range n).foldl (fun m j => sset 0 m j (rd (16 + j))) [] }

/-- TLOAD (R230, R231): into the active bank it writes nothing and raises TABLE_BUSY. -/
def tloadSlot (e : Env) (f : LFields) (c0 c : CoreSt) : SlotR := do
  need (plainFields f) cOpcode
  let b := c0.cb f.cb
  need (!onPlateBus e b) cMode
  need b.ok cOperand
  need (b.addr (atOf f) % 128 = 0) cOperand
  let t : BitVec 2 := f.r.setWidth 2
  let k := f.r.toNat.testBit 2
  if c0.active1 t = k then .ok (stepCb f { c with alarms := c.alarms ++ [.tableBusy t k] })
  else
    let img := tableImage fun j => bufByte e c0 b (atOf f + (j : Nat))
    let c := logRead e b (offs (atOf f) (16 + if hdrLut img.hdr then 16384 else 16 * hdrN img.hdr)) c
    .ok (stepCb f { c with tloads := c.tloads ++ [{ t, bank := k, data := img }] })

/-- VSTAT.LOAD and VSTAT.LOADM (R247). -/
def vstatLoadSlot (e : Env) (merge : Bool) (f : LFields) (c0 c : CoreSt) : SlotR := do
  need (plainFields f) cOpcode
  let b := c0.cb f.cb
  bufNeed e b
  need (b.addr (atOf f) % 128 = 0) cOperand
  let bs := (offs (atOf f) 4096).map (bufByte e c0 b)
  let c := logRead e b (offs (atOf f) 4096) c
  .ok (stepCb f (c.later e (loadLat e b 20) (.stat (if merge then 5 else 4) (f.r.setWidth 2) 0 0 bs)))

/-- VST (R275): a converted element per active lane, nibbles for N4. -/
def vstSlot (e : Env) (f : LFields) (c0 c : CoreSt) : SlotR := do
  match Fmt.ofCode f.mfmt, Fmt.ofCode f.rfmt with
  | some m, some r =>
    let b := c0.cb f.cb
    bufNeed e b
    let mask := c0.p f.pred
    let src := lanesOf (c0.v f.r)
    let res := vmap mask fun k => convert r m f.sat e.keep (laneGet r (nth 0 src k))
    let act := (List.range 128).filter fun k => mask.toNat.testBit k
    let w := act.flatMap fun k =>
      let o : Int := atOf f + ((m.width * k / 8 : Nat) : Int)
      let x := nth 0 res.lanes k
      if m = .n4 then
        [(o, BitVec.ofNat 8 (x <<< (4 * (k % 2))), if k % 2 = 0 then (0x0F : Byte) else 0xF0)]
      else (List.range (m.width / 8)).map fun (j : Nat) => (o + (j : Int), BitVec.ofNat 8 (x >>> (8 * j)), (0xFF : Byte))
    let c := bufStore e b w c
    .ok (stepCb f (c.later e 3 .none res.flags res.flush res.nanz))
  | _, _ => .error cOpcode

/-- The unscaled format of a scaled format code (Table 6.8). -/
def scaledOf (c : BitVec 4) : Option Fmt :=
  match c.toNat with
  | 0xB => some .k4 | 0xC => some .k5 | 0xD => some .n4 | _ => none

/-- VST.E (R276): four blocks of 32 lanes; a block with no active lane is left as it stands. -/
def vstESlot (e : Env) (f : LFields) (c0 c : CoreSt) : SlotR := do
  match scaledOf f.mfmt, Fmt.ofCode f.rfmt with
  | some m, some r =>
    need (fmtFloat r && f.off.toNat % 64 = 0) cOpcode
    let b := c0.cb f.cb
    bufNeed e b
    let se := c0.s (BitVec.ofNat 5 (f.off.toNat / 64))
    need (bitsOf se 61 3 = 0) cOperand
    let mask := c0.p f.pred
    let src := lanesOf (c0.v f.r)
    let sa := bitsOf se 32 25
    let blk (i : Nat) : Option EncBlock :=
      let vs := (List.range 32).map fun j =>
        let k := 32 * i + j
        if mask.toNat.testBit k then some (convert r .b32 false true (laneGet r (nth 0 src k))).code else none
      if vs.all Option.isNone then none else some (encodeBlock m (bitsOf se 0 32) f.sat e.keep vs)
    let bs := (List.range 4).map fun i => (i, blk i)
    let w := bs.flatMap fun p => match p.2 with
      | none => []
      | some x => (List.range 32).flatMap fun j => match nth none x.codes j with
        | none => []
        | some code =>
          let k := 32 * p.1 + j
          if m = .n4 then
            [(((k / 2 : Nat) : Int), BitVec.ofNat 8 (code <<< (4 * (k % 2))), if k % 2 = 0 then (0x0F : Byte) else 0xF0)]
          else [((k : Int), BitVec.ofNat 8 code, (0xFF : Byte))]
    let sc := bs.flatMap fun p => match p.2 with
      | none => []
      | some x => [(sa + p.1, BitVec.ofNat 8 x.e8, (0xFF : Byte))]
    let all := bs.filterMap (·.2)
    let c := (bufStore e b w c).storeLater e sc
    .ok (stepCb f (c.later e 3 .none (all.foldl (fun g x => g ||| x.flags) 0)
      ((all.map (·.flush)).sum) ((all.map (·.nanz)).sum) (some (BitVec.ofNat 4 (bitsOf se 57 4)))))
  | _, _ => .error cOpcode

/-- SST and PST (R275). -/
def wordStore (e : Env) (pred : Bool) (f : LFields) (c0 c : CoreSt) : SlotR := do
  need (plainFields f) cOpcode
  let b := c0.cb f.cb
  bufNeed e b
  let bs := if pred then leBytes 16 (c0.p (f.r.setWidth 3)).toNat else leBytes 8 (c0.s f.r).toNat
  .ok (stepCb f (bufStore e b ((List.range bs.length).map fun (j : Nat) => (atOf f + (j : Int), nth 0 bs j, (0xFF : Byte))) c))

/-- VSTAT.SAVE (R247). -/
def vstatSaveSlot (e : Env) (f : LFields) (c0 c : CoreSt) : SlotR := do
  need (plainFields f) cOpcode
  let b := c0.cb f.cb
  bufNeed e b
  need (b.addr (atOf f) % 128 = 0) cOperand
  let bs := (c0.stat (f.r.setWidth 2)).flatMap statBytes
  .ok (stepCb f (bufStore e b ((List.range 4096).map fun (j : Nat) => (atOf f + (j : Int), nth 0 bs j, (0xFF : Byte))) c))

/-- The store slot in one core. -/
def storeSlot (e : Env) (op : BitVec 5) (f : LFields) (c0 c : CoreSt) : SlotR :=
  match op.toNat with
  | 1 => vstSlot e f c0 c
  | 2 => vstESlot e f c0 c
  | 3 => wordStore e false f c0 c
  | 4 => wordStore e true f c0 c
  | 5 => vstatSaveSlot e f c0 c
  | _ => .error cOpcode

end Sys2Proof.Machine
end

