-- ==== Sys2Proof/Machine/Matrix.lean ====
section
/-! DEFINITION. The matrix array (chapter 3): operand pairs and shapes, block sums, accumulator updates, and what a
weight load and a pass do in one core. -/
namespace Sys2Proof.Machine

/-! ### Pairs and shapes -/

/-- The activation and weight formats of a pair code (Table 3.1). -/
def pairFmts (p : BitVec 4) : Option (Fmt × Fmt) :=
  match p.toNat with
  | 0 => some (.k4, .k4) | 1 => some (.k4, .k5) | 2 => some (.k5, .k4) | 3 => some (.k5, .k5)
  | 4 => some (.n4, .n4) | 5 => some (.s8, .s8) | 6 => some (.t16, .t16) | _ => none

/-- The weight format of a tile, as R662 records it. -/
def wfmtCode (f : Fmt) : BitVec 4 :=
  match f with
  | .k4 => 0 | .k5 => 1 | .n4 => 2 | .s8 => 3 | _ => 4

/-- Bands of a mode (Table 3.11). -/
def bandCount (b : BitVec 2) : Nat := 2 ^ b.toNat
/-- Logical rows of a band. -/
def bandRows (b : BitVec 2) : Nat := 128 / bandCount b
/-- Whether cells hold two N4 weights (R123). -/
def n4Square (w : Fmt) (b : BitVec 2) : Bool := w = .n4 && b = 0
/-- Weights per cell (Table 3.11). -/
def perCell (w : Fmt) (b : BitVec 2) : Nat := if n4Square w b || b = 3 then 2 else 1
/-- K positions of a pass. -/
def passK (w : Fmt) (b : BitVec 2) : Nat := bandRows b * perCell w b

/-- Whether K position `k` takes part (R279). -/
def kOn (w : Fmt) (b : BitVec 2) (kp : PReg) (k : Nat) : Bool :=
  kp.toNat.testBit (if n4Square w b then k / 2 else k)

/-- Whether some K position of block `b` takes part: the scale of a block in which every position is masked is not read (R151,
R155). -/
def blockOn (w : Fmt) (b : BitVec 2) (kp : PReg) (n : Nat) : Bool :=
  (List.range 32).any fun j => kOn w b kp (32 * n + j)

/-- The logical row that serves K position `k` of band `n`. -/
def rowOfK (w : Fmt) (b : BitVec 2) (n k : Nat) : Nat :=
  n * bandRows b + if n4Square w b then k / 2 else k % bandRows b

/-! ### Operands at issue (Tables 6.12, 6.13) -/

/-- The bits of a matrix operation's own slot that R122 and R279 restrict. -/
def mxShapeOk (pair : BitVec 4) (band : BitVec 2) (nb : BitVec 3) : Bool :=
  match pairFmts pair with
  | none => false
  | some (_, w) => !(w = .t16 && band != 0) && (nb.toNat + 1 ≤ bandCount band)

/-- Bytes of a weight tile in core store (R280). -/
def tileBytes (w : Fmt) (band : BitVec 2) (nb : BitVec 3) : Nat :=
  (nb.toNat + 1) * bandRows band * (128 * perCell w band * w.width / 8)

/-- The distance of activation rows in core store (R281). -/
def rowPitch (a w : Fmt) (band : BitVec 2) : Nat := max 32 (passK w band * a.width / 8)

/-- Log the read of a parameter word in memory. -/
def CoreSt.logParam (c : CoreSt) (e : Env) (c0 : CoreSt) (t : Bool) (sp : BitVec 5) : CoreSt :=
  if t then c.log ((c0.s sp).toNat + 8 * e.inner) 8 else c

/-- MWLOAD at issue. -/
def mwloadIssue (e : Env) (f : MwFields) (c0 c : CoreSt) : SlotR := do
  need (mxShapeOk f.pair f.band f.nb) cOpcode
  let w ← paramWord e c0 f.t f.sp
  let b := c0.cb f.wcb
  need (bitsOf w 26 38 = 0 && b.ok) cOperand
  match pairFmts f.pair with
  | none => .error cOpcode
  | some (_, wf) =>
    let c := c.logParam e c0 f.t f.sp
    let c := if f.step then c.setCb f.wcb ((c.cb f.wcb).step (tileBytes wf f.band f.nb : Nat)) else c
    .ok { c with mq := c.mq ++ [.load f w (c0.p f.kpred) b (BitVec.ofNat 16 e.bundle) c.ord], ord := c.ord + 1 }

/-- MPASS at issue (R138, R154, R168). -/
def mpassIssue (e : Env) (f : MpFields) (c0 c : CoreSt) : SlotR := do
  need (mxShapeOk f.pair f.band f.nb) cOpcode
  let w ← paramWord e c0 f.t f.sp
  let b := c0.cb f.acb
  let m := bitsOf w 0 16
  let n := m * 128 * (f.nb.toNat + 1)
  need (bitsOf w 58 6 = 0 && b.ok && decide (1 ≤ m ∧ m ≤ 256) && decide (n ≤ 32768)
    && decide (bitsOf w 16 15 + n ≤ 32768)) cOperand
  match pairFmts f.pair with
  | none => .error cOpcode
  | some (af, wf) =>
    let c := c.logParam e c0 f.t f.sp
    let c := if bitOf w 31 then c.setCb f.acb ((c.cb f.acb).step (m * rowPitch af wf f.band : Nat)) else c
    .ok { c with mq := c.mq ++ [.pass f w (c0.p f.kpred) (c0.p f.cpred) b (BitVec.ofNat 16 e.bundle) c.ord],
                 ord := c.ord + 1 }

/-! ### Weight load (R120, R137, R140, R151, R280) -/

/-- Columns in use of band `n`: all 128 below the last band, then those that `last` names. -/
def colOn (nb : BitVec 3) (n : Nat) (last : Nat → Bool) (j : Nat) : Bool := n < nb.toNat || last j

/-- The tile that an MWLOAD stages, and the core with its reads logged.  The scale of a column beyond its column count is 0x7F, which R280
does not say (assumption 127). -/
def stageTile (c : CoreSt) (f : MwFields) (word : Word) (kp : PReg) (cb : CBuf) : CoreSt :=
  match pairFmts f.pair with
  | none => c
  | some (_, wf) =>
    let rows := bandRows f.band
    let pc := perCell wf f.band
    let wsc := bitsOf word 0 25
    let cells := (List.range (f.nb.toNat + 1)).flatMap fun n =>
      (List.range 128).flatMap fun j =>
        if colOn f.nb n (fun j => decide (j ≤ f.cols.toNat)) j then
          (List.range (rows * pc)).filterMap fun x =>
            let r := x / pc
            let k := if n4Square wf f.band then x else r + rows * (x % pc)
            if kOn wf f.band kp k then some (n, j, k, ((n * rows + r) * 128 + j) * pc + x % pc) else none
        else []
    let code (q : Nat) : Nat :=
      if wf = .n4 then fld (c.byte (cb.addr ((q / 2 : Nat) : Int))).toNat (4 * (q % 2)) 4
      else leNat (c.rdCb cb ((q * (wf.width / 8) : Nat) : Int) (wf.width / 8))
    let w := cells.foldl (fun m x => sset 0 m (x.2.2.1 * 1024 + 128 * x.1 + x.2.1)
      (BitVec.ofNat 16 (code x.2.2.2))) ([] : SMap (BitVec 16))
    let blocks := passK wf f.band / 32
    let scaled := bitOf word 25 && (wf = .k4 || wf = .k5 || wf = .n4)
    let scs := if scaled then
        (List.range (f.nb.toNat + 1)).flatMap fun n => (List.range 128).flatMap fun j =>
          if colOn f.nb n (fun j => decide (j ≤ f.cols.toNat)) j then
            ((List.range blocks).filter (blockOn wf f.band kp)).map fun b => (128 * n + j, b)
          else []
      else []
    let sc := scs.foldl (fun m x => sset 0x7F m (x.2 * 1024 + x.1) (c.byte (wsc + 8 * x.1 + x.2)))
      ([] : SMap Byte)
    let reads := (cells.map fun x =>
        (cb.addr ((x.2.2.2 * wf.width / 8 : Nat) : Int), max 1 (wf.width / 8)))
      ++ scs.map fun x => (wsc + 8 * x.1 + x.2, 1)
    { c with staged := { fmt := some (wfmtCode wf), band := f.band, nb := f.nb, w, sc }, stagedNew := true,
             wload := true, spar := [], rdLog := c.rdLog ++ reads }

/-! ### Segment arithmetic (§3.3) -/

/-- Round once to binary32 with subnormals kept (R105). -/
def rnd32 (sat : Bool) (v : Val) : Val × Flags :=
  let r := roundFloat .b32 sat true v
  (Fmt.b32.decode r.1, r.2)

/-- Round once to binary64 (R172); the flags that formed the value are kept, and an overflow or a non-zero value that becomes
zero raises its own (R111, R116). -/
def rnd64 (x : Val × Flags) : BitVec 64 × Flags :=
  let r := roundFloat .b64 false true x.1
  (BitVec.ofNat 64 r.1, x.2 ||| r.2)

/-- A binary64 sum (R172), with INVALID for opposite infinities. -/
def add64 (a b : BitVec 64) : BitVec 64 × Flags := rnd64 (vAdd (Fmt.b64.decode a.toNat) (Fmt.b64.decode b.toNat))

/-- A binary32 code widened to binary64. -/
def widen64 (p : BitVec 32) : BitVec 64 := (rnd64 (Fmt.b32.decode p.toNat, 0)).1

/-- The magnitude order of two finite values. -/
def leadOf : Val → Option Int
  | .fin _ m e => if m = 0 then none else some (leadExp m e)
  | _ => none

/-- The exact sum of finite products over the window of R126: bits below `lead − 56` truncate toward zero. -/
def windowSum (ps : List Val) : Val :=
  match (ps.filterMap leadOf).max? with
  | none => vZero (ps.all Val.isNeg)
  | some lead =>
    let q := lead - 56
    let t : Int := ps.foldl (fun a p => match p with
      | .fin n m e => a + sm n (if q ≤ e then m <<< (e - q).toNat else m >>> (q - e).toNat)
      | _ => a) 0
    .fin (decide (t < 0)) t.natAbs q

/-- The sum of one block's products before scaling (R125); `none` when no position takes part. -/
def rawBlock (sat : Bool) (ps : List (Val × Val)) : Option (Val × Flags) :=
  if ps.isEmpty then none
  else
    let ms := ps.map fun p => vMul p.1 p.2
    let bad := ms.any fun m => m.2 != 0
    let vs := ms.map (·.1)
    let pos := vs.any (· == .inf false)
    let neg := vs.any (· == .inf true)
    if bad || (pos && neg) then some (.nan, fInvalid)
    else if vs.any Val.isNan then some (.nan, 0)
    else if pos then some (.inf false, 0)
    else if neg then some (.inf true, 0)
    else some (rnd32 sat (windowSum vs))

/-- Scale application (R127, Table 3.2). -/
def applyScale (sat : Bool) (ea ew : Nat) (s : Val) : Val × Flags :=
  let off (e : Nat) : Bool := e = 0 || e = 255
  let sh : Int := if off ea || off ew then 0 else ((ea : Int) - 127) + ((ew : Int) - 127)
  match s with
  | .fin n m e => if m = 0 || sh = 0 then (s, 0) else rnd32 sat (.fin n m (e + sh))
  | _ => (s, 0)

/-- A decoded element of a block with E8 code `e8` (R98). -/
def blockElem (f : Fmt) (e8 : Nat) (code : Nat) : Val :=
  if e8 = 0 then vZero false else if e8 = 255 then .nan else f.decode code

/-- A float block sum: the pairs of codes that take part (R125). -/
def floatBlock (af wf : Fmt) (sat : Bool) (ea ew : Nat) (ps : List (Nat × Nat)) : Option (BitVec 32 × Flags) :=
  match rawBlock sat (ps.map fun p => (blockElem af ea p.1, blockElem wf ew p.2)) with
  | none => none
  | some (s, g) =>
    let (s, h) := applyScale sat ea ew s
    some (BitVec.ofNat 32 (roundFloat .b32 sat true s).1, g ||| h)

/-- An S8 block sum (R133). -/
def intBlock (ps : List (Nat × Nat)) : Option (BitVec 32 × Flags) :=
  if ps.isEmpty then none
  else some (BitVec.ofInt 32 ((ps.map fun p => sgn 8 p.1 * sgn 8 p.2).sum), 0)

/-! ### Accumulator entries (§4.1, §4.2) -/

/-- `p + s` in binary32, or in S32 (R128, R131, R133). -/
def addPart (int sat : Bool) (p s : BitVec 32) : BitVec 32 × Flags :=
  if int then
    let r := fitInt .s32 sat (p.toInt + s.toInt)
    (BitVec.ofNat 32 r.1, r.2)
  else
    let (v, g) := vAdd (Fmt.b32.decode p.toNat) (Fmt.b32.decode s.toNat)
    let r := roundFloat .b32 sat true v
    (BitVec.ofNat 32 r.1, g ||| r.2)

/-- A spill: P moves into W (R171); an S8×S8 entry never spills (R173). -/
def Acc.spill (a : Acc) : Acc × Flags :=
  if a.int then (a, 0)
  else match a.p with
    | none => (a, 0)
    | some p => match a.w with
      | none => ({ a with w := some (widen64 p), p := none }, 0)
      | some w => let (r, g) := add64 w (widen64 p); ({ a with w := some r, p := none }, g)

/-- The close of a chunk: W moves into C (R171). -/
def Acc.close (a : Acc) : Acc × Flags :=
  match a.w with
  | none => (a, 0)
  | some w => match a.c with
    | none => ({ a with c := some w, w := none }, 0)
    | some c => let (r, g) := add64 c w; ({ a with c := some r, w := none }, g)

/-- One block of a pass taken by an entry (R171); `i` is the spill interval. -/
def Acc.take (a : Acc) (i : Nat) (sat : Bool) (s : Option (BitVec 32 × Flags)) : Acc × Flags :=
  let (a, g) := match s with
    | none => (a, (0 : Flags))
    | some (x, g) =>
      let (p, h) := match a.p with
        | none => (x, (0 : Flags))
        | some p => addPart a.int sat p x
      ({ a with p := some p, cur := true,
                h := if a.h = 0 then 1 else if a.h = 1 && !a.cur then 2 else a.h }, g ||| h)
  let k := a.kpos.toNat + 1
  let (a, g2) := if k % (4 * i) = 0 || k = 256 then a.spill else (a, 0)
  let (a, g3) := if k = 256 then a.close else (a, 0)
  ({ a with kpos := BitVec.ofNat 8 k, cur := if k = 256 then false else a.cur }, g ||| g2 ||| g3)

/-- The closed value and the flags of forming it (R174): sign-extended when an integer. -/
def Acc.closed (a : Acc) : Option (BitVec 64) × Flags :=
  if a.int then (a.p.map fun p => p.signExtend 64, 0)
  else
    let (b, g) := a.spill
    let (b, h) := b.close
    (b.c, g ||| h)

/-- Whether P, W and C are all empty. -/
def Acc.empty (a : Acc) : Bool := a.p.isNone && a.w.isNone && a.c.isNone

/-! ### The pass -/

/-- What a pass or a drain-queue operation leaves: the core, its arithmetic flags, a cause of Table 6.18, and the check errors
of R164 as (CORE_MXERR bit, DETAIL). -/
structure OpOut where
  core  : CoreSt
  flags : Flags := 0
  cause : Option Nat := none
  check : List (Nat × Nat) := []
  flush : Nat := 0
  nanz  : Nat := 0
  slots : List (BitVec 4 × Nat × Nat) := []
  deriving DecidableEq, Repr

/-- Whether a pass agrees with the tile it uses (R662). -/
def tileFits (t : Tile) (wf : Fmt) (band : BitVec 2) (nb : BitVec 3) : Bool :=
  match t.fmt with
  | none => true
  | some c => c = wfmtCode wf && t.band = band && nb.toNat ≤ t.nb.toNat

/-- DETAIL of a residue mismatch (R164). -/
def residueDetail (x : BitVec 7 × BitVec 2 × Bool) : Nat := if x.2.2 then x.1.toNat + 512 else x.1.toNat + 128 * x.2.1.toNat

/-- Whether the products of block `b` in band `n` and physical column `j` pass segment `seg` of that column, or its adder when
`seg` is none. -/
def segUsed (wf : Fmt) (f : MpFields) (kp cp : PReg) (n j : Nat) (seg : Option Nat) (b : Nat) : Bool :=
  colOn f.nb n (fun j => cp.toNat.testBit j) j && (List.range 32).any fun t =>
    kOn wf f.band kp (32 * b + t) && (seg.isNone || seg == some (rowOfK wf f.band n (32 * b + t) / 32))

/-- The weight registers with wrong parity and the arithmetic with a residue mismatch that a pass uses (R164). -/
def checkErrors (c : CoreSt) (wf : Fmt) (f : MpFields) (kp cp : PReg) : List (Nat × Nat) :=
  let used (j : Nat) (seg : Option Nat) : Bool := (List.range (f.nb.toNat + 1)).any fun n =>
    (List.range (passK wf f.band / 32)).any fun b => segUsed wf f kp cp n j seg b
  (c.wpar.filterMap fun x => if used x.1.toNat (some x.2.toNat) then some (0, x.1.toNat + 128 * x.2.toNat) else none)
    ++ c.residue.filterMap fun x =>
      if used x.1.toNat (if x.2.2 then none else some x.2.1.toNat) then some (1, residueDetail x) else none

/-- Whether a mismatch of `chk` lies in what block `b` of band `n` and physical column `j` passes. -/
def checkHits (chk : List (Nat × Nat)) (wf : Fmt) (f : MpFields) (kp cp : PReg) (n j b : Nat) : Bool :=
  chk.any fun x => x.2 % 128 == j && segUsed wf f kp cp n j (if x.2.testBit 9 then none else some (x.2 / 128 % 4)) b

/-- The block sums of one activation row and one output column. -/
def rowBlocks (af wf : Fmt) (sat : Bool) (ea : Nat → Nat) (acts : List (Nat × Nat)) (t : Tile) (blocks col : Nat) :
    List (Option (BitVec 32 × Flags)) :=
  (List.range blocks).map fun b =>
    let ps := (acts.filter fun x => x.1 / 32 == b).map fun x =>
      (x.2, (sget 0 t.w (x.1 * 1024 + col)).toNat)
    if wf = .s8 then intBlock ps
    else floatBlock af wf sat (ea b) (if wf = .t16 then 127 else (sget 0x7F t.sc (b * 1024 + col)).toNat) ps

/-- A NEWW pass activates the staged tile (R136, R137, R142). -/
def CoreSt.activate (c : CoreSt) (neww : Bool) : CoreSt :=
  if neww then { c with active := c.staged, stagedNew := false, wpar := c.spar } else c

/-- The core-store ranges that a pass reads: the activations of the K positions that take part, and their scales. -/
def passReads (af wf : Fmt) (f : MpFields) (word : Word) (kp : PReg) (cb : CBuf) : List (Nat × Nat) :=
  let k := passK wf f.band
  let pitch := rowPitch af wf f.band
  let ks := (List.range k).filter (kOn wf f.band kp)
  let scaled := bitOf word 57 && (af = .k4 || af = .k5 || af = .n4)
  (List.range (bitsOf word 0 16)).flatMap fun r =>
    (ks.map fun x => (cb.addr ((r * pitch + x * af.width / 8 : Nat) : Int), max 1 (af.width / 8)))
      ++ if scaled then ((List.range (k / 32)).filter (blockOn wf f.band kp)).map fun b => (bitsOf word 32 25 + 8 * r + b, 1)
        else []

/-- The first entry of a pass with an addend that is not of its pair's kind, where the pass is found illegal (R664). -/
def passBad (c : CoreSt) (f : MpFields) (word : Word) (cp : PReg) : Option Nat :=
  let int := match pairFmts f.pair with
    | some (_, wf) => wf == .s8
    | none => false
  let wd := 128 * (f.nb.toNat + 1)
  let bad (e : Nat) : Bool := (c.entry f.set e).int != int && !(c.entry f.set e).empty
  if !f.add then none
  else ((List.range (bitsOf word 0 16)).flatMap fun r => ((List.range wd).filter fun x =>
    colOn f.nb (x / 128) (fun j => cp.toNat.testBit j) (x % 128)).map fun x => bitsOf word 16 15 + r * wd + x).find? bad

/-- Whether a pass is illegal as it starts: it agrees with no pair or with another tile (R662). -/
def passMisfit (c : CoreSt) (f : MpFields) : Bool :=
  match pairFmts f.pair with
  | some (_, wf) => !tileFits (if f.neww then c.staged else c.active) wf f.band f.nb
  | none => true

/-- A pass (R117, R152, R153, R169, R171, R664): `i` is the spill interval; with a wrong skew table the block sums that it adds are free,
the words `Config.freeWord (free + 8 · entry + block)`, and so are those that a check error lies in (R157, R164); the flags stay those of
the right sums (assumption 2).  The entries before
one that is illegal have taken their sums, since the pass is found illegal when it reaches that entry (R664, assumption 107). -/
def passRun (c : CoreSt) (f : MpFields) (word : Word) (kp cp : PReg) (cb : CBuf) (i : Nat) (skewOk : Bool)
    (free : Nat) : OpOut :=
  match pairFmts f.pair with
  | none => { core := c, cause := some cOpcode }
  | some (af, wf) =>
    if !tileFits (if f.neww then c.staged else c.active) wf f.band f.nb then { core := c, cause := some cOperand }
    else
      let c := { c.activate f.neww with lastBand := f.band }
      let chk := checkErrors c wf f kp cp
      let int := wf = .s8
      let k := passK wf f.band
      let blocks := k / 32
      let ks := (List.range k).filter (kOn wf f.band kp)
      let m := bitsOf word 0 16
      let first := bitsOf word 16 15
      let asc := bitsOf word 32 25
      let scaled := bitOf word 57 && (af = .k4 || af = .k5 || af = .n4)
      let pitch := rowPitch af wf f.band
      let wd := 128 * (f.nb.toNat + 1)
      let cols := (List.range wd).filter fun x => colOn f.nb (x / 128) (fun j => cp.toNat.testBit j) (x % 128)
      let code (r x : Nat) : Nat :=
        if af = .n4 then fld (c.byte (cb.addr ((r * pitch + x / 2 : Nat) : Int))).toNat (4 * (x % 2)) 4
        else leNat (c.rdCb cb ((r * pitch + x * (af.width / 8) : Nat) : Int) (af.width / 8))
      let c := { c with rdLog := c.rdLog ++ passReads af wf f word kp cb }
      if ks.isEmpty && !f.add then { core := c, check := chk }
      else
        let o := (List.range m).foldl (fun o r =>
          let acts := ks.map fun x => (x, code r x)
          let ea (b : Nat) : Nat := if scaled then (c.byte (asc + 8 * r + b)).toNat else 127
          cols.foldl (fun o col =>
            if o.cause.isSome then o
            else
              let e := first + r * wd + col
              let a0 := o.core.entry f.set e
              if f.add && a0.int != int && !a0.empty then { o with cause := some cOperand }
              else
                let a := if f.add then { a0 with int := int } else { int := int }
                let sums := rowBlocks af wf f.sat ea acts c.active blocks col
                let sums := if skewOk && chk.isEmpty then sums
                  else (List.range sums.length).map fun b => (nth none sums b).map fun s =>
                    if !skewOk || checkHits chk wf f kp cp (col / 128) (col % 128) b then
                      ((Config.freeWord (free + 8 * e + b)).setWidth 32, s.2)
                    else s
                let (a, g) := sums.foldl (fun x s => let r := x.1.take i f.sat s; (r.1, x.2 ||| r.2)) (a, (0 : Flags))
                { o with core := o.core.setEntry f.set e a, flags := o.flags ||| g }) o)
          ({ core := c, check := chk } : OpOut)
        o

/-- The entries that a matrix or drain operation touches, for R170: a set, first entry, row width, rows and
columns. -/
structure Touch where
  set  : BitVec 2
  first : Nat
  wd   : Nat
  rows : Nat
  cols : Nat → Bool
  rs   : Nat × Nat

/-- Whether an entry is touched. -/
def Touch.on (t : Touch) (e : Nat) : Bool :=
  t.first ≤ e && decide (t.wd ≠ 0) && decide ((e - t.first) / t.wd < t.rows) && t.cols ((e - t.first) % t.wd)

/-- Whether two operations share an entry or a row state of one set. -/
def Touch.meets (a b : Touch) : Bool :=
  a.set = b.set && (((List.range 32768).any fun e => a.on e && b.on e)
    || (a.rs.1 < b.rs.1 + b.rs.2 && b.rs.1 < a.rs.1 + a.rs.2))

/-- What a queued matrix operation touches. -/
def MatOp.touch : MatOp → Option Touch
  | .load .. => none
  | .pass f word _ cp _ _ _ =>
    some { set := f.set, first := bitsOf word 16 15, wd := 128 * (f.nb.toNat + 1), rows := bitsOf word 0 16,
           cols := fun x => colOn f.nb (x / 128) (fun j => cp.toNat.testBit j) (x % 128), rs := (0, 0) }

def MatOp.ord : MatOp → Nat
  | .load _ _ _ _ _ o => o
  | .pass _ _ _ _ _ _ o => o
def MatOp.bundle : MatOp → BitVec 16
  | .load _ _ _ _ b _ => b
  | .pass _ _ _ _ _ b _ => b
/-- Whether the operation is a weight load. -/
def MatOp.isLoad : MatOp → Bool
  | .load .. => true
  | .pass .. => false
/-- The operation with no completion event (R165). -/
def MatOp.silent : MatOp → MatOp
  | .pass f w k c b n o => .pass { f with even := false } w k c b n o
  | o => o

/-! ### The known-pattern test (§3.8.2) -/

/-- Line `n` of the known-pattern test's results: 32 binary32 results in order of m, then j (R161). -/
def goldLine (n : Nat) : List Byte :=
  (List.range 32).flatMap fun q =>
    let x := 32 * n + q
    let m := x / 128
    let j := x % 128
    let sums := (List.range 4).map fun b => floatBlock .k4 .k4 false 127 127
      ((List.range 32).map fun t => let i := 32 * b + t; (0x30 + (5 * m + i) % 8, 0x38 + (i + 3 * j) % 8))
    let a := sums.foldl (fun (a : Acc) s => (a.take 64 false s).1) {}
    leBytes 4 (a.p.getD 0).toNat

/-- CORE_MXGOLD: the check value of the known-pattern test, its 512 lines fed with AMODE 0b01 (R161, R391,
R394). -/
def mxGold : BitVec 32 :=
  crc32c ((List.range 512).flatMap fun n => leBytes 8 (128 * n) ++ goldLine n)

end Sys2Proof.Machine
end

