-- ==== Sys2Proof/Machine/Drain.lean ====
section
/-! DEFINITION. The drain queue (chapter 4): the accumulator-class operations at issue and what each does in one core
when it runs. -/
namespace Sys2Proof

/-- ROWS of ASAVE and ALOAD, RING of ACHAIN: bit 17. -/
def AFields.bit17 (f : AFields) : Bool := f.low.toNat.testBit 17
def AFields.form (f : AFields) : Nat := Machine.fld f.low.toNat 16 2
def AFields.ycb (f : AFields) : BitVec 3 := BitVec.ofNat 3 (Machine.fld f.low.toNat 13 3)
def AFields.yfmt (f : AFields) : BitVec 4 := BitVec.ofNat 4 (Machine.fld f.low.toNat 9 4)
def AFields.fn (f : AFields) : Nat := Machine.fld f.low.toNat 14 4
def AFields.biasen (f : AFields) : Bool := f.low.toNat.testBit 13
def AFields.bcb (f : AFields) : BitVec 3 := BitVec.ofNat 3 (Machine.fld f.low.toNat 10 3)

end Sys2Proof

namespace Sys2Proof.Machine

/-! ### Operands -/

/-- The range parameter word (Table 6.15). -/
structure Rng where
  first : Nat
  rows  : Nat
  wd    : Nat
  cols  : Nat
  frow  : Nat
  dfmt  : BitVec 4
  vreg  : Bool
  vd    : BitVec 5
  dcb   : BitVec 3
  deriving DecidableEq, Repr

def rngOf (w : Word) : Rng :=
  { first := bitsOf w 0 15, rows := bitsOf w 15 9, wd := 128 * (bitsOf w 24 3 + 1), cols := bitsOf w 27 11,
    frow := bitsOf w 38 8, dfmt := BitVec.ofNat 4 (bitsOf w 46 4), vreg := bitOf w 50,
    vd := BitVec.ofNat 5 (bitsOf w 51 5), dcb := BitVec.ofNat 3 (bitsOf w 56 3) }

/-- Entry of row `r`, column `j` (R282). -/
def Rng.entry (p : Rng) (r j : Nat) : Nat := p.first + r * p.wd + j
/-- The entries of row `r`. -/
def Rng.row (p : Rng) (r : Nat) : List Nat := (List.range p.cols).map (p.entry r)
/-- Every entry, in entry order. -/
def Rng.cells (p : Rng) : List Nat := (List.range p.rows).flatMap p.row
/-- The entries cut into the groups of chain blocks: up to 128 consecutive entries of a row (§4.3). -/
def Rng.groups (p : Rng) : List (List Nat) :=
  (List.range p.rows).flatMap fun r => (List.range ((p.cols + 127) / 128)).map fun b =>
    ((p.row r).drop (128 * b)).take 128

/-- Whether an operation reads g: the drains (R186), and the steps that scale by g (R196). -/
def DCode.usesG : DCode → Bool
  | .fdrain | .vdrain | .smax | .sexp => true
  | _ => false
/-- Whether an operation is a drain, whose g must be a positive normal value (R185, R186). -/
def DCode.isDrain : DCode → Bool
  | .fdrain | .vdrain => true
  | _ => false
/-- Whether it writes its results through R189. -/
def DCode.stores : DCode → Bool
  | .fdrain | .vdrain | .sexp | .sfin => true
  | _ => false
/-- Whether it names row states. -/
def DCode.softmax : DCode → Bool
  | .sreset | .smax | .sexp | .sscale | .sfin => true
  | _ => false
/-- The unit that executes it (R663): whether the vector drain. -/
def DCode.onVec : DCode → Bool
  | .vdrain | .smax | .sexp | .sfin => true
  | _ => false

/-- What the encoding of Table 6.14 demands of the operation's own bits. -/
def aFieldsOk (code : DCode) (f : AFields) : Bool :=
  let l := f.low.toNat
  match code with
  | .asave | .aload | .achainSend | .achainRecv => l % 2 ^ 17 == 0
  | .fdrain => f.wen && f.form != 3 && f.yfmt.toNat ≤ 10 && l % 2 ^ 9 == 0
  | .vdrain => f.wen && f.fn != 11 && l % 2 ^ 10 == 0
  | _ => l == 0

/-- Whether a destination format code names a scaled format. -/
def scaledFmt (c : BitVec 4) : Bool := (scaledOf c).isSome
/-- A positive normal binary32 value (R186). -/
def posNormal (g : BitVec 32) : Bool := decide (0x00800000 ≤ g.toNat ∧ g.toNat < 0x7F800000)

/-- What R176, R186, R191, R276, R277 and R282 demand of the values that the operation reads at issue. -/
def aValuesOk (code : DCode) (f : AFields) (w : Word) (g : BitVec 32) (enc : Word) (dcb cb2 : CBuf) : Bool :=
  let p := rngOf w
  let row17 := (code = .asave || code = .aload) && f.bit17
  let ring := (code = .achainSend || code = .achainRecv) && f.bit17
  let image := code = .asave || code = .aload
  let toStore := (code.stores && !p.vreg) || image || ((code = .achainSend || code = .achainRecv) && !ring)
  bitsOf w 59 5 == 0 && p.rows != 0 && p.rows ≤ 256 && p.cols != 0 && p.cols ≤ p.wd
    && decide (p.entry (p.rows - 1) (p.cols - 1) ≤ 32767)
    && (!(code.softmax || row17) || decide (p.frow + p.rows ≤ 256))
    && (!p.vreg || (code = .vdrain && p.rows == 1 && p.cols ≤ 128 && !scaledFmt p.dfmt))
    && (!code.stores || (p.dfmt.toNat ≤ 13 &&
        (!scaledFmt p.dfmt || (f.sg != 31 && bitsOf enc 61 3 == 0))))
    && (!code.isDrain || posNormal g)
    && (!toStore || dcb.ok)
    && (!image || dcb.base.toNat % 128 == 0)
    && (!(code = .fdrain && f.form != 0) || cb2.ok)
    && (!(code = .vdrain && f.biasen) || cb2.ok)

/-- An accumulator-class operation at issue (R269). -/
def drainIssue (e : Env) (code : DCode) (f : AFields) (c0 c : CoreSt) : SlotR := do
  need (!(e.alone && (code = .achainSend || code = .achainRecv))) cMode
  need (aFieldsOk code f) cOpcode
  let w ← paramWord e c0 f.t f.sp
  let p := rngOf w
  let g : BitVec 32 := (c0.s f.sg).setWidth 32
  let enc := c0.s (f.sg + 1)
  let dcb := c0.cb p.dcb
  let cb2 := c0.cb (if code = .fdrain then f.ycb else f.bcb)
  need (aValuesOk code f w g enc dcb cb2) cOperand
  let c := c.logParam e c0 f.t f.sp
  let c := if code = .vdrain && p.vreg then { c with vregWait := c.vregWait ++ [(p.vd, if f.sen then some f.sev else none)] } else c
  .ok { c with dq := c.dq ++ [{ code, f, word := w, g, enc, dcb, cb2, bundle := BitVec.ofNat 16 e.bundle,
                                ord := c.ord }],
               ord := c.ord + 1 }

/-- The matrix slot in one core. -/
def matrixSlot (e : Env) (op : MSlot) (c0 c : CoreSt) : SlotR :=
  match op with
  | .load f => mwloadIssue e f c0 c
  | .pass f => mpassIssue e f c0 c
  | .drain code f => drainIssue e code f c0 c

/-- What a drain-queue operation touches, for R170. -/
def DrainOp.touch (o : DrainOp) : Touch :=
  let p := rngOf o.word
  let rows17 := (o.code = .asave || o.code = .aload) && o.f.bit17
  { set := o.f.set, first := p.first, wd := p.wd, rows := if o.code = .sreset then 0 else p.rows,
    cols := fun x => decide (x < p.cols),
    rs := if o.code.softmax || rows17 then (p.frow, p.rows) else (0, 0) }

/-- The operation with no completion event (R201). -/
def DrainOp.silent (o : DrainOp) : DrainOp := { o with f := { o.f with sen := false } }

/-! ### Reading entries -/

/-- A closed value as an exact value. -/
def closedVal (a : Acc) : Option Val × Flags :=
  let (x, g) := a.closed
  (x.map fun x => if a.int then vInt x.toInt else Fmt.b64.decode x.toNat, g)

/-- A binary32 code as a value. -/
def v32 (x : BitVec 32) : Val := Fmt.b32.decode x.toNat
/-- A value on the binary32 grid as its code. -/
def c32 (v : Val) : BitVec 32 := BitVec.ofNat 32 (roundFloat .b32 false true v).1

/-- The drain input v of an entry as binary32 (R175, R190). -/
def drainIn (a : Acc) (sat : Bool) : Val × Flags :=
  match closedVal a with
  | (none, g) => (vZero false, g)
  | (some x, g) => let (v, h) := rnd32 sat x; (v, g ||| h)

/-! ### Output conversion (R189) -/

/-- The binary32 results of the rows of a drain, each as a code; an S32 result stored unchanged (R190) is `inr`. -/
abbrev DrainRes := List (List (BitVec 32 ⊕ BitVec 32))

/-- The subnormal mode applied to a scaled destination's input: value, flushed, flags. -/
def flush32 (keep : Bool) (x : BitVec 32) : Nat × Nat × Flags :=
  match v32 x with
  | .fin n m e => if !keep && Fmt.b32.isSub m e then ((c32 (vZero n)).toNat, 1, fUnderflow) else (x.toNat, 0, 0)
  | _ => (x.toNat, 0, 0)

/-- Elements packed at buffer offset `o`, an unused nibble left as it stands (R193). -/
def packMasked (f : Fmt) (cb : CBuf) (o : Nat) (cs : List Nat) : List (Nat × Byte × Byte) :=
  let bs := packElems f cs
  (List.range bs.length).map fun j =>
    (cb.addr ((o + j : Nat) : Int), nth 0 bs j,
      if f = .n4 && cs.length % 2 = 1 && j + 1 = bs.length then 0x0F else 0xFF)

/-- The bytes from one row to the next of a destination (R282). -/
def rowStride (f : Fmt) (cols : Nat) : Nat := (f.bytes cols + 127) / 128 * 128

/-- Write the results of a drain (R189, R191, R282).  A row of the scale plane is the 32 bytes from one row's scales to the next; the
bytes beyond the last block are written 0 (R78, assumption 108). -/
def drainOut (o : DrainOp) (keep : Bool) (rows : DrainRes) (r : OpOut) : OpOut :=
  let p := rngOf o.word
  let plain (f : Fmt) (x : BitVec 32 ⊕ BitVec 32) : Cvt :=
    match x with
    | .inl x => convert .b32 f o.f.sat keep x.toNat
    | .inr x => { code := x.toNat }
  match scaledOf p.dfmt, Fmt.ofCode p.dfmt with
  | some f, _ =>
    let rs := rows.map fun row =>
      let xs := row.map fun x => flush32 keep (match x with | .inl x => x | .inr x => x)
      let bl := (List.range ((xs.length + 31) / 32)).map fun b =>
        encodeBlock f (bitsOf o.enc 0 32) o.f.sat keep (((xs.drop (32 * b)).take 32).map fun x => some x.1)
      (xs, bl)
    let ws := (List.range rs.length).flatMap fun i =>
      let bl := (nth ([], []) rs i).2
      packMasked f o.dcb (i * rowStride f p.cols) (bl.flatMap fun b => b.codes.map fun c => c.getD 0)
        ++ fullBytes (bitsOf o.enc 32 25 + 32 * i) (slice (bl.map fun b => BitVec.ofNat 8 b.e8) 0 32)
    let xs := rs.flatMap (·.1)
    let bl := rs.flatMap (·.2)
    let flags := bl.foldl (fun g b => g ||| b.flags) (xs.foldl (fun g x => g ||| x.2.2) r.flags)
    let n := (xs.map fun x => x.2.1).sum + (bl.map fun b => b.flush).sum
    let slot : BitVec 4 := BitVec.ofNat 4 (bitsOf o.enc 57 4)
    { r with core := r.core.wrMany ws, flags, slots := r.slots ++ [(slot, n, (bl.map fun b => b.nanz).sum)] }
  | none, some f =>
    let cs := rows.map fun row => row.map (plain f)
    let all : List Cvt := cs.flatten
    let r := { r with flags := all.foldl (fun g (x : Cvt) => g ||| x.flags) r.flags,
                      flush := r.flush + (all.map Cvt.flush).sum, nanz := r.nanz + (all.map Cvt.nanz).sum }
    if p.vreg then
      let v := ofLanes (all.map fun x => lanePut f x.code)
      { r with core := { r.core with vres := some { due := 0, tgt := .vector p.vd v (predOf fun k => k < p.cols),
                                                    flags := r.flags, flush := r.flush, nanz := r.nanz } },
               flags := 0, flush := 0, nanz := 0 }
    else
      let ws := (List.range cs.length).flatMap fun i =>
        packMasked f o.dcb (i * rowStride f p.cols) ((nth [] cs i).map fun x => x.code)
      { r with core := r.core.wrMany ws }
  | none, none => r

/-! ### The drains -/

/-- Element `j` of row `r` of the second tensor as binary32 (R187, R282). -/
def yElem (c : CoreSt) (o : DrainOp) (r j : Nat) : Val :=
  match Fmt.ofCode o.f.yfmt with
  | none => vZero false
  | some f =>
    let off := r * rowStride f (rngOf o.word).cols
    let code := if f = .n4 then fld (c.byte (o.cb2.addr ((off + j / 2 : Nat) : Int))).toNat (4 * (j % 2)) 4
      else leNat (c.rdCb o.cb2 ((off + j * (f.width / 8) : Nat) : Int) (f.width / 8))
    Fmt.b32.decode (convert f .b32 false true code).code

/-- The fast drain (R187, R190). -/
def fdrainRun (c : CoreSt) (o : DrainOp) (keep : Bool) : OpOut :=
  let p := rngOf o.word
  let g := v32 o.g
  let one (r j : Nat) : (BitVec 32 ⊕ BitVec 32) × Flags :=
    let a := c.entry o.f.set (p.entry r j)
    if a.int && o.f.form = 0 && o.g = 0x3F800000#32 && Fmt.ofCode p.dfmt = some .s32 then
      (.inr (a.p.getD 0), 0)
    else
      let (v, f0) := drainIn a o.f.sat
      let (x, f1) :=
        if o.f.form = 0 then vMul v g
        else if o.f.form = 1 then vFma v g (yElem c o r j)
        else let (t, f) := vMul v g; let (u, h) := vMul t (yElem c o r j); (u, f ||| h)
      let (y, f2) := rnd32 o.f.sat x
      (.inl (c32 y), f0 ||| f1 ||| f2)
  let rs := (List.range p.rows).map fun r => (List.range p.cols).map (one r)
  let c := match Fmt.ofCode o.f.yfmt with
    | some f => if o.f.form = 0 then c else (List.range p.rows).foldl (fun c r =>
        c.logCb o.cb2 ((r * rowStride f p.cols : Nat) : Int) (f.bytes p.cols)) c
    | none => c
  drainOut o keep (rs.map fun row => row.map (·.1))
    { core := c, flags := rs.flatten.foldl (fun g x => g ||| x.2) 0 }

/-- The function of a vector drain (Table 6.14): none for the identity. -/
def vdrainFn (c : CoreSt) (fn : Nat) (kx keep sat : Bool) (x : Nat) : Nat × Flags :=
  if fn = 0 then (x, 0)
  else if 12 ≤ fn then ufn32 (c.activeBank (BitVec.ofNat 2 (fn - 12))) kx keep sat x
  else match sfnOf (fn - 1) with
    | some f => sfn32 f kx keep sat x
    | none => (x, 0)

/-- The vector drain (R188); a UFN on a LUT bank is illegal (R234). -/
def vdrainRun (c : CoreSt) (o : DrainOp) (kx keep : Bool) : OpOut :=
  let p := rngOf o.word
  if 12 ≤ o.f.fn && hdrLut (c.activeBank (BitVec.ofNat 2 (o.f.fn - 12))).hdr then
    { core := c, cause := some cOperand }
  else
    let g := v32 o.g
    let bias (j : Nat) : Val :=
      if o.f.biasen then Fmt.b32.decode (leNat (c.rdCb o.cb2 ((4 * j : Nat) : Int) 4)) else vZero false
    let one (r j : Nat) : (BitVec 32 ⊕ BitVec 32) × Flags :=
      let (v, f0) := drainIn (c.entry o.f.set (p.entry r j)) o.f.sat
      let (x, f1) := vFma v g (bias j)
      let (y, f2) := roundFloat .b32 o.f.sat true x
      let (z, f3) := vdrainFn c o.f.fn kx keep o.f.sat y
      (.inl (BitVec.ofNat 32 z), f0 ||| f1 ||| f2 ||| f3)
    let rs := (List.range p.rows).map fun r => (List.range p.cols).map (one r)
    let c := if o.f.biasen then c.logCb o.cb2 0 (4 * p.cols) else c
    drainOut o keep (rs.map fun row => row.map (·.1))
      { core := c, flags := rs.flatten.foldl (fun g x => g ||| x.2) 0 }

/-! ### Softmax steps (R195, R196) -/

/-- x_e of an entry. -/
def score (c : CoreSt) (o : DrainOp) (e : Nat) : Val × Flags :=
  let (v, f0) := drainIn (c.entry o.f.set e) o.f.sat
  let (x, f1) := vMul v (v32 o.g)
  let (y, f2) := rnd32 o.f.sat x
  (y, f0 ||| f1 ||| f2)

/-- The native exp2 of a difference rounded to binary32. -/
def expDiff (a b : Val) (sat keep : Bool) : Val × Flags :=
  let (d, f0) := vAdd a (vNeg b)
  let (x, f1) := roundFloat .b32 sat true d
  let (y, f2) := sfn32 .exp2 false keep sat x
  (Fmt.b32.decode y, f0 ||| f1 ||| f2)

/-- Whether m' equals m, both infinities of one sign included. -/
def sameVal (a b : Val) : Bool := !a.isNan && !b.isNan && vCmp a b == .eq

def sresetRun (c : CoreSt) (o : DrainOp) : OpOut :=
  let p := rngOf o.word
  { core := (List.range p.rows).foldl (fun c r => c.setRow o.f.set (p.frow + r) {}) c }

def smaxRun (c : CoreSt) (o : DrainOp) (keep : Bool) : OpOut :=
  let p := rngOf o.word
  (List.range p.rows).foldl (fun r i =>
    let xs := (p.row i).map (score c o)
    let t := (xs.map (·.1)).foldl (vMinMax true false) .nan
    let st := c.row o.f.set (p.frow + i)
    let m := v32 st.m
    let m' := vMinMax true false m t
    let (al, g) := if sameVal m m' then (vOne, (0 : Flags)) else expDiff m m' o.f.sat keep
    { r with core := r.core.setRow o.f.set (p.frow + i) { st with m := c32 m', alpha := c32 al },
             flags := xs.foldl (fun g x => g ||| x.2) (r.flags ||| g) }) { core := c }

/-- A binary64 product (R196). -/
def mul64 (a : BitVec 64) (b : Val) : BitVec 64 × Flags := rnd64 (vMul (Fmt.b64.decode a.toNat) b)

def sexpRun (c : CoreSt) (o : DrainOp) (keep : Bool) : OpOut :=
  let p := rngOf o.word
  let row (i : Nat) : List (Val × Flags) :=
    let m := v32 (c.row o.f.set (p.frow + i)).m
    (p.row i).map fun e =>
      let (x, f0) := score c o e
      if x = .inf true then (vZero false, f0)
      else let (y, f1) := expDiff x m o.f.sat keep; (y, f0 ||| f1)
  let rs := (List.range p.rows).map row
  let r := (List.range p.rows).foldl (fun (r : OpOut) i =>
    let st := c.row o.f.set (p.frow + i)
    let (l0, g) := mul64 st.l (v32 st.alpha)
    let (l, g) := (nth [] rs i).foldl (fun (x : BitVec 64 × Flags) y =>
      let (s, h) := rnd64 (vAdd (Fmt.b64.decode x.1.toNat) y.1)
      (s, x.2 ||| h ||| y.2)) (l0, g)
    { r with core := r.core.setRow o.f.set (p.frow + i) { st with l }, flags := r.flags ||| g }) { core := c }
  drainOut o keep (rs.map fun row => row.map fun x => .inl (c32 x.1)) r

def sscaleRun (c : CoreSt) (o : DrainOp) : OpOut :=
  let p := rngOf o.word
  (List.range p.rows).foldl (fun r i =>
    let al := v32 (c.row o.f.set (p.frow + i)).alpha
    (p.row i).foldl (fun (r : OpOut) e =>
      if r.cause.isSome then r
      else
        let a := c.entry o.f.set e
        let (x, g) := a.closed
        match x with
        | none => r
        | some x =>
          if a.int then { r with cause := some cOperand }
          else
            let (y, h) := mul64 x al
            { r with core := r.core.setEntry o.f.set e { a with p := none, w := none, c := some y },
                     flags := r.flags ||| g ||| h }) r) { core := c }

def sfinRun (c : CoreSt) (o : DrainOp) (keep : Bool) : OpOut :=
  let p := rngOf o.word
  let rs := (List.range p.rows).map fun i =>
    let l := (c.row o.f.set (p.frow + i)).l
    (p.row i).map fun e =>
      if l = 0 then ((.inl 0 : BitVec 32 ⊕ BitVec 32), (0 : Flags))
      else
        let (x, f0) := closedVal (c.entry o.f.set e)
        let (q, f1) := vDiv (x.getD (vZero false)) (Fmt.b64.decode l.toNat)
        let (y, f2) := roundFloat .b32 o.f.sat true q
        (.inl (BitVec.ofNat 32 y), f0 ||| f1 ||| f2)
  drainOut o keep (rs.map fun row => row.map (·.1))
    { core := c, flags := rs.flatten.foldl (fun g x => g ||| x.2) 0 }

/-! ### Images and chains -/

/-- The 32-byte record of an entry (Table 4.2). -/
def accBytes (a : Acc) : List Byte :=
  let b (x : Bool) (k : Nat) : Nat := if x then 2 ^ k else 0
  leBytes 4 (a.p.getD 0).toNat
    ++ leBytes 4 (a.kpos.toNat + a.h.toNat * 256 + b a.p.isNone 10 + b a.w.isNone 11 + b a.c.isNone 12 + b a.cur 13
      + b a.int 14)
    ++ leBytes 8 (a.w.getD 0).toNat ++ leBytes 8 (a.c.getD 0).toNat ++ leBytes 8 0

/-- An entry from its record (R177). -/
def accOfBytes (b : List Byte) : Acc :=
  let t := leAt b 4 4
  { p := if t.testBit 10 then none else some (BitVec.ofNat 32 (leAt b 0 4)),
    w := if t.testBit 11 then none else some (BitVec.ofNat 64 (leAt b 8 8)),
    c := if t.testBit 12 then none else some (BitVec.ofNat 64 (leAt b 16 8)),
    kpos := BitVec.ofNat 8 t, h := BitVec.ofNat 2 (t / 256), cur := t.testBit 13, int := t.testBit 14 }

/-- A row state's 16 bytes (R176). -/
def rowBytes (r : RowSt) : List Byte := leBytes 4 r.m.toNat ++ leBytes 4 r.alpha.toNat ++ leBytes 8 r.l.toNat
def rowOfBytes (b : List Byte) : RowSt :=
  { m := BitVec.ofNat 32 (leAt b 0 4), alpha := BitVec.ofNat 32 (leAt b 4 4), l := BitVec.ofNat 64 (leAt b 8 8) }

def aclrRun (c : CoreSt) (o : DrainOp) : OpOut :=
  { core := (rngOf o.word).cells.foldl (fun c e => c.setEntry o.f.set e {}) c }

def asaveRun (c : CoreSt) (o : DrainOp) : OpOut :=
  let p := rngOf o.word
  let rec1 := p.cells.flatMap fun e => accBytes (c.entry o.f.set e)
  let rec2 := if o.f.bit17 then (List.range p.rows).flatMap fun i => rowBytes (c.row o.f.set (p.frow + i)) else []
  { core := c.wrCb o.dcb 0 (rec1 ++ rec2) }

def aloadRun (c : CoreSt) (o : DrainOp) : OpOut :=
  let p := rngOf o.word
  let cells := p.cells
  let c1 := (List.range cells.length).foldl (fun x i =>
    x.setEntry o.f.set (nth 0 cells i) (accOfBytes (c.rdCb o.dcb ((32 * i : Nat) : Int) 32))) c
  let c2 := if o.f.bit17 then (List.range p.rows).foldl (fun x i =>
      x.setRow o.f.set (p.frow + i)
        (rowOfBytes (c.rdCb o.dcb ((32 * cells.length + 16 * i : Nat) : Int) 16))) c1
    else c1
  { core := c2.logCb o.dcb 0 (32 * cells.length + if o.f.bit17 then 16 * p.rows else 0) }

/-- The chain blocks that a SEND makes, and their flags. -/
def sendBlocks (c : CoreSt) (o : DrainOp) : List ChainBlk × Flags :=
  let gs := (rngOf o.word).groups.map fun es => es.map fun e =>
    let a := c.entry o.f.set e
    (a.closed, a.int)
  (gs.map fun g => { epoch := c.epoch, vals := g.map fun x => (x.1.1, x.2) },
    gs.flatten.foldl (fun f x => f ||| x.1.2) 0)

/-- A chain block's 1,152 bytes (§4.3); mask bits and value slots beyond its entry count are 0, which R180 does not say
(assumption 110). -/
def blkBytes (b : ChainBlk) : List Byte :=
  let mask (f : Option (BitVec 64) × Bool → Bool) : Nat :=
    (List.range 128).foldr (fun j r => (if f (nth (some 0, false) b.vals j) then 1 else 0) + 2 * r) 0
  leBytes 16 (mask fun x => x.1.isNone) ++ leBytes 16 (mask fun x => x.2) ++ leBytes 96 0
    ++ (List.range 128).flatMap fun j => leBytes 8 ((nth (some 0, false) b.vals j).1.getD 0).toNat

/-- A chain block from its bytes. -/
def blkOfBytes (bs : List Byte) : ChainBlk :=
  { epoch := 0, vals := (List.range 128).map fun j =>
      (if (leAt bs 0 16).testBit j then none else some (BitVec.ofNat 64 (leAt bs (128 + 8 * j) 8)),
       (leAt bs 16 16).testBit j) }

/-- ACHAIN.SEND with RING = 0 (R180): the blocks stand in DCB from the head. -/
def sendBuf (c : CoreSt) (o : DrainOp) : OpOut :=
  let (bs, g) := sendBlocks c o
  { core := c.wrCb o.dcb 0 (bs.flatMap blkBytes), flags := g }

/-- What an incoming value does to an entry (R178): `none` when the kinds differ. -/
def foldIn (a : Acc) (x : Option (BitVec 64)) (int sat : Bool) : Option (Acc × Flags) :=
  match x with
  | none => some ({ a with h := 3 }, 0)
  | some x =>
    if a.empty then
      some (if int then { a with p := some (x.setWidth 32), int := true, h := 3 }
            else { a with c := some x, int := false, h := 3 }, 0)
    else if a.int != int then none
    else if int then
      let (p, g) := addPart true sat (x.setWidth 32) (a.p.getD 0)
      some ({ a with p := some p, h := 3 }, g)
    else
      let (e, g) := a.closed
      let (s, h) := add64 x (e.getD 0)
      some ({ a with p := none, w := none, c := some s, h := 3 }, g ||| h)

/-- ACHAIN.RECV of these blocks (R178, R179); the entries before one that is illegal have taken their values. -/
def recvRun (c : CoreSt) (o : DrainOp) (fixed : Bool) (bs : List ChainBlk) : OpOut :=
  let gs := (rngOf o.word).groups
  if fixed && gs.flatten.any fun e => 2 ≤ (c.entry o.f.set e).h.toNat then { core := c, cause := some cOperand }
  else
    (List.range gs.length).foldl (fun r i =>
      let es := nth [] gs i
      let b := nth { epoch := 0, vals := [] } bs i
      (List.range es.length).foldl (fun (r : OpOut) j =>
        if r.cause.isSome then r
        else
          let e := nth 0 es j
          let x := nth (none, false) b.vals j
          match foldIn (r.core.entry o.f.set e) x.1 x.2 o.f.sat with
          | none => { r with cause := some cOperand }
          | some (a, g) => { r with core := r.core.setEntry o.f.set e a, flags := r.flags ||| g }) r)
      ({ core := c } : OpOut)

/-- A receive of chain blocks from DCB, with RING = 0. -/
def DrainOp.bufRecv (o : DrainOp) : Bool := o.code = .achainRecv && !o.f.bit17

/-- What an operation reads of core store as it starts: a receive from DCB its chain blocks (R180). -/
def CoreSt.takeBuf (c : CoreSt) (o : DrainOp) : CoreSt :=
  if o.bufRecv then
    let n := (rngOf o.word).groups.length
    { c.logCb o.dcb 0 (1152 * n) with
      chainBuf := (List.range n).map fun i => blkOfBytes (c.rdCb o.dcb ((1152 * i : Nat) : Int) 1152) }
  else c

/-- Whether an operation is a chain step over the hatch ring. -/
def DrainOp.ringRecv (o : DrainOp) : Bool := o.code = .achainRecv && o.f.bit17
def DrainOp.ringSend (o : DrainOp) : Bool := o.code = .achainSend && o.f.bit17

/-- What a drain-queue operation does in its core when it runs; a ring receive takes blocks from `chainIn`, one from DCB those that it
read when it started, a ring send
leaves its blocks to the caller. -/
def drainRun (c : CoreSt) (o : DrainOp) (kx keep fixed : Bool) : OpOut :=
  match o.code with
  | .aclr => aclrRun c o
  | .asave => asaveRun c o
  | .aload => aloadRun c o
  | .achainSend => if o.f.bit17 then { core := c, flags := (sendBlocks c o).2 } else sendBuf c o
  | .achainRecv =>
    if o.f.bit17 then
      let n := (rngOf o.word).groups.length
      recvRun { c with chainIn := c.chainIn.drop n } o fixed (c.chainIn.take n)
    else recvRun { c with chainBuf := [] } o fixed c.chainBuf
  | .fdrain => fdrainRun c o keep
  | .vdrain => vdrainRun c o kx keep
  | .sreset => sresetRun c o
  | .smax => smaxRun c o keep
  | .sexp => sexpRun c o keep
  | .sscale => sscaleRun c o
  | .sfin => sfinRun c o keep

end Sys2Proof.Machine
end

