-- ==== Sys2Proof/Machine/FetchOp.lean ====
section
/-! DEFINITION. The fetch-engine operations of the load slot (§7.1): descriptors and their checks, and the fetch
epoch (R319, R321). -/
namespace Sys2Proof.Machine

/-- A transfer descriptor from its 64 bytes (Table 7.3). -/
def xdescOf (b : List Byte) : XDesc :=
  { addr := BitVec.ofNat 39 (leAt b 0 8), rstride := BitVec.ofNat 32 (leAt b 8 4),
    tstride := BitVec.ofNat 32 (leAt b 12 4), rows := BitVec.ofNat 16 (leAt b 16 2),
    rbytes := BitVec.ofNat 16 (leAt b 18 2), dbase := BitVec.ofNat 25 (leAt b 20 4),
    tsize := BitVec.ofNat 32 (leAt b 24 4), dstride := BitVec.ofNat 24 (leAt b 28 4),
    tiles := BitVec.ofNat 24 (leAt b 32 4), depth := BitVec.ofNat 8 (leAt b 35 1),
    lrows := BitVec.ofNat 16 (leAt b 36 2), lrbytes := BitVec.ofNat 16 (leAt b 38 2),
    ev := BitVec.ofNat 4 (leAt b 40 1), even := (leAt b 40 1).testBit 4,
    cev := BitVec.ofNat 4 (leAt b 41 1), cen := (leAt b 41 1).testBit 4, pair := (leAt b 41 1).testBit 5 }

/-- Every bit that Table 7.3 marks 0 is 0. -/
def xdescZeros (b : List Byte) : Bool :=
  fld (leAt b 0 8) 39 25 == 0 && fld (leAt b 20 4) 25 7 == 0 && fld (leAt b 28 4) 24 8 == 0 &&
    fld (leAt b 40 4) 5 3 == 0 && fld (leAt b 40 4) 14 18 == 0 && (slice b 44 20).all (· == 0)

/-- The exact device address of byte 0 of row `r` of tile `t` (R306). -/
def XDesc.dev (d : XDesc) (t r : Nat) : Int := d.addr.toNat + t * d.tstride.toInt + r * (d.rstride.toNat : Int)

/-- Rows and bytes per row in extent of tile `t` (R306). -/
def XDesc.rowsOf (d : XDesc) (t : Nat) : Nat := if t + 1 < d.tiles.toNat then d.rows.toNat else d.lrows.toNat
def XDesc.bytesOf (d : XDesc) (t : Nat) : Nat :=
  if t + 1 < d.tiles.toNat then d.rbytes.toNat else d.lrbytes.toNat

/-- The core-store address of slot `t mod DEPTH`, row `r` (R306). -/
def XDesc.slot (d : XDesc) (t r : Nat) : Nat :=
  d.dbase.toNat + t % d.depth.toNat * d.tsize.toNat + r * d.dstride.toNat

/-- Whether every device byte in extent lies in `[0, 2^39)`, from the extreme tiles, rows and bytes (R305). -/
def XDesc.inSpace (d : XDesc) : Bool :=
  let n := d.tiles.toNat
  [0, n - 2, n - 1].all fun t =>
    let lo := d.dev t 0
    let hi := d.dev t (d.rowsOf t - 1) + (d.bytesOf t : Int) - 1
    t ≥ n || (decide (0 ≤ lo) && decide (hi < 2 ^ 39))

/-- The checks of R305 on one descriptor; FRING ignores the device fields. -/
def XDesc.ok (d : XDesc) (ring : Bool) : Bool :=
  let dev := ring || (d.addr.toNat % 16 == 0 && d.rstride.toNat % 16 == 0 && d.tstride.toNat % 16 == 0)
  let slots := d.depth.toNat * d.tsize.toNat
  dev && d.rows != 0 && d.rbytes != 0 && d.dbase.toNat % 128 == 0 && d.tsize.toNat % 128 == 0
    && d.dstride.toNat % 16 == 0 && decide (d.rbytes.toNat ≤ d.dstride.toNat) && d.tiles != 0 && d.depth != 0
    && decide (1 ≤ d.lrows.toNat ∧ d.lrows.toNat ≤ d.rows.toNat)
    && decide (1 ≤ d.lrbytes.toNat ∧ d.lrbytes.toNat ≤ d.rbytes.toNat)
    && decide ((d.rows.toNat - 1) * d.dstride.toNat + d.rbytes.toNat ≤ d.tsize.toNat)
    && (decide (d.dbase.toNat + slots ≤ 0x1000000)
      || (decide (0x1000000 ≤ d.dbase.toNat) && decide (d.dbase.toNat + slots ≤ storeSize)))
    && (ring || d.inSpace)

/-- FGET, FPUT and FRING (R303–R305). -/
def xferSlot (e : Env) (kind : XKind) (sd : BitVec 5) (c0 c : CoreSt) : SlotR := do
  need (!e.alone) cMode
  let a := (c0.s sd).toNat
  need (a % 64 = 0 && a + 64 ≤ storeSize) cOperand
  let b := c0.rd a 64
  let d := xdescOf b
  let ring := kind == XKind.ring
  need (xdescZeros b && d.ok ring) cOperand
  let c := { c with rdLog := c.rdLog ++ [(a, 64)] }
  let add (d2 : Option XDesc) (c : CoreSt) : CoreSt :=
    { c with tq := c.tq ++ [{ id := c.nextX, kind, d, d2, bundle := BitVec.ofNat 16 e.bundle }],
             nextX := c.nextX + 1 }
  if d.pair then
    need (a + 128 ≤ storeSize) cOperand
    let b2 := c0.rd (a + 64) 64
    let d2 := xdescOf b2
    need (xdescZeros b2 && d2.ok ring && !d2.pair && d2.tiles == d.tiles) cOperand
    .ok (add (some d2) { c with rdLog := c.rdLog ++ [(a + 64, 64)] })
  else .ok (add none c)

/-- The number of held faults of the current fetch epoch. -/
def CoreSt.epochHeld (c : CoreSt) : Nat := (c.held.filter fun h => h.epoch == c.epoch).length

/-- The next fetch epoch begins: the held faults of the old one are discarded (R319, R324). -/
def CoreSt.nextEpoch (c : CoreSt) : CoreSt :=
  { c with epoch := c.epoch + 1, held := c.held.filter fun h => h.epoch != c.epoch }

/-- One advance of the fetch epoch, or one more to wait for while a request in flight carries the next value; the transfers that
are queued after that wait with it (R319, R321). -/
def CoreSt.advanceEpoch (c : CoreSt) : CoreSt :=
  if c.advance = 0 ∧ !(c.outst.any fun r => r.epoch == c.epoch + 1) then
    { c.nextEpoch with alarms := if c.epochHeld = 0 then c.alarms else c.alarms ++ [.heldDrop c.epochHeld] }
  else { c with advance := c.advance + 1, newX := c.newX ++ [c.nextX] }

/-- FDROP: every FGET of the queue ends (R314). -/
def fdropSlot (e : Env) (c : CoreSt) : SlotR := do
  need (!e.alone) cMode
  .ok { c with tq := c.tq.filter fun x => x.kind != XKind.get }.advanceEpoch

/-- The load slot in one core. -/
def loadSlot (e : Env) (op : BitVec 5) (f : LFields) (c0 c : CoreSt) : SlotR :=
  let rest : Bool := f.pred = 0 && f.cb = 0 && f.mfmt = 0 && f.rfmt = 0 && !f.sat && f.off = 0 && f.step = 0
  match op.toNat with
  | 1 => vldSlot e f c0 c
  | 2 => wordLoad e false f c0 c
  | 3 => wordLoad e true f c0 c
  | 4 => tloadSlot e f c0 c
  | 5 => vstatLoadSlot e false f c0 c
  | 6 => vstatLoadSlot e true f c0 c
  | 0x10 => do need rest cOpcode; xferSlot e .get f.r c0 c
  | 0x11 => do need rest cOpcode; xferSlot e .put f.r c0 c
  | 0x12 => do need rest cOpcode; xferSlot e .ring f.r c0 c
  | 0x13 => do need (rest && f.r = 0) cOpcode; fdropSlot e c
  | _ => .error cOpcode

end Sys2Proof.Machine
end

