-- ==== Sys2Proof/Machine/Messages.lean ====
section
/-! DEFINITION. Messages that leave by the Niuri ports (Tables 10.10, 10.11): fabric messages on their port, tie messages by
R456, and the bodies of the tie's messages (Tables 13.6, 13.8, 13.9, R369).  The manual gives no byte layout for MIRROR and MACK:
the model's is in assumption 30. -/
namespace Sys2Proof.Machine

def kVerdict : Nat := 0x02
def kCompletion : Nat := 0x03
def kDreadRsp : Nat := 0x06
def kJournal : Nat := 0x10
def kJack : Nat := 0x11
def kMirror : Nat := 0x12
def kMack : Nat := 0x13
def kHeartbeat : Nat := 0x14
def kPair : Nat := 0x15
def kFence : Nat := 0x16

/-- Whether a port is Active (Table 10.2). -/
def State.portUp (s : State) (k : Fin 10) : Bool := (s.port k).state == 5
/-- Whether the tie is up (R456). -/
def State.tieUp (s : State) : Bool := s.portUp 8 || s.portUp 9
/-- The port of a tie message that is neither MIRROR nor HEARTBEAT (R456). -/
def State.tiePort (s : State) : Fin 10 := if s.portUp 8 then 8 else 9
/-- The port of a mirror message: a hash of the granule over the Active tie ports (R456; assumption 30). -/
def State.mirrorPort (s : State) (g : Nat) : Fin 10 := if s.portUp 8 && s.portUp 9 then (if g % 2 = 0 then 8 else 9) else s.tiePort

/-- Whether mirror writes and journal records are sent: Paired mode (R58, R369, R371). -/
def State.pairedMode (s : State) : Bool :=
  s.pair.state == .paired || s.pair.state == .isolated || s.pair.state == .detaching

/-- A journal record goes before the mirror writes that still wait (R371). -/
def insertJournal (m : Msg) : List Msg → List Msg
  | [] => [m]
  | x :: r => if x.kind.toNat = kMirror then m :: x :: r else x :: insertJournal m r

/-- A message joins what a port has to send. -/
def State.enqueue (s : State) (k : Fin 10) (m : Msg) : State :=
  s.modPort k fun p => { p with out := if m.kind.toNat = kJournal then insertJournal m p.out else p.out ++ [m] }

/-- Whether the stream layer gives a tie message back, to go out again later (R455, R542; assumption 30). -/
def Msg.returns (m : Msg) : Bool :=
  m.kind.toNat == kJournal || m.kind.toNat == kMirror || m.kind.toNat == kJack || m.kind.toNat == kMack

/-- Whether a message is an older one of the order that another keeps: journal records of their JSEQ, mirror writes of their granule
(R369, R542). -/
def Msg.before (x m : Msg) : Bool :=
  x.kind == m.kind && ((m.kind.toNat == kJournal && decide (leAt x.body 0 8 < leAt m.body 0 8))
    || (m.kind.toNat == kMirror && x != m && x.body.take 4 == m.body.take 4))

/-- Whether a message has to wait for an older one, which stands unacknowledged in the other tie port or waits itself. -/
def State.waitsFor (s : State) (k : Fin 10) (m : Msg) : Bool :=
  let o : Fin 10 := if k = 8 then 9 else 8
  decide (8 ≤ k.val) && (((s.port o).out ++ (s.port o).msgs.map (·.1)).any (·.before m) || s.pair.back.any (·.before m))

/-- A message handed to a port.  A port that is not Active takes none; while it retrains with its link state held it takes those that are
not sent again by themselves, which leave when it is Active again (R448, R455).  A fenced module sends verdicts and fence tokens only
(Table 13.7, R528; assumption 31). -/
def State.send (s : State) (k : Fin 10) (m : Msg) : State :=
  let n := m.kind.toNat
  let wait (s : State) : State := if m.returns then s.modPair fun x => { x with back := x.back ++ [m] } else s
  if s.pair.state == .fenced && n != kVerdict && n != kFence then s
  else if s.portUp k then (if s.waitsFor k m then wait s else s.enqueue k m)
  else if (s.port k).heldL && !m.returns && n != kHeartbeat && n != kFence then s.enqueue k m
  else wait s

/-- A tie message with its body. -/
def tieMsg (kind : Nat) (body : List Byte) : Msg := { kind := BitVec.ofNat 8 kind, once := false, stream := 0, seq := 0, body }

/-- Whether a message stands in a port, not yet acknowledged. -/
def State.onPort (s : State) (k : Fin 10) (m : Msg) : Bool :=
  (s.port k).out.contains m || (s.port k).msgs.any fun x => x.1 == m
def State.onTie (s : State) (m : Msg) : Bool := s.onPort 8 m || s.onPort 9 m

/-! ### Bodies -/

/-- TYPE of a journal record (Table 13.6). -/
def jtype : JType → Nat
  | .accept => 1 | .commit => 2 | .done => 3 | .void => 4

/-- A journal record in its 256 bytes (Table 13.6). -/
def journalBody (r : JRec) : List Byte :=
  let m := r.modes
  let b (x : Bool) (k : Nat) : Nat := if x then 2 ^ k else 0
  let acc := r.type = .accept
  let head := leBytes 8 r.jseq.toNat ++ leBytes 8 r.time.toNat ++ leBytes 1 (jtype r.type)
    ++ leBytes 1 (if acc then b m.det 0 + b m.keep 1 + b m.checked 2 + b m.kx4 3 else 0)
    ++ leBytes 1 (if acc then m.spill.toNat else 0) ++ leBytes 1 (if acc then r.port.val else 0)
    ++ leBytes 2 r.stream.toNat ++ [r.status, r.attempts] ++ leBytes 4 r.seq.toNat ++ leBytes 4 0
    ++ slice (if acc then r.body else []) 0 176 ++ leBytes 44 0
  head ++ leBytes 4 (crc32c head).toNat

/-- A journal record from its bytes; an unassigned TYPE reads as a record with a wrong CRC. -/
def journalOf (b : List Byte) : JRec :=
  let t := leAt b 16 1
  let ms := leAt b 17 1
  { jseq := BitVec.ofNat 64 (leAt b 0 8), time := BitVec.ofNat 64 (leAt b 8 8),
    type := if t = 1 then .accept else if t = 2 then .commit else if t = 3 then .done else .void,
    modes := { det := ms.testBit 0, keep := ms.testBit 1, checked := ms.testBit 2, kx4 := ms.testBit 3,
               spill := BitVec.ofNat 7 (leAt b 18 1) },
    port := fin 8 (leAt b 19 1), stream := BitVec.ofNat 16 (leAt b 20 2), status := BitVec.ofNat 8 (leAt b 22 1),
    attempts := BitVec.ofNat 8 (leAt b 23 1), seq := BitVec.ofNat 32 (leAt b 24 4), body := slice b 32 176,
    crcOk := decide (1 ≤ t ∧ t ≤ 4) && leAt b 252 4 == (crc32c (slice b 0 252)).toNat }

/-- A MIRROR message: granule, role, proof slot, offset, count, and the bytes (R369; assumption 30). -/
def mirrorMsg (w : MirrorMsg) (count : Nat := 0) : Msg :=
  tieMsg kMirror (leBytes 4 w.granule.toNat ++ leBytes 1 (if w.proof then 1 else 0) ++ [w.slot] ++ leBytes 2 w.offset.toNat
    ++ leBytes 4 count ++ leBytes 4 0 ++ w.bytes)

/-- A mirror write from its message. -/
def mirrorOf (b : List Byte) : MirrorMsg :=
  { granule := BitVec.ofNat 25 (leAt b 0 4), proof := leAt b 4 1 % 2 == 1, slot := BitVec.ofNat 8 (leAt b 5 1),
    offset := BitVec.ofNat 14 (leAt b 6 2), bytes := b.drop 16 }

/-- A HEARTBEAT body (Table 13.8). -/
def heartbeatBody (h : HeartbeatMsg) : List Byte :=
  leBytes 8 h.mid.toNat ++ leBytes 4 h.epoch.toNat ++ [h.state] ++ leBytes 3 0 ++ leBytes 8 h.sentHi.toNat
    ++ leBytes 8 h.storedHi.toNat
def heartbeatOf (b : List Byte) : HeartbeatMsg :=
  { mid := BitVec.ofNat 64 (leAt b 0 8), epoch := BitVec.ofNat 32 (leAt b 8 4), state := BitVec.ofNat 8 (leAt b 12 1),
    sentHi := BitVec.ofNat 64 (leAt b 16 8), storedHi := BitVec.ofNat 64 (leAt b 24 8) }

/-- A PAIR body (Table 13.8). -/
def pairBody (op : Nat) (m : PairMsg) : List Byte :=
  leBytes 1 op ++ leBytes 1 (if m.rejoin then 1 else 0) ++ leBytes 6 0 ++ leBytes 8 m.mid.toNat ++ leBytes 4 m.epoch.toNat
    ++ leBytes 4 m.version.toNat ++ leBytes 8 m.cap.toNat ++ leBytes 32 0
def pairOf (b : List Byte) : PairMsg :=
  { rejoin := leAt b 1 1 % 2 == 1, mid := BitVec.ofNat 64 (leAt b 8 8), epoch := BitVec.ofNat 32 (leAt b 16 4),
    version := BitVec.ofNat 32 (leAt b 20 4), cap := BitVec.ofNat 64 (leAt b 24 8), ranges := [] }

/-- A fence token in its 32 bytes (Table 13.9). -/
def tokenBody (t : FenceToken) : List Byte :=
  leBytes 8 t.target.toNat ++ leBytes 8 t.issuer.toNat ++ leBytes 4 t.epoch.toNat ++ [t.kind] ++ slice t.reserved 0 11
def tokenOf (b : List Byte) : FenceToken :=
  { target := BitVec.ofNat 64 (leAt b 0 8), issuer := BitVec.ofNat 64 (leAt b 8 8), epoch := BitVec.ofNat 32 (leAt b 16 4),
    kind := BitVec.ofNat 8 (leAt b 20 1), reserved := slice b 21 11 }

/-! ### Sending on the tie -/

/-- A tie message that is neither MIRROR nor HEARTBEAT (R456). -/
def State.tieSend (s : State) (kind : Nat) (body : List Byte) : State := s.send s.tiePort (tieMsg kind body)

/-- Mirror writes leave for the twin, and are kept until it acknowledges them (R369, R370). -/
def State.mirrorSend (s : State) (ws : List MirrorMsg) : State :=
  ws.foldl (fun (s : State) w => s.send (s.mirrorPort w.granule.toNat) (mirrorMsg w))
    (s.modPair fun x => { x with mirOut := x.mirOut ++ ws })

/-- What the stream layer has given back, and what had to wait, goes out again: journal records in JSEQ order, mirror writes in theirs,
unless the twin has acknowledged them since, and the answers (R542, R555, R371). -/
def State.tieResend (s : State) : State :=
  let ms := s.pair.back
  let s := s.modPair fun x => { x with back := [] }
  let js := (s.engine.sentJ.map fun r => tieMsg kJournal (journalBody r)).filter ms.contains
  let ws := (s.pair.mirOut.filter fun w => ms.contains (mirrorMsg w)).map fun w => (s.mirrorPort w.granule.toNat, mirrorMsg w)
  let rest := ms.filter fun m => m.kind.toNat != kJournal && (m.kind.toNat != kMirror || decide (m.body.length ≤ 16))
  (js.map (s.tiePort, ·) ++ ws ++ rest.map (s.tiePort, ·)).foldl (fun (s : State) x => s.send x.1 x.2) s

end Sys2Proof.Machine
end

