-- ==== Sys2Proof/Machine/Routes.lean ====
section
/-! DEFINITION. Endpoints of the plate network, the units that stand at them and whether those are in service, and where a route
leads (§9.1, §9.2). -/
namespace Sys2Proof.Machine

/-! ### Roles and service (R29, R299) -/

/-- ROLE of a core: 0 active, 1 spare, 2 stand-alone, 3 out of service. -/
def State.role (s : State) (i : CoreId) : Nat := s.rf (hatchAt i.hatch 0x50) (5 * i.pos + 3) 2
/-- LIDX of a core. -/
def State.lidx (s : State) (i : CoreId) : Nat := s.rf (hatchAt i.hatch 0x50) (5 * i.pos) 3
/-- The active cores of a hatch in order of logical index (R26, R30). -/
def State.activeCores (s : State) (h : HatchId) : List CoreId :=
  (List.range 8).filterMap fun l => (hatchCores h).find? fun i => s.role i == 0 && s.lidx i == l
/-- Whether a plate is in service: powered, its clock running, a controller working, a stack not failed (Table 13.15, R615,
R623). -/
def State.plateUp (s : State) (p : Fin 8) : Bool :=
  !s.mod.inReset && !(s.plate p).stopped && (s.plate p).ctlDown != 3
    && (List.finRange 4).any fun q => (s.stack ⟨p, q⟩).state != 3

/-- The plate of the control complex's endpoint: 1, else the first of 2, 5 and 6 in service (R661). -/
def State.complexPlate (s : State) : Fin 8 := (([1, 2, 5, 6] : List (Fin 8)).find? s.plateUp).getD 1

/-! ### Endpoints and routes (Tables 9.1, 9.2, R405) -/

/-- The endpoint addresses of a core, a hatch sequencer and a stack port. -/
def coreEp (i : CoreId) : Nat :=
  i.p.val * 128 + i.c.val / 9 * 32 + if i.c.val % 9 = 8 then 16 else i.c.val % 9
def hatchEpAddr (i : HatchId) : Nat := i.p.val * 128 + i.h.val * 32 + 17
def stackEp (i : StackId) (port : Nat) : Nat := i.p.val * 128 + i.s.val * 32 + 8 + port % 8
/-- The control agent of a plate and the barrier unit of the commission engine (R413). -/
def agentEp (p : Fin 8) : Nat := p.val * 128 + 21
def moduleBarEp : Nat := 216
/-- The translation unit of a plate, where its map walker stands, a port block, and the blocks of a plate at hub 3. -/
def xltEp (p : Fin 8) : Nat := p.val * 128 + 85
def fabEp (p : Fin 8) : Nat := p.val * 128 + 24
def engineEp (p : Fin 8) : Nat := p.val * 128 + 88
def complexEp (p : Fin 8) : Nat := p.val * 128 + 120
/-- The handle-queue block of a plate. -/
def hqBlockEp (p : Fin 8) : Nat := p.val * 128 + 53
/-- The endpoint of a margin region's network port. -/
def regionEpAddr (i : RegionId) : Nat := i.p.val * 128 + i.r.val / 2 * 32 + 18 + i.r.val % 2

/-- The router of an endpoint address. -/
def routerOf (a : Nat) : RouterId := ⟨fin 8 (fld a 7 3), fin 4 (fld a 5 2)⟩

/-- A flag of a router with its fault record. -/
def State.netFault (s : State) (i : RouterId) (b : Nat) (suspect : BitVec 16 := 0) : State :=
  (s.flag (routerAt i 8) b).reportFlag suspect (if suspect = 0 then unitId 7 i.p.val 0 else suspect) 0x05 b

/-- What stands at an endpoint address. -/
inductive Ep where
  | core (i : CoreId)
  | stack (i : StackId) (port : Nat)
  | hatch (i : HatchId)
  | region (i : RegionId)
  | service (p : Fin 8) (n : Nat)
  | block
  | absent
  deriving DecidableEq, Repr

/-- Whether a module-level block stands at a hub-3 endpoint (Table 9.2). -/
def blockAt (p q e : Nat) : Bool :=
  (q == 0 && e < 2) || (q == 1 && e < 2 && (p == 0 || p == 4 || p == 5)) || (q == 1 && e == 0 && p == 2)
    || (q == 2 && e < 2 && (p == 1 || p == 6)) || (q == 3 && e < 4 && (p == 1 || p == 2 || p == 5 || p == 6))

/-- The endpoint of an address. -/
def epOf (a : Nat) : Ep :=
  let p : Fin 8 := fin 8 (fld a 7 3)
  let q := fld a 5 2
  let e := fld a 0 3
  match fld a 3 2 with
  | 0 => .core ⟨p, fin 36 (9 * q + e)⟩
  | 1 => .stack ⟨p, fin 4 q⟩ e
  | 2 =>
    if e = 0 then .core ⟨p, fin 36 (9 * q + 8)⟩
    else if e = 1 then .hatch ⟨p, fin 4 q⟩
    else if e < 4 then .region ⟨p, fin 8 (2 * q + (e - 2))⟩
    else if e < 6 then .service p (2 * q + (e - 4))
    else .absent
  | _ => if blockAt p.val q e then .block else .absent

/-- The unit ID that owns an endpoint. -/
def epUnit : Ep → BitVec 16
  | .core i => coreUnit i
  | .stack i _ => stackUnit i
  | .hatch i => hatchUnit i
  | .region i => regionUnit i
  | .service p n => if n % 2 = 0 then pstoreUnit p else if n = 7 then scrubUnit p else unitId 7 p.val 0
  | .block => 0
  | .absent => 0

/-- Whether two failed controllers fence a plate (Table 13.15). -/
def State.plateFenced (s : State) (p : Fin 8) : Bool := (s.plate p).ctlDown == 3

/-- Whether an endpoint is fenced (R417): its unit has been fenced, it is a core out of service (R299) or a hatch
with no active core (R29), or it belongs to a fenced plate.
The stacks of a fenced plate go on serving memory, which is the module's (assumption 122). -/
def State.epFenced (s : State) (x : Ep) : Bool :=
  s.gfc.fencedUnits.contains (epUnit x) || match x with
    | .core i => s.role i == 3 || s.plateFenced i.p
    | .hatch i => (s.activeCores i).isEmpty || s.plateFenced i.p
    | .region i => s.plateFenced i.p
    | .service p _ => s.plateFenced p
    | _ => false

/-! ### Routes (R401–R405, R411, R417) -/

/-- The router next to a mesh port, if the port has links (R396). -/
def meshNext (i : RouterId) (m : Nat) : Option RouterId :=
  let x := gridX i
  let y := gridY i
  let at_ (x y : Nat) : RouterId := ⟨fin 8 (x / 2 + 4 * (y / 2)), fin 4 (x % 2 + 2 * (y % 2))⟩
  if m = 0 then (if 0 < y then some (at_ x (y - 1)) else none)
  else if m = 1 then (if x < 7 then some (at_ (x + 1) y) else none)
  else if m = 2 then (if y < 3 then some (at_ x (y + 1)) else none)
  else (if 0 < x then some (at_ (x - 1) y) else none)

/-- The code of a mesh port. -/
def meshCode : Mesh → Nat
  | .n => 0 | .e => 1 | .s => 2 | .w => 3
def meshOf (m : Nat) : Mesh := if m = 0 then .n else if m = 1 then .e else if m = 2 then .s else .w

/-- The endpoint to which a hub code and the group behind it lead. -/
def hubEnd (i : RouterId) (route : BitVec 48) : Nat :=
  i.p.val * 128 + i.q.val * 32 + (route.toNat % 8 - 4) * 8 + route.toNat / 8 % 8

/-- Where a route leads from a router: the endpoint, or the router and mesh port at which a packet is lost (R411). -/
def State.follow (s : State) : Nat → RouterId → BitVec 48 → Except (RouterId × Nat) Nat
  | 0, i, r => .error (i, r.toNat % 8)
  | n + 1, i, r =>
    let g := r.toNat % 8
    if g < 4 then match meshNext i g with
      | some j => if sget 0 (s.router i).up g = 0 then .error (i, g) else s.follow n j (r >>> 3)
      | none => .error (i, g)
    else .ok (hubEnd i r)

/-- The entry of a source's route table for a destination, and the route that its interface makes of it (R401). -/
def State.routeEntry (s : State) (src dst : Nat) : Word := s.reg (routerAt (routerOf src) (0x800 + 8 * (dst / 4 % 256)))
def routeBits (e : Word) (dst : Nat) : BitVec 48 :=
  let n := 3 * bitsOf e 48 4
  BitVec.ofNat 48 (bitsOf e 0 48 % 2 ^ n + (dst % 8) <<< n)

/-- What becomes of a packet that is sent at once: an endpoint takes it, its sender knows at once that nothing does, or it is lost. -/
inductive Carried where
  | taken (a : Nat)
  | refused
  | lost
  deriving DecidableEq, Repr

/-- A packet that a source sends at once to a destination.  With V = 0 nothing is sent (R405), a group with no link up drops it (R411), an
absent endpoint is a misroute (R400), and a fenced one has the hub answer (R417). -/
def State.carry (s : State) (src dst : Nat) : Carried × State :=
  let e := s.routeEntry src dst
  if !bitOf e 52 then (.refused, s.netFault (routerOf src) 1)
  else match s.follow 16 (routerOf src) (routeBits e dst) with
  | .error (i, g) => (.lost, s.netFault i 5 (linkGroup i (meshOf g)))
  | .ok a =>
    if epOf a = .absent then (.lost, s.netFault (routerOf a) 0)
    else if s.epFenced (epOf a) then (.refused, s.flag (routerAt (routerOf a) 8) 6)
    else (.taken a, s)

/-- Whether a request and its answer pass between two endpoints, and what they leave behind. -/
def State.reaches (s : State) (src dst : Nat) : Bool × State :=
  let (a, s) := s.carry src dst
  if a = .taken dst then
    let (b, s) := s.carry dst src
    (b == .taken src, s)
  else (false, s)

/-- The endpoint of the control complex (R661). -/
def State.complexEnd (s : State) : Nat := complexEp s.complexPlate

end Sys2Proof.Machine
end

