-- ==== Sys2Proof/Machine/Memory.lean ====
section
/-! DEFINITION. Memory behind the cores (chapter 8): the stacked DRAM with its data code, the translation map and its
caches, plate store, and memory fault records. -/
namespace Sys2Proof.Machine

/-! ### Faults (Tables 8.7, 8.8) -/

def cNomap : Nat := 1
def cLost : Nat := 2
def cWprot : Nat := 3
def cPendconf : Nat := 4
def cMapform : Nat := 5
def cMapue : Nat := 6
def cDataUe : Nat := 7
def cPoison : Nat := 8
def cStackdown : Nat := 9
def cCstoreUe : Nat := 10
def cPstoreUe : Nat := 11

/-- A memory fault: its cause, the device line, the unit in error with its symbol, and the unit held responsible
(Table 13.14). -/
structure MFault where
  cause   : Nat
  daddr   : Option Nat := none
  phys    : Option (StackId × Nat × Nat) := none
  suspect : BitVec 16 := 0
  deriving DecidableEq, Repr

/-- A memory fault record (Tables 8.7, 13.11). -/
def memRec (s : State) (f : MFault) (source unit : Nat) (plate : Nat) (reporter : BitVec 16) (write held : Bool)
    (tag : BitVec 32) (bundle : Nat) : FRec :=
  let b (x : Bool) (k : Nat) : Nat := if x then 2 ^ k else 0
  { time := s.mod.time, suspect := f.suspect, reporter, cls := 2,
    body := [BitVec.ofNat 64 (f.cause + source * 256 + unit % 64 * 2 ^ 12 + plate * 2 ^ 18 + b write 21 + b held 22
               + tag.toNat * 2 ^ 32),
             BitVec.ofNat 64 ((match f.daddr with | some a => a / 128 * 128 % 2 ^ 39 + 2 ^ 39 | none => 0)
               + bundle % 2 ^ 16 * 2 ^ 40),
             match f.phys with
             | some (i, a, sym) => BitVec.ofNat 64 (a % 2 ^ 34 + i.s.val * 2 ^ 34 + i.p.val * 2 ^ 36 + 2 ^ 39
                 + sym % 128 * 2 ^ 40)
             | none => 0] }

/-! ### Addresses -/

/-- The stack of a frame number (Table 8.4). -/
def frameStack (f : Nat) : StackId := ⟨fin 8 (fld f 22 3), fin 4 (fld f 20 2)⟩
/-- The stack-local address of byte `o` of a frame (R352). -/
def frameAddr (f o : Nat) : Nat := fld f 0 20 * 16384 + o
/-- Whether a frame exists (Table 8.4). -/
def frameOk (f : Nat) : Bool := decide (fld f 0 20 ≤ 0xBFFFF)

/-- A location inside a stack. -/
structure Loc where
  row : Nat
  bank : Nat
  ch  : Nat
  sid : Nat
  col : Nat
  unit : Nat
  deriving DecidableEq, Repr

/-- The location of a stack-local address in an address order (Table 8.10). -/
def locOf (order a : Nat) : Loc :=
  let x := fld a 18 4
  { row := fld a 18 14, sid := fld a 32 2, unit := fld a 6 1,
    ch := if order = 1 then fld a 10 4 else if order = 3 then fld a 7 4 ^^^ x else fld a 7 4,
    col := if order = 1 then fld a 7 3 else fld a 11 3,
    bank := if order = 2 then fld a 14 4 ^^^ x else if order = 3 then fld a 14 4 ^^^ fld a 22 4 else fld a 14 4 }

/-- The stack's address order (STACK_CFG.ORDER). -/
def State.order (s : State) (i : StackId) : Nat := s.rf (stackAt i 0) 16 2

/-- STACK_ELOG of an error at `a` (Table 8.30). -/
def elogOf (l : Loc) (sym : Nat) (ue : Bool) : Word :=
  BitVec.ofNat 64 (l.row * 2 ^ 50 + l.bank * 2 ^ 46 + l.ch * 2 ^ 42 + l.sid * 2 ^ 40 + l.col * 2 ^ 37 + l.unit * 2 ^ 36
    + sym % 128 * 4 + (if ue then 2 else 0) + 1)

/-- STACK_RETIRE_GO: a write of STACK_RETIRE; GO starts the copy of a row to a spare row (R386, Table 8.31). -/
def retireGo (s : State) (i : StackId) (v : Word) : State :=
  let a := stackAt i 0x48
  let old := s.reg a
  let go := bitOf v 0
  if go && (bitOf old 1 || bitsOf v 40 2 == 3) then s.discard
  else
    let s := s.setReg a ((v &&& 0xFFFFFF0000000000) ||| (old &&& 6))
    if go then (s.setRf a 1 1 1).modStack i (fun x => { x with retire := some (v &&& 0xFFFFFF0000000000) }) else s

/-- The row of a location, as STACK_RETIRE names it (Table 8.31). -/
def rowWord (l : Loc) : Word := BitVec.ofNat 64 (l.row * 2 ^ 50 + l.bank * 2 ^ 46 + l.ch * 2 ^ 42 + l.sid * 2 ^ 40)

/-- The steward retires the next row that is due, unless a retirement or a reset of the controller runs (R387). -/
def State.retireNext (s : State) (i : StackId) : State :=
  let x := s.stack i
  match x.due with
  | [] => s
  | w :: r => if x.retire.isSome || x.resetting || x.state == 3 then s else retireGo (s.setStack i { x with due := r }) i (w ||| 1)

/-- The steward's account of a row's error: a row is to be retired after so many corrected errors within so many hours, and after an
uncorrectable one (R387, policies 2 to 4). -/
def State.rowError (s : State) (i : StackId) (w : Word) (ue : Bool) : State :=
  let x := s.stack i
  let span := s.policy 3 * 3600000000000
  let ces := (x.ces ++ if ue then [] else [(w, s.mod.time)]).filter fun e => decide ((s.mod.time - e.2).toNat < span)
  let bad := if ue then s.policy 4 == 1 else decide (s.policy 2 ≤ (ces.filter fun e => e.1 == w).length)
  if bad && !(x.due.contains w || x.retire == some w || x.failed.contains w) then
    (s.setStack i { x with ces := ces.filter fun e => e.1 != w, due := x.due ++ [w] }).retireNext i
  else s.setStack i { x with ces }

/-- Record an error of a stack: flag 0 CE or 1 UE, and the log, in which a corrected error never replaces an
uncorrectable one while STACK_ERR.UE stands (R381, R382, Table 8.30); the steward counts it (R387). -/
def State.stackErr (s : State) (i : StackId) (a sym : Nat) (ue : Bool) : State :=
  let old := s.reg (stackAt i 0x40)
  let keep := !ue && bitOf old 1 && bitOf (s.reg (stackAt i 0x18)) 1
  let l := locOf (s.order i) a
  let s := s.flag (stackAt i 0x18) (if ue then 1 else 0)
  let s := s.tel (if ue then 0x0502 else 0x0501) i.key
  let s := if keep then s else s.setReg (stackAt i 0x40) (elogOf l sym ue)
  s.rowError i (rowWord l) ue

/-! ### Rows (R375) -/

/-- The key of a bank in `StackSt.rows`. -/
def bankKey (l : Loc) : Nat := (l.ch * 3 + l.sid) * 16 + l.bank

/-- An access to a bank leaves its row open, or closes it at once when STACK_CFG.IDLE is 0 (R375). -/
def State.openRow (s : State) (i : StackId) (a : Nat) : State :=
  let l := locOf (s.order i) a
  let idle := s.rf (stackAt i 0) 0 10
  s.modStack i fun x => { x with rows := if idle = 0 then sdel x.rows (bankKey l) else sput x.rows (bankKey l) (l.row + 1) }

/-! ### Units of DRAM (R379–R384) -/

/-- The mark of a 64-byte unit. -/
def StackSt.mark (x : StackSt) (u : Nat) : Option Mark := (x.marks.find? fun m => m.1 == u).map (·.2)

/-- Read the bytes `[a, a+n)` of one unit: the bytes, a cause, and the state with the correction written back. -/
def unitRead (s : State) (i : StackId) (a n : Nat) : List Byte × Option (Nat × Nat) × State :=
  let x := s.stack i
  if x.state = 3 then (List.replicate n 0, some (cStackdown, 0), s)
  else match x.mark (a / 64) with
    | some .uncorrectable => (List.replicate n 0, some (cDataUe, 0x7F), s.stackErr i a 0x7F true)
    | some .poisoned => (List.replicate n 0, some (cPoison, 0x7F), s)
    | some (.corrected sym) =>
      (readMem x.mem a n, none,
        (s.setStack i { x with marks := sdel x.marks (a / 64) }).stackErr i a sym.toNat false)
    | none => (readMem x.mem a n, none, s)

/-- Write bytes under their enables inside one unit (R383). -/
def unitWrite (s : State) (i : StackId) (u : Nat) (ws : List (Nat × Byte)) : State :=
  s.modStack i fun x =>
    let full := (List.range 64).all fun j => ws.any fun w => w.1 == 64 * u + j
    let marks := match x.mark u with
      | none => x.marks
      | some .uncorrectable => if full then sdel x.marks u else sput x.marks u .poisoned
      | some .poisoned => if full then sdel x.marks u else x.marks
      | some (.corrected _) => sdel x.marks u
    { x with mem := ws.foldl (fun m w => sset 0 m w.1 w.2) x.mem, marks }

/-- The unit-sized pieces of `[a, a+n)`. -/
def pieces (sz a n : Nat) : List (Nat × Nat) :=
  if n = 0 then []
  else (List.range ((a + n - 1) / sz - a / sz + 1)).map fun k =>
    let lo := max a ((a / sz + k) * sz)
    (lo, min (a + n) ((a / sz + k + 1) * sz) - lo)

/-- A fault of an access that its route or its stack does not serve (R390, R405). -/
def unreachable (i : StackId) (a : Nat) : MFault :=
  { cause := cStackdown, suspect := stackUnit i, phys := some (i, a / 64 * 64, 0) }

/-- Read a range of a stack; the first fault is reported, faulty units read as zeros. -/
def physRead (s : State) (i : StackId) (a n : Nat) : List Byte × Option MFault × State :=
  (pieces 64 a n).foldl (fun r p =>
    let (bs, e, s) := unitRead (r.2.2.openRow i p.1) i p.1 p.2
    let f := e.map fun c => ({ cause := c.1, phys := some (i, p.1 / 64 * 64, c.2), suspect := stackUnit i } : MFault)
    (r.1 ++ bs, r.2.1.orElse fun _ => f, s)) ([], none, s)

/-- Write a range of a stack. -/
def physWrite (s : State) (i : StackId) (ws : List (Nat × Byte)) : Option MFault × State :=
  if (s.stack i).state = 3 then
    (if ws.isEmpty then none else some (unreachable i (nth (0, 0) ws 0).1), s)
  else
    let us := (ws.map fun w => w.1 / 64).eraseDups
    (none, us.foldl (fun s u => unitWrite (s.openRow i (64 * u)) i u (ws.filter fun w => w.1 / 64 == u)) s)

/-- Whether an access to a byte of a stack has to wait: the controller is under a per-function reset or not yet trained again (R389),
a row of the bank is being copied (R386), or an earlier request to the 64-byte unit is queued (R379). -/
def State.mustWait (s : State) (i : StackId) (a : Nat) : Bool :=
  let x := s.stack i
  x.state != 3 && (x.resetting || (x.state == 0 && x.fails != 0)
    || (match x.retire with
      | some w => let l := locOf (s.order i) a
        l.bank == bitsOf w 46 4 && l.ch == bitsOf w 42 4 && l.sid == bitsOf w 40 2
      | none => false)
    || x.queue.any fun d => d.line.toNat / 128 == a / 128 && fld d.en.toNat (a / 64 % 2 * 64) 64 != 0)

/-- An access of an agent to a range of a stack, which a command makes at once: the command has not happened yet if it must wait. -/
def State.await (s : State) (i : StackId) (a n : Nat) : State :=
  if (pieces 64 a n).any fun p => s.mustWait i p.1 then s.modMod fun m => { m with stall := true } else s

/-- A unit becomes poisoned (R361, R384). -/
def State.poisonUnit (s : State) (i : StackId) (u : Nat) : State :=
  ((s.await i (64 * u) 64).openRow i (64 * u)).modStack i fun x => { x with marks := sput x.marks u .poisoned }

/-- The stack port that serves a stack-local address (Table 9.1). -/
def State.portOf (s : State) (i : StackId) (a : Nat) : Nat := stackEp i ((locOf (s.order i) a).ch / 2)

/-- The stack port that takes a packet. -/
def Carried.stack : Carried → Option (StackId × Nat)
  | .taken a => match epOf a with
    | .stack i q => some (i, q)
    | _ => none
  | .refused | .lost => none

/-- A read that a source endpoint sends over the network to the port that its route leads to; the answer comes back by that port's own
table.  With no route, or with either packet lost, it ends with UNREACH (R401, R402, R405, R412). -/
def netRead (s : State) (src : Nat) (i : StackId) (a n : Nat) : List Byte × Option MFault × State :=
  let lost (s : State) : List Byte × Option MFault × State := (List.replicate n 0, some (unreachable i a), s)
  let (d, s) := s.carry src (s.portOf i a)
  match d.stack with
  | some (j, q) =>
    let (bs, f, s) := physRead (s.await j a n) j a n
    let (b, s) := s.carry (stackEp j q) src
    if b = .taken src then (bs, f, s) else lost s
  | none => lost s

/-- A write of bytes of one line that a source endpoint sends over the network: its fault, and whether it was performed. -/
def netWrite (s : State) (src : Nat) (i : StackId) (ws : List (Nat × Byte)) : Option MFault × Bool × State :=
  match ws with
  | [] => (none, false, s)
  | w :: _ =>
    let (d, s) := s.carry src (s.portOf i w.1)
    match d.stack with
    | some (j, q) =>
      let (f, s) := physWrite (s.await j (w.1 / 128 * 128) 128) j ws
      let (b, s) := s.carry (stackEp j q) src
      (if b = .taken src then f else some (unreachable i w.1), f.isNone && j == i, s)
    | none => (some (unreachable i w.1), false, s)

/-! ### The map (§8.2) -/

/-- The stack and address of a map entry in the primary or secondary copy. -/
def mapPlace (s : State) (g : Nat) (second : Bool) : StackId × Nat :=
  let p : Fin 8 := fin 8 (g / 16)
  let r := s.reg (plateAt p 0x2000)
  let st := bitsOf r (if second then 52 else 20) 2
  let fr := bitsOf r (if second then 32 else 0) 20
  (⟨p, fin 4 st⟩, fr * 16384 + g / 16 / 8 * 128 + g % 16 * 8)

/-- An entry as a walker at an endpoint, or the control complex, reads it: the primary copy, else the secondary (R354). -/
def mapRead (s : State) (g : Nat) (src : Nat := s.complexEnd) : Option Word × State :=
  let one (s : State) (second : Bool) : Option Word × State :=
    let (i, a) := mapPlace s g second
    let (bs, f, s) := netRead s src i a 8
    (if f.isSome then none else some (BitVec.ofNat 64 (leNat bs)), s)
  match one s false with
  | (some w, s) => (some w, s)
  | (none, s) => one s true

/-- The control complex writes both copies of an entry (R355). -/
def mapWrite (s : State) (g : Nat) (w : Word) : State :=
  let one (s : State) (second : Bool) : State :=
    let (i, a) := mapPlace s g second
    (netWrite s s.complexEnd i ((List.range 8).map fun j => (a + j, nth 0 (leBytes 8 w.toNat) j))).2.2
  one (one s false) true

def meV (w : Word) : Bool := bitOf w 0
def meW (w : Word) : Bool := bitOf w 1
def meDur (w : Word) : Bool := bitOf w 2
def mePend (w : Word) : Bool := bitOf w 3
def meSlot (w : Word) : Nat := bitsOf w 4 8
def meFA (w : Word) : Nat := bitsOf w 12 25
def meFB (w : Word) : Nat := bitsOf w 37 25
def meLost (w : Word) : Bool := bitOf w 62

/-- A map entry from its fields (Table 8.3). -/
def mkEntry (wr dur pend : Bool) (slot fa fb : Nat) : Word :=
  BitVec.ofNat 64 (1 + (if wr then 2 else 0) + (if dur then 4 else 0) + (if pend then 8 else 0) + slot % 256 * 16
    + fa % 2 ^ 25 * 2 ^ 12 + fb % 2 ^ 25 * 2 ^ 37)

/-- What a walk finds in an entry (R353): a cause, or nothing wrong. -/
def entryFault (w : Word) : Option Nat :=
  if !meV w then some (if meLost w then cLost else cNomap)
  else if !frameOk (meFA w) || (mePend w && !frameOk (meFB w))
      || (!mePend w && (meSlot w != 0 || meFB w != 0)) || bitOf w 63 then some cMapform
  else none

/-! ### Translation (§8.3, §8.4) -/

/-- Count a translation fault of plate `p` (XLT_CNT, XLT_ERR). -/
def State.xltFault (s : State) (p : Fin 8) (cause : Nat) (walk : Bool) : State :=
  let s := s.satRf (plateAt p 0x2028) 0 32 1
  if cause = cMapue then s.flag (plateAt p 0x2030) 0
  else if cause = cMapform && walk then s.flag (plateAt p 0x2030) 1 else s

/-- A walk by plate `p`: the entry, or a cause with the unit held responsible. -/
def walkEntry (s : State) (p : Fin 8) (g : Nat) : Except (Nat × BitVec 16) Word × State :=
  let s := s.satRf (plateAt p 0x2028) 32 32 1
  match mapRead s g (xltEp p) with
  | (none, s) => (.error (cMapue, stackUnit (mapPlace s g false).1), s.xltFault p cMapue true)
  | (some w, s) => match entryFault w with
    | some c => (.error (c, 0), s.xltFault p c true)
    | none => (.ok w, s)

/-- The state of a proof slot as plate `p` sees it (Table 8.6): 0 FREE, 1 OPEN, 2 COMMITTED, 3 DISCARDED; a plate that has not
yet taken a change still sees it OPEN (R365). -/
def State.slotState (s : State) (p : Fin 8) (k : Nat) : Nat :=
  let x := sget {} s.engine.slots k
  if 2 ≤ x.state.toNat ∧ !x.acks.toNat.testBit p.val then 1 else x.state.toNat

/-- Table 8.6, then W (R364): the frame, or a cause. -/
def resolve (s : State) (p : Fin 8) (w : Word) (owner : Option Nat) (write : Bool) : Except Nat Nat :=
  let own := owner = some (meSlot w)
  let fr : Except Nat Nat :=
    if !mePend w then .ok (meFA w)
    else match s.slotState p (meSlot w) with
      | 1 => if own then .ok (meFB w) else if write then .error cPendconf else .ok (meFA w)
      | 2 => .ok (meFB w)
      | 3 => .ok (meFA w)
      | _ => .error cMapform
  match fr with
  | .error c => .error c
  | .ok f => if write && !meW w then .error cWprot else .ok f

/-- Translate device address `a` at plate `p` for requester core `c` if any: the entry and the frame, or a cause; the
caches keep entries with V = 1 (R356, R357). -/
def translate (s : State) (p : Fin 8) (c : Option (Fin 36)) (owner : Option Nat) (write : Bool) (a : Nat) :
    Except (Nat × BitVec 16) (Word × Nat) × State :=
  let g := a / 16384
  let l1 := match c with | some c => sget 0 (s.core ⟨p, c⟩).l1 g | none => 0
  let l2 := sget 0 (s.plate p).l2 g
  let (e, s) : Except (Nat × BitVec 16) Word × State :=
    if l1 ≠ 0 then (.ok l1, s) else if l2 ≠ 0 then (.ok l2, s) else walkEntry s p g
  match e with
  | .error x => (.error x, s)
  | .ok w =>
    let s := s.modPlate p fun x => { x with l2 := sput x.l2 g w }
    let s := match c with
      | some c => s.modCore ⟨p, c⟩ fun x => { x with l1 := sput x.l1 g w }
      | none => s
    match resolve s p w owner write with
    | .error x => (.error (x, 0), s.xltFault p x false)
    | .ok f => (.ok (w, f), s)

/-- The owner slot of requester `e` of register XLT_OWNERn (Table 8.19). -/
def State.ownerSlot (s : State) (p : Fin 8) (n e : Nat) : Option Nat :=
  let a := plateAt p (0x2010 + 8 * n)
  if s.rf a (16 * e + 8) 1 = 1 then some (s.rf a (16 * e) 8) else none
/-- The owner slot of a hatch. -/
def State.hatchOwner (s : State) (i : HatchId) : Option Nat := s.ownerSlot i.p 0 i.h.val
/-- The owner slot of a region. -/
def State.regionOwner (s : State) (i : RegionId) : Option Nat := s.ownerSlot i.p (1 + i.r.val / 4) (i.r.val % 4)

/-- Runs of bytes at rising places. -/
def runsOf : List (Nat × Byte) → List (Nat × List Byte)
  | [] => []
  | x :: r => match runsOf r with
    | (a, bs) :: t => if a = x.1 + 1 then (x.1, x.2 :: bs) :: t else (x.1, [x.2]) :: (a, bs) :: t
    | [] => [(x.1, [x.2])]

/-- The mirror writes of a performed local write to frame `f` of a durable granule (R369): the places are offsets in the
granule. -/
def State.mirrorWrite (s : State) (g : Nat) (w : Word) (f : Nat) (ws : List (Nat × Byte)) : State :=
  if s.pairedMode && meDur w then
    let proof := mePend w && f == meFB w
    s.mirrorSend ((runsOf ws).map fun r =>
      { granule := BitVec.ofNat 25 g, proof, slot := if proof then BitVec.ofNat 8 (meSlot w) else 0,
        offset := BitVec.ofNat 14 r.1, bytes := r.2 })
  else s

/-- Read `[a, a+n)` of device memory, line by line, for the requester at an endpoint; the first fault is reported, what faults reads as
zeros. -/
def devRead (s : State) (p : Fin 8) (c : Option (Fin 36)) (owner : Option Nat) (a n src : Nat) :
    List Byte × Option MFault × State :=
  (pieces 128 a n).foldl (fun r q =>
    let (t, s) := translate r.2.2 p c owner false q.1
    let (bs, f, s) : List Byte × Option MFault × State := match t with
      | .error x => (List.replicate q.2 0, some { cause := x.1, suspect := x.2 }, s)
      | .ok (_, fr) => netRead s src (frameStack fr) (frameAddr fr (q.1 % 16384)) q.2
    (r.1 ++ bs, r.2.1.orElse fun _ => f.map fun f => { f with daddr := some q.1 }, s)) ([], none, s)

/-- Write enabled bytes of one device line for the requester at an endpoint; a performed write of a durable granule goes to the twin
(R369). -/
def devWriteLine (s : State) (p : Fin 8) (c : Option (Fin 36)) (owner : Option Nat) (line : Nat)
    (ws : List (Nat × Byte)) (src : Nat) : Option MFault × State :=
  let (t, s) := translate s p c owner true (line * 128)
  match t with
  | .error x => (some { cause := x.1, suspect := x.2, daddr := some (line * 128) }, s)
  | .ok (w, fr) =>
    let base := line * 128 % 16384
    let (f, ok, s) := netWrite s src (frameStack fr) (ws.map fun x => (frameAddr fr (base + x.1), x.2))
    let s := if ok then s.mirrorWrite (line * 128 / 16384) w fr (ws.map fun x => (base + x.1, x.2)) else s
    (f.map fun f => { f with daddr := some (line * 128) }, s)

/-- Write `bytes` from device address `a`, line by line, up to the first line that faults (R583). -/
def devWrite (s : State) (p : Fin 8) (c : Option (Fin 36)) (owner : Option Nat) (a : Nat) (bytes : List Byte) (src : Nat) :
    Option MFault × State :=
  (pieces 128 a bytes.length).foldl (fun r q => match r.1 with
    | some _ => r
    | none =>
      devWriteLine r.2 p c owner (q.1 / 128) ((List.range q.2).map fun j => (q.1 % 128 + j, nth 0 bytes (q.1 + j - a))) src)
    (none, s)

/-! ### Plate store (R350, R351, R668) -/

/-- The marks of the plate-store words that meet `[a, a+n)`. -/
def psMarksIn (s : State) (p : Fin 8) (a n : Nat) : SMap Mark :=
  (s.plate p).psMarks.filter fun m => decide (a / 8 ≤ m.1 ∧ m.1 ≤ (a + n - 1) / 8) && decide (n ≠ 0)

/-- The codes of the words of `[a, a+n)` are checked as they are read: corrected words are written back, PSTORE_ERR is set; the answer
says whether an uncorrectable word was met (R351). -/
def psCheck (s : State) (p : Fin 8) (a n : Nat) : Bool × State :=
  let ms := psMarksIn s p a n
  (ms.any fun m => m.2.dead, ms.foldl (fun s m =>
    if m.2.dead then s.flag (plateAt p 0x2048) 1
    else (s.modPlate p fun x => { x with psMarks := sdel x.psMarks m.1 }).flag (plateAt p 0x2048) 0) s)

/-- Read plate store; an uncorrectable word reads as zeros. The answer says whether one was met. -/
def psRead (s : State) (p : Fin 8) (a n : Nat) : List Byte × Bool × State :=
  let x := s.plate p
  let ms := (psMarksIn s p a n).filter fun m => m.2.dead
  let (bad, s) := psCheck s p a n
  ((List.range n).map fun j => if ms.any fun m => m.1 == (a + j) / 8 then 0 else x.byte (a + j), bad, s)

/-- Write bytes of plate store at the places given, each whole or, where its flag is false, in part; words with all eight whole are
good again (R668). -/
def psWriteMany (s : State) (p : Fin 8) (bs : List (Nat × Byte × Bool)) : State :=
  s.modPlate p fun x =>
    let put (w k : Nat) : Bool := bs.any fun b => b.1 == 8 * w + k && b.2.2
    { x with
      store := bs.foldl (fun m b => sset 0 m b.1 (b.2.1 ^^^ x.image b.1)) x.store
      psMarks := x.psMarks.filterMap fun m =>
        if (List.range 8).all (put m.1) then none
        else if bs.any fun b => b.1 / 8 == m.1 then (match m.2 with
          | .corrected _ => none
          | _ => some (m.1, .poisoned))
        else some m }

/-- Write plate store. -/
def psWrite (s : State) (p : Fin 8) (a : Nat) (bytes : List Byte) : State :=
  s.modPlate p fun x =>
    let whole (w : Nat) : Bool := decide (a ≤ 8 * w ∧ 8 * w + 8 ≤ a + bytes.length)
    let touched (w : Nat) : Bool := decide (a < 8 * w + 8 ∧ 8 * w < a + bytes.length)
    { x with
      store := writeMem x.store a ((List.range bytes.length).map fun j => nth 0 bytes j ^^^ x.image (a + j))
      psMarks := x.psMarks.filterMap fun m =>
        if whole m.1 then none
        else if touched m.1 then (match m.2 with
          | .corrected _ => none
          | _ => some (m.1, .poisoned))
        else some m }

/-- The record of an uncorrectable plate-store read (R351). -/
def State.pstoreUe (s : State) (p : Fin 8) (tag : BitVec 32) : State :=
  s.report (memRec s { cause := cPstoreUe, suspect := pstoreUnit p } 11 0 p.val (pstoreUnit p) false false tag 0)

end Sys2Proof.Machine
end

