-- ==== Sys2Proof/Machine/Flags.lean ====
section
/-! DEFINITION. Flags and counts of a core (R113, R91, R87), the write-back of results (R266–R268), the roles of
cores (R299), and the checks of what an operation has read (R351, R323, R253). -/
namespace Sys2Proof.Machine

/-! ### Arithmetic flags and conversion counts -/

/-- One event of each arithmetic flag in `g` (R113). -/
def State.numFlags (s : State) (i : CoreId) (g : Flags) : State :=
  (List.range 4).foldl (fun s b => if g.toNat.testBit b then s.flag (coreAt i 0x400) b else s) s

/-- Conversions to the narrow floats outside the encoder (R91). -/
def State.cvtCount (s : State) (i : CoreId) (flush nanz : Nat) : State :=
  (s.satRf (coreAt i 0x428) 32 32 flush).satRf (coreAt i 0x428) 0 32 nanz

/-- Counts of the encoder in a slot of the hatch (R87). -/
def State.encCount (s : State) (h : HatchId) (slot : BitVec 4) (flush nanz : Nat) : State :=
  let a := hatchAt h (0x1000 + 8 * slot.toNat)
  (s.satRf a 32 32 flush).satRf a 0 32 nanz

/-! ### Result write-back -/

/-- What one write-back writes (R266, R274), with the flags that a statistics fold raises. -/
def CoreSt.put (c : CoreSt) (t : Target) : CoreSt × Flags :=
  match t with
  | .scalar r v => (c.setS r v, 0)
  | .vector r v m =>
    let c := if m = BitVec.allOnes 128 then { c with vpar := c.vpar.filter fun x => x != (0, r) } else c
    (c.setV r (mergeLanes m (c.v r) v), 0)
  | .pred r v m => (c.setP r (mergePred m (c.p r) v), 0)
  | .cbuf n b l => (c.setCb n { base := b, len := l }, 0)
  | .stat op k v m bs => statApply c op k v m bs
  | .none => (c, 0)

/-- A write into a list kept in order of its due cycle, after the equal ones (R267). -/
def insertDue (x : PendW) : List PendW → List PendW
  | [] => [x]
  | y :: r => if x.due < y.due then x :: y :: r else y :: insertDue x r

/-- Apply one write-back: result, flags and counts (R113, R91, R87). -/
def State.writeBack (s : State) (i : CoreId) (w : PendW) : State :=
  let (c, g) := (s.core i).put w.tgt
  let s := (s.setCore i c).numFlags i (w.flags ||| g)
  match w.slot with
  | some k => s.encCount i.hatch k w.flush w.nanz
  | none => s.cvtCount i w.flush w.nanz

/-- Held faults whose lines have been rewritten are discarded and counted (R324). -/
def State.sweepHeld (s : State) (i : CoreId) : State :=
  let c := s.core i
  let n := (c.held.filter fun h => h.left.isEmpty).length
  if n = 0 then s
  else (s.setCore i { c with held := c.held.filter fun h => !h.left.isEmpty }).satRf (coreAt i 0xB20) 0 32 n

/-- Stores that take effect, in core store or, in stand-alone mode, in the window of plate store (R268, R220). -/
def State.storeBack (s : State) (i : CoreId) (x : PendSt) : State :=
  let s := (s.modCore i fun c => c.wrMany (x.bytes.filter fun b => b.1 < plateBus)).sweepHeld i
  let ps := x.bytes.filter fun b => plateBus ≤ b.1
  if ps.isEmpty then s
  else psWriteMany s i.p (ps.map fun b =>
    let a := b.1 - plateBus
    (a, (b.2.1 &&& b.2.2) ||| ((s.plate i.p).byte a &&& ~~~b.2.2), b.2.2 == 0xFF))

/-- Apply the results and stores of a core that are due by issue cycle `t`. -/
def State.applyDue (s : State) (i : CoreId) (t : Nat) : State :=
  let c := s.core i
  let ws := (c.pend.filter fun w => w.due ≤ t).foldl (fun l w => insertDue w l) []
  let ss := c.pendSt.filter fun w => w.due ≤ t
  let s := s.setCore i { c with pend := c.pend.filter fun w => !(w.due ≤ t),
                                pendSt := c.pendSt.filter fun w => !(w.due ≤ t) }
  ss.foldl (fun s x => s.storeBack i x) (ws.foldl (fun s w => s.writeBack i w) s)

/-- Apply every result and store still on its way (R251, R295). -/
def State.flushPend (s : State) (i : CoreId) : State :=
  let c := s.core i
  s.applyDue i ((c.pend.map (·.due)).foldl max ((c.pendSt.map (·.due)).foldl max 0))

/-! ### Roles (R299) -/

/-- The next core on the hatch ring (R30). -/
def State.ringNext (s : State) (i : CoreId) : CoreId :=
  let cs := s.activeCores i.hatch
  nth i cs ((s.lidx i + 1) % max 1 cs.length)
/-- The previous core on the hatch ring. -/
def State.ringPrev (s : State) (i : CoreId) : CoreId :=
  let n := (s.activeCores i.hatch).length
  nth i (s.activeCores i.hatch) ((s.lidx i + (n - 1)) % max 1 n)
/-- Whether a core is in the stand-alone role. -/
def State.standAlone (s : State) (i : CoreId) : Bool := s.role i == 2

/-- The cores that an issuer issues to. -/
def State.coresOf (s : State) : Issuer → List CoreId
  | .hatch h => s.activeCores h
  | .alone i => [i]
/-- The issue side of an issuer. -/
def State.seq (s : State) : Issuer → SeqSt
  | .hatch h => (s.hatch h).seq
  | .alone i => (s.core i).sa
def State.setSeq (s : State) (q : Issuer) (x : SeqSt) : State :=
  match q with
  | .hatch h => s.modHatch h fun y => { y with seq := x }
  | .alone i => s.modCore i fun y => { y with sa := x }
/-- The issuer that serves a core. -/
def State.issuerOf (s : State) (i : CoreId) : Issuer := if s.standAlone i then .alone i else .hatch i.hatch
/-- The command tag of the kernel that a core serves. -/
def State.tagOf (s : State) (i : CoreId) : BitVec 32 :=
  if s.standAlone i then 0 else match (s.hatch i.hatch).run with
    | some l => l.tag
    | none => 0

/-- CORE_SACTL.STATUS. -/
def State.saStatus (s : State) (i : CoreId) : Nat := s.rf (coreAt i 0xA40) 8 4
def State.setSaStatus (s : State) (i : CoreId) (n : Nat) : State :=
  (s.setRf (coreAt i 0xA40) 8 4 n).setRf (coreAt i 0xA40) 32 8 (s.core i).sa.pc
/-- KEEP and KX4 in force in a core (CORE_SFUSTAT), and the determinism mode and spill interval (CORE_ACCSTAT). -/
def State.keepOn (s : State) (i : CoreId) : Bool := s.rf (coreAt i 0xA00) 13 1 == 1
def State.kx4On (s : State) (i : CoreId) : Bool := s.rf (coreAt i 0xA00) 12 1 == 1
def State.fixedOn (s : State) (i : CoreId) : Bool := s.rf (coreAt i 0x900) 7 1 == 1
def State.spillOn (s : State) (i : CoreId) : Nat := s.rf (coreAt i 0x900) 0 7

/-! ### What an operation has read -/

/-- Whether a logged range meets `[a, a+n)`. -/
def readsAt (log : List (Nat × Nat)) (a n : Nat) : Bool := log.any fun r => r.1 < a + n && a < r.1 + r.2

/-- The record of a held fault as its report carries it (R323). -/
def heldRec (s : State) (r : FRec) (bundle : Nat) : FRec :=
  { r with time := s.mod.time,
           body := [nth 0 r.body 0 ||| BitVec.ofNat 64 (2 ^ 22), withBits (nth 0 r.body 1) 40 16 bundle,
                    nth 0 r.body 2] }

/-- Report a held fault (R323, R325). -/
def State.reportHeld (s : State) (i : CoreId) (h : Held) (bundle : Nat) : State :=
  (s.flag (coreAt i 0xB08) (if h.data then 1 else 0)).report (heldRec s h.rcd bundle)

/-- Check the core-store ranges that the operation under way has read: corrected words are written back, uncorrectable
ones and the poisoned lines of held faults are reported (R351, R323).  An answer asks for an abort of the commission,
with the granule of a memory fault for the steward. -/
def State.checkReads (s : State) (i : CoreId) (bundle : Nat) : State × Option (Option Nat) :=
  let c := s.core i
  let log := c.rdLog
  let hit (m : Nat × Mark) : Bool := readsAt log (8 * m.1) 8
  let met (h : Held) : Bool := h.left.any fun a => readsAt log (a / 128 * 128) 128
  let fixed (m : Nat × Mark) : Bool := match m.2 with
    | .corrected _ => true
    | _ => false
  let tag := s.tagOf i
  let s := s.setCore i { c with rdLog := [], csMarks := c.csMarks.filter fun m => !(hit m && fixed m),
                                held := c.held.filter fun h => !met h }
  let ms := c.csMarks.filter hit
  let hs := c.held.filter met
  let s := ms.foldl (fun s m =>
    if fixed m then s.flag (coreAt i 0xC00) 0
    else (s.flag (coreAt i 0xC00) 1).report
      (memRec s { cause := cCstoreUe, suspect := coreUnit i } 10 i.c.val i.p.val (coreUnit i) false false tag bundle)) s
  let s := hs.foldl (fun s h => s.reportHeld i h bundle) s
  (s, match hs with
    | h :: _ => some (some (bitsOf (nth 0 h.rcd.body 1) 14 25))
    | [] => if ms.any fun m => !fixed m then some none else none)

/-! ### Vector-register and table parity (R253) -/

/-- The vector registers, table banks (2t + b) and ROM tables that a vector slot reads, as R253 codes them. -/
def vecReads (c : CoreSt) (op : BitVec 8) (f : VFields) : List (BitVec 2 × BitVec 5) :=
  let n := op.toNat
  let a := [(0#2, f.va)]
  let b := if f.sb then [] else [(0#2, f.vb)]
  let bank (t : Nat) : List (BitVec 2 × BitVec 5) :=
    [(1#2, BitVec.ofNat 5 (2 * (t % 4) + if c.active1 (BitVec.ofNat 2 t) then 1 else 0))]
  if n = 1 ∨ n = 0x0B ∨ (0x0C ≤ n ∧ n ≤ 0x0E) ∨ n = 0x1A ∨ n = 0x1B ∨ n = 0x28 ∨ (0x30 ≤ n ∧ n ≤ 0x35) ∨ n = 0x51
  then a
  else if n = 4 ∨ (0x08 ≤ n ∧ n ≤ 0x0A) ∨ (0x10 ≤ n ∧ n ≤ 0x1F) ∨ n = 0x20 ∨ n = 0x23 then a ++ b
  else if n = 0x21 ∨ n = 0x22 then a ++ b ++ [(0#2, f.vc)]
  else if n = 0x38 then [(0#2, f.vd)]
  else if 0x40 ≤ n ∧ n ≤ 0x49 then a ++ [(2#2, 0#5)]
  else if n = 0x4A then a ++ bank (f.imm.toNat / 16)
  else if n = 0x4B ∨ n = 0x4C then a ++ b ++ [(0#2, f.vc), (2#2, 0#5)]
  else if n = 0x4D then a ++ bank f.imm.toNat
  else []

/-- Report a parity mismatch among what was read; the answer says whether there was one. -/
def State.checkParity (s : State) (i : CoreId) (rs : List (BitVec 2 × BitVec 5)) (bundle slot : Nat) : State × Bool :=
  let bad := (s.core i).vpar.filter fun x => rs.contains x
  (bad.foldl (fun s x => (s.flag (coreAt i 0xA08) 1).reportFlag (coreUnit i) (coreUnit i) 0x04 1 (s.tagOf i) bundle slot
    (x.1.toNat + 4 * x.2.toNat)) s, !bad.isEmpty)

end Sys2Proof.Machine
end

