-- ==== Sys2Proof/Machine/Stop.lean ====
section
/-! DEFINITION. Stopping a hatch and a commission: handle queues returned (R338), barrier groups released (R667),
aborts for re-run (R50, R165, R201, R251, R319, R535), ends with a reason (R295, R537), traces (R298), and the
faults of a core. -/
namespace Sys2Proof.Machine

/-! ### Handle queues (§7.5) -/

def State.hq (s : State) (p : Fin 8) (q : Nat) : HqSt := sget {} (s.plate p).hq q
def State.setHq (s : State) (p : Fin 8) (q : Nat) (x : HqSt) : State :=
  s.modPlate p fun y => { y with hq := sset {} y.hq q x }

/-- Endpoint identifiers (Table 7.5). -/
def hatchEp (i : HatchId) : Byte := BitVec.ofNat 8 (i.p.val * 32 + i.h.val)
def regionEp (i : RegionId) : Byte := BitVec.ofNat 8 (i.p.val * 32 + 16 + i.r.val)

/-- A handle with GEN increased by one (R332). -/
def genUp (w : Word) : Word := withBits w 56 8 (bitsOf w 56 8 + 1)
/-- SLOT of a handle (Table 7.6). -/
def hSlot (w : Word) : Nat := bitsOf w 40 8

/-- A handle put into a list in order of its slot. -/
def insertSlot (w : Word) : List Word → List Word
  | [] => [w]
  | y :: r => if hSlot w < hSlot y then w :: y :: r else y :: insertSlot w r

/-- Return to the free list the handles that an endpoint holds. -/
def HqSt.giveBack (x : HqSt) (ep : Byte) : HqSt :=
  { x with free := x.free ++ (x.held.filter fun h => h.1 == ep).map fun h => genUp h.2,
           held := x.held.filter fun h => h.1 != ep }

/-- An endpoint's operation no longer waits (R337). -/
def HqSt.unwait (x : HqSt) (ep : Byte) : HqSt := { x with wait := x.wait.filter fun w => w.1 != ep }

/-- An endpoint's operation waits for a commission. -/
def HqSt.waits (x : HqSt) (ep : Byte) (k : Option CmsnKey) : HqSt :=
  if x.wait.contains (ep, k) then x else { x.unwait ep with wait := (x.unwait ep).wait ++ [(ep, k)] }

/-- The published handles return, and the free list is reordered by slot (R338). -/
def HqSt.reorder (x : HqSt) : HqSt :=
  { x with pub := [], wait := [], tag := 0,
           free := (x.free ++ x.pub.map genUp).foldl (fun l w => insertSlot w l) [] }

/-- The handle that an endpoint holds under the SLOT and GEN of `w` (R333). -/
def HqSt.holds (x : HqSt) (ep : Byte) (w : Word) : Option Word :=
  (x.held.find? fun h => h.1 == ep && hSlot h.2 == hSlot w && bitsOf h.2 56 8 == bitsOf w 56 8).map (·.2)

/-- Whether an endpoint has a role in queue `q` of plate `p`, enabled: HQ_CFG names it as producer or consumer. -/
def State.hqRole (s : State) (p : Fin 8) (q : Nat) (ep : Byte) : Option Bool :=
  let r := s.reg (queueAt p q 8)
  if !bitOf r 25 then none
  else if bitsOf r 0 8 = ep.toNat then some true
  else if bitsOf r 8 8 = ep.toNat then some false
  else none

/-- The queue that a physical number names for an endpoint: that of its own plate, else of the first plate on which the
endpoint has a role in it (assumption 8). -/
def State.hqFind (s : State) (p : Fin 8) (q : Nat) (ep : Byte) : Option (Fin 8 × Nat) :=
  ((p :: plateIds).find? fun p => (s.hqRole p q ep).isSome).map fun p => (p, q)

/-- Every queue in which an endpoint holds handles gives them back; with a tag, the queues that a commission of this tag uses. -/
def State.hqGiveBack (s : State) (ep : Byte) (tag : Option (BitVec 32) := none) : State :=
  plateIds.foldl (fun s p => ((s.plate p).hq.filter fun x => (tag.isNone || tag == some x.2.tag) && x.2.held.any fun h => h.1 == ep).foldl
    (fun s x => s.setHq p x.1 (x.2.giveBack ep)) s) s

/-- Whether a commission on hatches `hs` uses a queue that carries its tag: one of the hatches has a role in it, or both endpoints are
regions. -/
def State.hqUsed (s : State) (hs : List HatchId) (p : Fin 8) (q : Nat) : Bool :=
  (hs.any fun h => (s.hqRole p q (hatchEp h)).isSome) || !(hatchIds.any fun h => (s.hqRole p q (hatchEp h)).isSome)

/-- Reset the queues that a commission has used: the handles that its hatches hold return, ended hatches' too, then every published
handle, and the free list is reordered (R338). -/
def State.hqReset (s : State) (hs : List HatchId) (tag : BitVec 32) : State :=
  plateIds.foldl (fun s p => ((s.plate p).hq.filter fun x => x.2.tag == tag && s.hqUsed hs p x.1).foldl
    (fun s x => s.setHq p x.1 (hs.foldl (fun (y : HqSt) h => y.giveBack (hatchEp h)) x.2).reorder) s) s

/-! ### Barrier groups (R667) -/

/-- A commission's groups return to their pools and their counters are cleared. -/
def State.freeGroups (s : State) (k : CmsnKey) : State :=
  let s := plateIds.foldl (fun s p =>
    let gs := ((s.plate p).bgroups.filter fun g => g.2 == k).map fun g => g.1.toNat
    if gs.isEmpty then s
    else s.modPlate p fun x => { x with bgroups := x.bgroups.filter fun g => g.2 != k,
                                        bars := x.bars.filter fun b => !gs.contains b.1 }) s
  s.modEngine fun e =>
    let gs := (e.mgroups.filter fun g => g.2 == k).map fun g => g.1.toNat
    { e with mgroups := e.mgroups.filter fun g => g.2 != k, mbars := e.mbars.filter fun b => !gs.contains b.1 }

/-! ### The end of a stand-alone program (R222) -/

/-- Whether a table may be swapped: every TLOAD to it has completed, and every vector drain that reads it has finished
(R192, R235).  A VDRAIN of the TSWAP's own bundle counts as issued earlier, as R235 says of a TLOAD (assumption 113). -/
def swapReady (c : CoreSt) (t : BitVec 2) : Bool :=
  let uses (o : DrainOp) : Bool := o.code == .vdrain && o.f.fn == 12 + t.toNat
  !(c.tloads.any fun x => x.t == t) && !(c.dq.any uses) && !(c.vec.toList.any uses)

/-- The shadow bank of a table becomes active (R235). -/
def CoreSt.swapTable (c : CoreSt) (t : BitVec 2) : CoreSt := { c with actBank := c.actBank ^^^ BitVec.ofNat 4 (2 ^ t.toNat) }

/-- A table swap that has issued and that no bundle is left to wait for is made as soon as it may be (R222, R235). -/
def CoreSt.haltSwap (c : CoreSt) : CoreSt :=
  match c.sa.swap with
  | some t => if swapReady c t then { c.swapTable t with sa := { c.sa with swap := none } } else c
  | none => c

/-- A stand-alone program halts: what it has issued completes (R222). -/
def State.saHalt (s : State) (i : CoreId) (status : Nat) : State :=
  ((s.flushPend i).modCore i CoreSt.haltSwap).setSaStatus i status

/-- What a halted program has issued goes on completing (R222). -/
def State.haltedSwap (s : State) (i : CoreId) : State :=
  if s.standAlone i && s.saStatus i != 1 && (s.core i).sa.swap.isSome then s.modCore i CoreSt.haltSwap else s

/-! ### Traces (R298) -/

/-- A trace record of a kind, when it is enabled. -/
def State.traceRec (s : State) (h : HatchId) (kind code : Nat) (tag : BitVec 32) (bundle : Nat) : State :=
  let t := s.reg (hatchAt h 0x40)
  let b := s.reg (hatchAt h 0x48)
  let size := bitsOf b 0 32
  if bitOf t 0 && bitOf t kind && size != 0 then
    let next := bitsOf t 8 24
    let rcd := leBytes 8 s.mod.time.toNat ++ leBytes 4 tag.toNat ++ leBytes 2 bundle
      ++ [BitVec.ofNat 8 (kind + 16 * h.h.val), BitVec.ofNat 8 code]
    let s := psWrite s h.p (bitsOf b 32 32 + 16 * next) rcd
    if size ≤ 16 * (next + 1) then (s.setRf (hatchAt h 0x40) 8 24 0).satRf (hatchAt h 0x40) 32 32 1
    else s.setRf (hatchAt h 0x40) 8 24 (next + 1)
  else s

/-! ### Stopping a core's work (R165, R201, R251, R319, R324) -/

/-- Held faults are discarded and counted (R324). -/
def State.dropHeld (s : State) (i : CoreId) : State :=
  let n := (s.core i).held.length
  if n = 0 then s else (s.modCore i fun c => { c with held := [] }).satRf (coreAt i 0xB20) 0 32 n

/-- Whether a table header may be loaded (R230): bits [31:20] of bytes 12–15 zero, and the LO of a FUNC header finite. -/
def hdrOk (h : BitVec 128) : Bool := fld h.toNat 116 12 == 0 && (hdrLut h || fld h.toNat 23 8 != 255)

/-- A table image lands in its bank, whose parity is good again (R253). -/
def CoreSt.landTable (c : CoreSt) (t : TLoad) : CoreSt :=
  { c.setBank t.t t.bank t.data with
    vpar := c.vpar.filter fun x => x != (1, BitVec.ofNat 5 (2 * t.t.toNat + if t.bank then 1 else 0)) }

/-- The TLOADs in flight complete into their banks (R251); a header fault leaves a bank unchanged. -/
def CoreSt.landTables (c : CoreSt) : CoreSt :=
  { c.tloads.foldl (fun c t => if hdrOk t.data.hdr then c.landTable t else c) c with tloads := [] }

/-- What a cancel, an abort or a per-function reset does to one core: queued operations are discarded, those that run
complete without an event, results on their way are written, transfers end and the fetch epoch advances.  A receive that waits for its
chain block, which will not come, is dropped with no effect, and so is a chain step over the ring whose accesses still wait
(assumption 109). -/
def State.stopCore (s : State) (i : CoreId) : State :=
  let s := (s.flushPend i).dropHeld i
  s.modCore i fun c =>
    let ringWaits := (c.recvWait || c.fastWait) && c.fast.any fun o => o.ringRecv || o.ringSend
    { c with mq := [], mrun := c.mrun.map MatOp.silent, dq := [],
             fast := if ringWaits then none else c.fast.map DrainOp.silent, recvWait := false,
             fastWait := !ringWaits && c.fastWait, vec := c.vec.map DrainOp.silent, chainIn := [], tq := [], ringIn := [],
             vregWait := [], rdLog := [], alarms := [] }.landTables.advanceEpoch

/-! ### The commissions of a hatch -/

/-- The commission of a key, and its replacement. -/
def State.cmsn (s : State) (k : CmsnKey) : Option Cmsn := s.engine.cmsns.find? fun c => c.key == k
def State.setCmsn (s : State) (c : Cmsn) : State :=
  s.modEngine fun e => { e with cmsns := e.cmsns.map fun d => if d.key == c.key then c else d }

/-- The owner slot of a hatch (Table 8.19), written by the plate controller (§8.4). -/
def State.setOwner (s : State) (h : HatchId) (slot : Nat) : State :=
  s.setRf (plateAt h.p 0x2010) (16 * h.h.val) 9 (if slot = 0 then 0 else 256 + slot)

/-- A hatch takes off its kernel: the sequencer is idle again. -/
def State.clearHatch (s : State) (h : HatchId) : State :=
  (s.modHatch h fun x => { x with run := none, seq := {}, ended := none, pre := false })
    |>.setOwner h 0

/-- Stop a hatch under a cancel or an abort. -/
def State.stopHatch (s : State) (h : HatchId) : State :=
  let tag := (s.hatch h).run.map fun l => l.tag
  (((s.activeCores h).foldl (fun s i => s.stopCore i) s).hqGiveBack (hatchEp h) tag).clearHatch h

/-- Discard the saved state of a pre-empted hatch. -/
def State.dropSaved (s : State) (h : HatchId) : State :=
  (s.modHatch h fun x => { x with saved := none }).hqGiveBack (hatchEp h) ((s.hatch h).saved.map fun v => v.launch.tag)

/-- Every hatch of a commission stops; its launch images leave the launch queues, its saved state is discarded, its queues
are reset and its barrier groups return. -/
def State.stopCmsn (s : State) (k : CmsnKey) (tag : BitVec 32) : State :=
  let has (l : Option Launch) : Bool := match l with
    | some l => l.key == some k
    | none => false
  let mine := match s.cmsn k with
    | some c => c.hatches
    | none => []
  let s := hatchIds.foldl (fun s h =>
    let s := if has (s.hatch h).run then s.stopHatch h else s
    let s := match (s.hatch h).saved with
      | some v => if v.launch.key == some k then s.dropSaved h else s
      | none => s
    if (s.hatch h).lq.any fun x => x.2 == some k then
      s.modHatch h fun x => { x with lq := x.lq.filter fun y => y.2 != some k }
    else s) s
  (s.hqReset mine tag).freeGroups k

/-- The reason with which a commission has begun to end, if it has: a hatch of it has ended with one, or still completes what it has
issued (R295, R537). -/
def State.endReason (s : State) (c : Cmsn) : Option Byte :=
  if c.status != 0 then some c.status
  else (c.hatches.filterMap fun h => match (s.hatch h).run, (s.hatch h).ended with
    | some l, some st => if l.key == some c.key && st != 0 then some st else none
    | _, _ => none)[0]?

/-- Abort a commission for re-run (R50, R535): it returns to READY and is held, or ends with RETRY_LIMIT.  A memory fault
leaves its granule for the steward (R327).  A commission that ends with a reason is not run again: it finishes with that reason
(R295, R537; assumption 115). -/
def State.abortCmsn (s : State) (k : CmsnKey) (granule : Option Nat := none) : State :=
  match s.cmsn k with
  | none => s
  | some c =>
    if c.state = .running ∨ c.state = .preempted then
      let reason := s.endReason c
      let s := s.stopCmsn k c.tag
      let c := { c with hatches := [], ended := [], pgroups := [], mgroup := none,
                        fault := granule.map (BitVec.ofNat 25) }
      if let some st := reason then s.setCmsn { c with state := .finished, status := st, fault := none }
      else if s.rf (engineAt 0) 32 8 + 1 ≤ c.attempts then
        (s.setCmsn { c with state := .finished, status := 0x28 }).flag (engineAt 0x20) 2
      else s.setCmsn { c with state := .ready, held := true }
    else s

/-- Abort the commission that runs on a hatch; a hatch with no commission of the engine just stops. -/
def State.abortHatch (s : State) (h : HatchId) (granule : Option Nat := none) : State :=
  match (s.hatch h).run with
  | none => s
  | some l => match l.key.bind s.cmsn with
    | some c => s.abortCmsn c.key granule
    | none => s.stopHatch h

/-- Nothing of a commission is left on a hatch: what runs there, what it holds saved and what its launch queue holds is aborted
for re-run (R569, R631); launch images of no commission leave the queue (assumption 133). -/
def State.quietHatch (s : State) (h : HatchId) : State :=
  let s := s.abortHatch h
  let s := match (s.hatch h).saved with
    | some v => match v.launch.key with
      | some k => s.abortCmsn k
      | none => s.dropSaved h
    | none => s
  let s := ((s.hatch h).lq.filterMap (·.2)).foldl (fun (s : State) k => s.abortCmsn k) s
  if (s.hatch h).lq.isEmpty then s else s.modHatch h fun x => { x with lq := [] }

/-- Abort what a core serves: nothing in stand-alone mode. -/
def State.abortCore (s : State) (i : CoreId) (granule : Option Nat := none) : State :=
  if s.role i = 0 then s.abortHatch i.hatch granule else s

/-! ### What of a core can go on -/

/-- The operations on the two drain units that have started and whose accesses still wait (R663). -/
def waitingOps (c : CoreSt) : List DrainOp :=
  (if c.fastWait || c.recvWait then c.fast.toList else []) ++ if c.vecWait then c.vec.toList else []

/-- Whether an operation earlier in issue order, in the drain queue or waiting on its unit, keeps a pass from its
entries (R170). -/
def passBlocked (c : CoreSt) (t : Touch) (ord : Nat) : Bool :=
  (c.dq ++ waitingOps c).any fun d => d.ord < ord && d.touch.meets t

/-- Whether a pass of another band mode still runs. -/
def bandBusy (c : CoreSt) (f : MpFields) : Bool :=
  c.mrun.any fun m => match m with
    | .pass g .. => g.band != f.band
    | _ => false

/-- Whether an operation earlier in issue order keeps a matrix operation from its entries (R170). -/
def MatOp.blocked (c : CoreSt) (m : MatOp) : Bool :=
  match m.touch with
  | some t => passBlocked c t m.ord
  | none => false

/-- Whether the head of the matrix queue can start. -/
def matrixReady (c : CoreSt) : Bool :=
  match c.mq with
  | [] => false
  | .load .. :: _ => !c.wload
  | .pass f w kp cp cb b o :: _ => !(f.neww && c.wload) && !bandBusy c f && !(MatOp.pass f w kp cp cb b o).blocked c

/-- Whether the accesses of an operation must wait for one issued before it that has not made its own (R170). -/
def drainBlocked (c : CoreSt) (o : DrainOp) : Bool :=
  (c.mq.any fun m => m.ord < o.ord && match m.touch with
    | some t => t.meets o.touch
    | none => false)
    || (waitingOps c).any fun d => d.ord < o.ord && d.touch.meets o.touch

/-- Whether the head of the drain queue can start: its unit is free and its WEN wait is satisfied (R663). -/
def drainReady (c : CoreSt) : Bool :=
  match c.dq with
  | [] => false
  | o :: _ => (if o.code.onVec then c.vec.isNone else c.fast.isNone) && (!o.f.wen || c.ev o.f.wev != 0)

/-- Whether the operation on a unit can go on: its accesses are made, or nothing keeps it from making them. -/
def unitMoves (c : CoreSt) (onVec : Bool) : Bool :=
  match if onVec then c.vec else c.fast with
  | none => false
  | some o => if onVec then !c.vecWait || !drainBlocked c o else !c.recvWait && (!c.fastWait || !drainBlocked c o)

/-- Whether the fetch engine of a core has work that can go on: a request in flight, or a transfer with requests to issue
that waits for no credit. -/
def fetchBusy (c : CoreSt) : Bool :=
  !c.outst.isEmpty || !c.ringIn.isEmpty
    || c.tq.any fun x => !x.ended && !(x.d.cen && !x.credit && (if x.kind = .ring then 1 else x.d.depth.toNat) ≤ x.tile)

/-- Whether nothing of a core can go on: all that is left waits for what will not come. -/
def coreQuiet (c : CoreSt) : Bool :=
  !matrixReady c && c.mrun.isEmpty && !drainReady c && !unitMoves c false && !unitMoves c true
    && c.tloads.isEmpty && c.chainWay.isEmpty && c.evs.isEmpty && !fetchBusy c

/-! ### An end with a reason, and the end of a kernel -/

/-- Whether every hatch of a victim that has not ended is saved. -/
def State.allSaved (s : State) (c : Cmsn) : Bool :=
  c.hatches.all fun h => c.ended.contains h || (match (s.hatch h).saved with
    | some v => v.launch.key == some c.key
    | none => false)

/-- The engine learns that a hatch has ended; the commission is FINISHED when all have (Table 13.4), and PREEMPTED when the others of
a victim are saved (R572). -/
def State.hatchDone (s : State) (h : HatchId) (k : Option CmsnKey) (status : Byte) : State :=
  match k.bind s.cmsn with
  | none => s
  | some c =>
    let c := { c with ended := c.ended ++ [h], status := if c.status = 0 then status else c.status }
    if (c.state = .running ∨ c.state = .preempted) ∧ c.hatches.all fun x => c.ended.contains x then s.setCmsn { c with state := .finished }
    else if c.state = .running ∧ s.allSaved c then s.setCmsn { c with state := .preempted }
    else s.setCmsn c

/-- Release a hatch whose kernel has ended once all that was issued has completed; operations that wait for what will not
come are discarded, and the engine learns of the end (R286, R295). -/
def State.finishEnded (s : State) (h : HatchId) : State :=
  match (s.hatch h).run, (s.hatch h).ended with
  | some l, some st =>
    if (s.activeCores h).all fun i => coreQuiet (s.core i) then
      let s := (s.activeCores h).foldl (fun s i => (s.dropHeld i).modCore i fun c =>
        { c with mq := [], dq := [], fast := none, recvWait := false, fastWait := false, vec := none, vecWait := false,
                 vres := none, chainIn := [], chainBuf := [], tq := [], vregWait := [] }) s
      ((s.traceRec h 2 st.toNat l.tag (s.hatch h).seq.pc).clearHatch h).hatchDone h l.key st
    else s
  | _, _ => s

/-- No bundle issues any more on a hatch, and what it has issued completes (R295). -/
def State.endOne (s : State) (h : HatchId) (status : Byte) : State :=
  if (s.hatch h).ended = none then
    ((s.activeCores h).foldl (fun s i => s.flushPend i) (s.modHatch h fun x => { x with ended := some status })).finishEnded h
  else s

/-- A hatch gives up its part of a commission that ends: launch images that wait are withdrawn, saved state is discarded. -/
def State.dropPart (s : State) (h : HatchId) (k : CmsnKey) (status : Byte) : State :=
  let s := if (s.hatch h).lq.any fun x => x.2 == some k then
      let s := s.modHatch h fun x => { x with lq := x.lq.filter fun y => y.2 != some k }
      (if (s.hatch h).run.isNone then s.setOwner h 0 else s).hatchDone h (some k) status
    else s
  match (s.hatch h).saved with
  | some v => if v.launch.key = some k then (s.dropSaved h).hatchDone h (some k) status else s
  | none => s

/-- End a commission with a status on every hatch that has a part of it (R295, R346, R537). -/
def State.endCmsn (s : State) (k : CmsnKey) (status : Byte) : State :=
  hatchIds.foldl (fun s h =>
    let s := s.dropPart h k status
    match (s.hatch h).run with
    | some l => if l.key = some k then s.endOne h status else s
    | none => s) s

/-- End what runs on a hatch with a status. -/
def State.endHatch (s : State) (h : HatchId) (status : Byte) : State :=
  match (s.hatch h).run with
  | some l => match l.key.bind s.cmsn with
    | some c => s.endCmsn c.key status
    | none => s.endOne h status
  | none => s

/-! ### Core faults (§6.11) -/

/-- The tag, commission and hatch of an issuer. -/
def State.tagQ (s : State) : Issuer → BitVec 32
  | .hatch h => match (s.hatch h).run with
    | some l => l.tag
    | none => 0
  | .alone _ => 0

/-- CORE_FLOG (Table 6.27). -/
def flogOf (tag : BitVec 32) (bundle slot cause : Nat) : Word :=
  BitVec.ofNat 64 (tag.toNat * 2 ^ 32 + bundle % 2 ^ 16 * 2 ^ 16 + slot % 8 * 2 ^ 13 + 2 ^ 12 + cause % 256)

/-- An illegal operation (R295) or a Checked-mode trap (R272): every active core logs it, the hatch sends one record, and the
commission ends; in stand-alone mode the core halts with STATUS 3 (R221). -/
def State.illegal (s : State) (q : Issuer) (bundle slot cause : Nat) (hazard : Bool := false) : State :=
  match q with
  | .alone i => s.saHalt i 3
  | .hatch h =>
    let tag := s.tagQ q
    let w := flogOf tag bundle slot cause
    let bit := if hazard then 1 else 0
    let s := (s.activeCores h).foldl (fun s i => (s.flag (coreAt i 0x300) bit).setReg (coreAt i 0x340) w) s
    let s := s.reportFlag 0 (hatchUnit h) 0x01 bit tag bundle slot (w.toNat % 2 ^ 32)
    let s := s.traceRec h 5 cause tag bundle
    s.endHatch h (if hazard then 0x22 else 0x23)

/-- An event count that would pass 255: the core in which it overflows reports it, with the bundle that signalled (R284). -/
def State.evOverflow (s : State) (i : CoreId) (bundle slot : Nat) : State :=
  if s.standAlone i then s.saHalt i 3
  else
    let tag := s.tagOf i
    let w := flogOf tag bundle slot cEvOvf
    let s := ((s.flag (coreAt i 0x300) 0).setReg (coreAt i 0x340) w).reportFlag 0 (coreUnit i) 0x01 0 tag bundle slot
      (w.toNat % 2 ^ 32)
    (s.traceRec i.hatch 5 cEvOvf tag bundle).endHatch i.hatch 0x23

/-- Add 1 to an event count (R283, R284). -/
def State.signal (s : State) (i : CoreId) (e : BitVec 4) (bundle slot : Nat) : State :=
  let c := s.core i
  if 255 ≤ c.ev e then s.evOverflow i bundle slot
  else s.setCore i (c.setEv e (c.ev e + 1))

/-- A transfer, chain or barrier fault flag of a core with its record, and the abort of its commission (R50). -/
def State.coreAbort (s : State) (i : CoreId) (regOff regNo bit : Nat) (suspect : BitVec 16) (bundle slot detail : Nat) :
    State :=
  ((s.flag (coreAt i regOff) bit).reportFlag suspect (coreUnit i) regNo bit (s.tagOf i) bundle slot detail).abortCore i

end Sys2Proof.Machine
end

