-- ==== Sys2Proof/Machine/CoreOps.lean ====
section
/-! DEFINITION. The matrix queue, the drain queue, table loads and event signals of a core: when an operation starts,
what starting it does, and its completion (§3.4, §4.2–§4.7, R663). -/
namespace Sys2Proof.Machine

/-- Whether a core's clock runs (R299, R615). -/
def State.clocked (s : State) (i : CoreId) : Bool :=
  !s.mod.inReset && !(s.plate i.p).stopped && s.role i != 3 && s.awake i.p (.hatch i.hatch.h)

/-! ### Errors of entries and row states (R203, R204) -/

/-- CORE_ACCELOG (Table 4.10) of a mark's key. -/
def accLog (k : Nat) : Word :=
  let row := decide (2 ^ 20 ≤ k)
  let q := k % 2 ^ 20 / 4
  let (set, e) := if row then (q / 256, q % 256) else (q / 32768, q % 32768)
  BitVec.ofNat 64 ((if row then 2 ^ 20 else 0) + k % 4 * 2 ^ 18 + set * 2 ^ 16 + e)

/-- Whether an operation's entries and row states contain a mark's place. -/
def Touch.holds (t : Touch) (k : Nat) : Bool :=
  let q := k % 2 ^ 20 / 4
  if 2 ^ 20 ≤ k then q / 256 == t.set.toNat && decide (t.rs.1 ≤ q % 256 ∧ q % 256 < t.rs.1 + t.rs.2)
  else q / 32768 == t.set.toNat && t.on (q % 32768)

/-- An uncorrectable part reads as a free value. -/
def CoreSt.spoil (c : CoreSt) (k : Nat) (w : Word) : CoreSt :=
  let q := k % 2 ^ 20 / 4
  if 2 ^ 20 ≤ k then
    let set : BitVec 2 := BitVec.ofNat 2 (q / 256)
    let r := c.row set (q % 256)
    c.setRow set (q % 256) (match k % 4 with
      | 0 => { r with m := w.setWidth 32 }
      | 1 => { r with alpha := w.setWidth 32 }
      | _ => { r with l := w })
  else
    let set : BitVec 2 := BitVec.ofNat 2 (q / 32768)
    let a := c.entry set (q % 32768)
    c.setEntry set (q % 32768) (match k % 4 with
      | 0 => { a with p := a.p.map fun _ => w.setWidth 32 }
      | 1 => { a with w := a.w.map fun _ => w }
      | 2 => { a with c := a.c.map fun _ => w }
      | _ => { a with kpos := w.setWidth 8, h := (w >>> 8).setWidth 2, cur := bitOf w 10 })

/-- Check the marked parts of the accumulator sets whose places are read; the answer asks for an abort. -/
def State.checkMarks (s : State) (i : CoreId) (reads : Nat → Bool) (bundle : Nat) : State × Bool :=
  ((s.core i).accMarks.filter fun m => reads m.1).foldl (fun r m =>
    let s := r.1
    let old := bitOf (s.reg (coreAt i 0x908)) 1
    match m.2 with
    | .corrected _ =>
      let s := (s.modCore i fun c => { c with accMarks := sdel c.accMarks m.1 }).flag (coreAt i 0x908) 0
      (if old then s else s.setReg (coreAt i 0x928) (accLog m.1), r.2)
    | _ =>
      let (w, s) := s.fresh
      let s := ((s.modCore i fun c => c.spoil m.1 w).flag (coreAt i 0x908) 1).setReg (coreAt i 0x928) (accLog m.1)
      (s.reportFlag (coreUnit i) (coreUnit i) 0x03 1 (s.tagOf i) bundle 2 (accLog m.1).toNat, true)) (s, false)

/-- Check what an operation reads of the accumulator sets, as far as entry `last`. -/
def State.checkAcc (s : State) (i : CoreId) (t : Touch) (bundle : Nat) (last : Nat := 32767) : State × Bool :=
  s.checkMarks i (fun k => t.holds k && decide (2 ^ 20 ≤ k ∨ k % 2 ^ 20 / 4 % 32768 ≤ last)) bundle

/-- Entries that an operation has written, those before entry `stop`, are sound again. -/
def State.clearAcc (s : State) (i : CoreId) (t : Touch) (stop : Nat := 32768) : State :=
  let wrote (k : Nat) : Bool := t.holds k && decide (2 ^ 20 ≤ k ∨ k % 2 ^ 20 / 4 % 32768 < stop)
  if (s.core i).accMarks.any fun m => wrote m.1 then
    s.modCore i fun c => { c with accMarks := c.accMarks.filter fun m => !wrote m.1 }
  else s

/-! ### The outcome of an operation that has run.  A core whose clock does not run acts on none of these commands (R299). -/

/-- The parity and residue mismatches of an operation set their flags, each with its record (R164). -/
def State.mxErrors (s : State) (i : CoreId) (bundle : Nat) (l : List (Nat × Nat)) : State :=
  l.foldl (fun s x => (s.flag (coreAt i 0x898) x.1).reportFlag (coreUnit i) (coreUnit i) 0x02 x.1 (s.tagOf i) bundle 2 x.2) s

/-- Flags and counts of an operation, its reads checked, the check errors of the array (R164), then an abort that its reads or the
checks ask for, or an illegal condition (R296).  What an operation makes of a poisoned or uncorrectable part is no illegal condition
(R164, R203, R323, R351). -/
def State.opDone (s : State) (i : CoreId) (o : OpOut) (bundle : Nat) (abort : Bool) : State :=
  let s := ((s.setCore i o.core).numFlags i o.flags).cvtCount i o.flush o.nanz
  let s := o.slots.foldl (fun s x => s.encCount i.hatch x.1 x.2.1 x.2.2) s
  let (s, ab) := (s.sweepHeld i).checkReads i bundle
  let s := s.mxErrors i bundle o.check
  if s.role i = 0 && (ab.isSome || abort || !o.check.isEmpty) then s.abortCore i (ab.getD none)
  else match o.cause with
    | some c => s.illegal (s.issuerOf i) bundle 2 c
    | none => s

/-! ### The matrix queue (R135–R150) -/

/-- Whether the skew table agrees with the row map in every logical row (R156, R157). -/
def skewRight (s : State) (i : CoreId) : Bool :=
  let b := s.rf (coreAt i 0x800) 0 8
  (List.range 128).all fun r => s.rf (coreAt i (0x810 + 8 * (r / 8))) (8 * (r % 8)) 8 == if r < b then r else r + 1

/-- Whether a pass writes no entry: every block is masked and its addend is empty (R152). -/
def passIdle (f : MpFields) (kp : PReg) : Bool :=
  match pairFmts f.pair with
  | some (_, wf) => !f.add && (List.range (passK wf f.band)).all fun k => !kOn wf f.band kp k
  | none => true

/-- MATRIX_OP_START: the head of the matrix queue leaves it and runs.  A start that must wait adds one, for its hold cycles, to
FRONT_STALL when the tile is not staged (R141) and to ORDER_WAIT when an earlier operation keeps its entries (R170); that each counts
one is the model's choice (assumption 24).  A pass that is illegal signals no completion event (R296). -/
def matrixStart (s : State) (i : CoreId) : State :=
  let c := s.core i
  if !s.clocked i then s
  else match c.mq with
  | [] => s
  | .load f w kp cb b o :: rest =>
    if c.wload then s
    else
      let c := stageTile { c with mq := rest, mrun := c.mrun ++ [.load f w kp cb b o] } f w kp cb
      s.opDone i { core := c } b.toNat false
  | .pass f w kp cp cb b o :: rest =>
    if bandBusy c f then s
    else if f.neww && c.wload then s.satRf (coreAt i 0x8B0) 32 32 1
    else if (MatOp.pass f w kp cp cb b o).blocked c then s.satRf (coreAt i 0x900) 32 32 1
    else
      let t := (MatOp.pass f w kp cp cb b o).touch
      let refused := passMisfit c f
      let bad := passBad c f w cp
      let (s, ab) := match t with
        | some t => if f.add && !refused then s.checkAcc i t b.toNat (bad.getD 32767) else (s, false)
        | none => (s, false)
      let c := { s.core i with mq := rest }
      let ok := skewRight s i
      let out := passRun c f w kp cp cb (s.spillOn i) ok s.freeCtr
      let s := if ok && out.check.isEmpty then s else { s with freeCtr := s.freeCtr + 262144 }
      let out := if out.cause.isSome then out
        else { out with core := { out.core with mrun := c.mrun ++ [.pass f w kp cp cb b o] } }
      let s := s.opDone i out b.toNat ab
      match t with
      | some t => if passIdle f kp || refused then s else s.clearAcc i t (bad.getD 32768)
      | none => s

/-- WEIGHT_LOAD_COMPLETE: the staged tile is complete (R141). -/
def weightLoadDone (s : State) (i : CoreId) : State :=
  if s.clocked i && (s.core i).mrun.any MatOp.isLoad then
    s.modCore i fun c => { c with wload := false, mrun := c.mrun.eraseP MatOp.isLoad }
  else s

/-- MPASS_COMPLETE: the last result is written and the pass signals its event (R139). -/
def passDone (s : State) (i : CoreId) : State :=
  match (if s.clocked i then (s.core i).mrun.find? fun m => !m.isLoad else none) with
  | some (.pass f w kp cp cb b o) =>
    let s := s.modCore i fun c => { c with mrun := c.mrun.eraseP fun m => !m.isLoad }
    let _ := (w, kp, cp, cb, o)
    if f.even then s.signal i f.ev b.toNat 2 else s
  | _ => s

/-! ### The drain queue (R663) -/

/-- Whether an operation reads the entries it names. -/
def DrainOp.readsAcc (o : DrainOp) : Bool := o.code != .aclr && o.code != .aload && o.code != .sreset
/-- Whether it writes them, row states or entries. -/
def DrainOp.writesAcc (o : DrainOp) : Bool :=
  match o.code with
  | .aclr | .aload | .sreset | .sscale | .achainRecv => true
  | _ => false

/-- The table bank that a vector drain reads (R253), and the built-in ROM tables. -/
def drainParity (c : CoreSt) (o : DrainOp) : List (BitVec 2 × BitVec 5) :=
  if o.code = .vdrain then
    if 12 ≤ o.f.fn then
      [(1#2, BitVec.ofNat 5 (2 * (o.f.fn - 12) + if c.active1 (BitVec.ofNat 2 (o.f.fn - 12)) then 1 else 0))]
    else if o.f.fn = 0 then [] else [(2#2, 0#5)]
  else if o.code = .smax ∨ o.code = .sexp then [(2#2, 0#5)] else []

/-- Run a drain-queue operation; a ring SEND puts its blocks on the way to the next core (R180).  One that is illegal leaves its unit
and signals nothing (R295, R296). -/
def State.drainGo (s : State) (i : CoreId) (o : DrainOp) : State :=
  let b := o.bundle.toNat
  let (s, ab) := if o.readsAcc then s.checkAcc i o.touch b else (s, false)
  let (s, ab2) := s.checkParity i (drainParity (s.core i) o) b 2
  let c := s.core i
  let blocks := if o.ringSend then (sendBlocks c o).1 else []
  let out := drainRun c o (s.kx4On i) (s.keepOn i) (s.fixedOn i)
  let out := if out.cause.isNone then out
    else { out with core := if o.code.onVec then { out.core with vec := none, vres := none } else { out.core with fast := none } }
  let nx := s.ringNext i
  let s := s.opDone i out b (ab || ab2)
  let s := if o.writesAcc then s.clearAcc i o.touch else s
  if blocks.isEmpty then s else s.modCore nx fun c => { c with chainWay := c.chainWay ++ blocks }

/-- Whether a receive over the ring lacks chain blocks; one that covers several waits for all of them (R180, assumption 111). -/
def recvLacks (c : CoreSt) (o : DrainOp) : Bool := o.ringRecv && decide (c.chainIn.length < (rngOf o.word).groups.length)

/-- An operation that has started makes its accesses, unless an earlier operation keeps it from them or it waits for chain
blocks (R170, R180, R663). -/
def State.unitGo (s : State) (i : CoreId) (o : DrainOp) : State :=
  let c := s.core i
  if drainBlocked c o then
    let s := s.setCore i (if o.code.onVec then { c with vecWait := true } else { c with fastWait := true })
    s.satRf (coreAt i 0x900) 32 32 1
  else if recvLacks c o then s.setCore i { c with fastWait := false, recvWait := true }
  else (s.setCore i (if o.code.onVec then { c with vecWait := false } else { c with fastWait := false, recvWait := false })).drainGo i o

/-- DRAIN_OP_START: the head of the drain queue starts on its unit (R663, R283); a receive from DCB reads its blocks now (R180). -/
def drainStart (s : State) (i : CoreId) : State :=
  let c := s.core i
  if !s.clocked i || !drainReady c then s
  else match c.dq with
  | [] => s
  | o :: rest =>
    let c := if o.f.wen then c.setEv o.f.wev (c.ev o.f.wev - 1) else c
    let c := { c with dq := rest }
    let c := if o.code.onVec then { c with vec := some o } else { c with fast := some o }
    if o.bufRecv then
      let (s, ab) := ((s.setCore i (c.takeBuf o)).sweepHeld i).checkReads i o.bundle.toNat
      match (if s.role i = 0 then ab else none) with
      | some g => s.abortCore i g
      | none => s.unitGo i o
    else (s.setCore i c).unitGo i o

/-- The operation of a unit finishes: a VREG drain writes its register with the flags of the result (R113, R191), and the event is
signalled (R194). -/
def State.unitDone (s : State) (i : CoreId) (o : DrainOp) : State :=
  let c := s.core i
  let s := (s.setCore i (if o.code.onVec then { c with vec := none, vres := none } else { c with fast := none })).haltedSwap i
  let s := match (if o.code.onVec then c.vres else none) with
    | some w => s.writeBack i w
    | none => s
  if o.f.sen then s.signal i o.f.sev o.bundle.toNat 2 else s

/-- DRAIN_OP_COMPLETE: the operation of a unit finishes.  One whose accesses still wait makes them first, as soon as nothing keeps it
from them (assumption 24). -/
def drainDone (s : State) (i : CoreId) (u : DrainUnit) : State :=
  let c := s.core i
  if !s.clocked i then s
  else match u with
  | .fast => match c.fast with
    | some o =>
      if c.recvWait then s
      else if c.fastWait then
        let s := s.unitGo i o
        let c := s.core i
        if c.fastWait || c.recvWait || c.fast.isNone then s else s.unitDone i (c.fast.getD o)
      else s.unitDone i o
    | none => s
  | .vector => match c.vec with
    | some o =>
      if c.vecWait then
        let s := s.unitGo i o
        let c := s.core i
        if c.vecWait || c.vec.isNone then s else s.unitDone i (c.vec.getD o)
      else s.unitDone i o
    | none => s

/-- CHAIN_BLOCK_ARRIVE: a block arrives with its sender's epoch or is discarded (R201); a receive that has all its blocks
runs. -/
def chainArrive (s : State) (i : CoreId) : State :=
  let c := s.core i
  match (if s.clocked i then c.chainWay else []) with
  | [] => s
  | b :: rest =>
    let c := { c with chainWay := rest }
    if b.epoch ≠ c.epoch then s.setCore i c
    else
      let c := { c with chainIn := c.chainIn ++ [b] }
      match c.fast with
      | some o => if c.recvWait && !recvLacks c o then (s.setCore i c).unitGo i o else s.setCore i c
      | none => s.setCore i c

/-- CHAIN_TIMEOUT: a receive has waited 2^20 core-clock cycles (R180). -/
def chainTimedOut (s : State) (i : CoreId) : State :=
  let c := s.core i
  match (if s.clocked i then c.fast else none) with
  | some o =>
    if c.recvWait then s.coreAbort i 0x908 0x03 2 (coreUnit (s.ringPrev i)) o.bundle.toNat 2 0 else s
  | none => s

/-! ### Tables and events -/

/-- TLOAD_COMPLETE: a table image lands in its bank, or a header fault ends the commission with TABLE_FORMAT (R230). -/
def tloadDone (s : State) (i : CoreId) : State :=
  let c := s.core i
  match (if s.clocked i then c.tloads else []) with
  | [] => s
  | t :: rest =>
    let c := { c with tloads := rest }
    if hdrOk t.data.hdr then
      (s.setCore i (c.landTable t)).haltedSwap i
    else if s.role i = 0 then (s.setCore i c).endHatch i.hatch 0x20
    else (s.setCore i c).haltedSwap i

/-- EVSIG_DELIVER: a signalled event arrives (R283, R284). -/
def evsigArrive (s : State) (i : CoreId) : State :=
  match (if s.clocked i then (s.core i).evs else []) with
  | [] => s
  | (e, b) :: rest => (s.modCore i fun c => { c with evs := rest }).signal i e b.toNat 5

end Sys2Proof.Machine
end

