-- ==== Sys2Proof/Machine/CoreRegs.lean ====
section
/-! DEFINITION. Registers of a core and a hatch whose write has an effect: encoder counters (R89), row map and skew table
(R160), the known-pattern test (R161, R162), stand-alone programs (R219, R222, R254), the launch queue (Table 6.20), roles
(R299, R300), the trace ring (R298), and the check-value unit (R391–R395). -/
namespace Sys2Proof.Machine

/-- A write of HATCH_ENCCLR; counts that arrive in the same cycle remain (R89). -/
def encClear (s : State) (h : HatchId) (clr : BitVec 16) (arriving : List (BitVec 4 × BitVec 32 × BitVec 32)) : State :=
  let s := (List.range 16).foldl (fun s k => if clr.toNat.testBit k then s.setReg (hatchAt h (0x1000 + 8 * k)) 0 else s) s
  arriving.foldl (fun s x => s.encCount h x.1 x.2.1.toNat x.2.2.toNat) s

/-- A write of CORE_ROWMAP (register 0) or CORE_SKEW(n−1) (R160).  That a BYPASS above 128, which Table 3.13 discards, is counted as
other discarded writes are, and that any byte of CORE_SKEWn is stored, is the model's choice (assumption 112). -/
def rowmapWrite (s : State) (i : CoreId) (reg : Fin 17) (v : Word) : State :=
  if s.standAlone i then
    if reg.val = 0 then (if 128 < bitsOf v 0 8 then s.discard else s.setRf (coreAt i 0x800) 0 8 v.toNat) else s.setReg (coreAt i (0x808 + 8 * reg.val)) v
  else s.discard

/-- CORE_MXTEST.START: ignored unless the core is in stand-alone mode (Table 3.19). -/
def mxStart (s : State) (i : CoreId) : State :=
  if s.standAlone i then (s.modCore i fun c => { c with mxRun := true, lastBand := 0 }).setRf (coreAt i 0x8B8) 1 1 0 else s

/-- The known-pattern test finishes (R161, R162).  The results are those of CORE_MXGOLD when every faulty row is the bypassed
one, nothing else is faulty, and the skew table agrees with the row map (R156, R157, R159); otherwise the check value is a free
one that differs.  The residue checks of the array act on the test's pass as on any other (R164). -/
def mxDone (s : State) (i : CoreId) (faulty : List (BitVec 8)) (otherFault : Bool) : State :=
  if s.clocked i && (s.core i).mxRun then
    let res := (s.core i).residue
    let good := !otherFault && res.isEmpty && skewRight s i && faulty.all fun r => r.toNat == s.rf (coreAt i 0x800) 0 8
    let s := s.mxErrors i 0 (res.map fun x => (1, residueDetail x))
    let (w, s) := s.fresh
    let bad : BitVec 32 := if w.setWidth 32 = mxGold then ~~~mxGold else w.setWidth 32
    let r := if good then mxGold else bad
    (s.modCore i fun c => { c with mxRun := false, active := {}, staged := {}, stagedNew := false, wload := false,
                                   wpar := [], spar := [] }).setReg
      (coreAt i 0x8B8) (BitVec.ofNat 64 (r.toNat * 2 ^ 32 + (if good then 4 else 0) + 2))
  else s

/-- A write of CORE_SACTL (R219, R222, R254); a table swap of the last program that still waits holds the first bundle. -/
def saWrite (s : State) (i : CoreId) (v : Word) : State :=
  let running := s.saStatus i == 1
  if !s.standAlone i then s.discard
  else if running then (if bitOf v 1 then s.saHalt i 5 else s.discard)
  else
    let a := coreAt i 0xA40
    let s := (s.setRf a 40 8 (bitsOf v 40 8)).setRf a 2 2 (bitsOf v 2 2)
    if bitOf v 0 then
      let s := (s.setRf (coreAt i 0xA00) 13 1 (bitsOf v 3 1)).setRf (coreAt i 0xA00) 12 1 (bitsOf v 2 1)
      (s.modCore i fun c => { c with sa := { pc := bitsOf v 40 8, swap := c.sa.swap } }).setSaStatus i 1
    else s

/-- The word of CORE_SACTL that starts a program. -/
def saStartWord (entry : BitVec 8) (keep kx4 : Bool) : Word :=
  BitVec.ofNat 64 (entry.toNat * 2 ^ 40 + (if keep then 8 else 0) + (if kx4 then 4 else 0) + 1)

/-- A domain that gets work no longer meets the conditions of §9.6 for sleep: it wakes, or does not enter sleep (assumption 121). -/
def State.wake (s : State) (p : Fin 8) (d : Domain) : State :=
  let x := s.dom p d
  if x.asleep || x.entering then s.setDom p d { x with waking := x.asleep, entering := false } else s

/-- A hatch whose launch queue fills wakes. -/
def State.wakeHatch (s : State) (h : HatchId) : State := s.wake h.p (.hatch h.h)

/-- Queue a launch image; a full queue or a misaligned address discards the write (Table 6.20). -/
def State.queueLaunch (s : State) (h : HatchId) (v : Word) (key : Option CmsnKey) : State :=
  let a := bitsOf v 0 28
  if 4 ≤ (s.hatch h).lq.length || a % 512 != 0 then s.discard
  else (s.modHatch h fun x => { x with lq := x.lq ++ [(BitVec.ofNat 28 a, key)] }).wakeHatch h

/-- HATCH_SEQSTAT.STATE (Table 6.19): 0 idle, 1 running, 2 pre-empting, 3 fenced. -/
def State.seqState (s : State) (h : HatchId) : Nat :=
  if (s.activeCores h).isEmpty then 3
  else if (s.hatch h).pre then 2
  else if (s.hatch h).run.isSome then 1 else 0

/-- A write of HATCH_TRACEBASE resets NEXT (Table 6.24). -/
def tracebaseWrite (s : State) (h : HatchId) (v : Word) : State :=
  (s.setReg (hatchAt h 0x48) v).setRf (hatchAt h 0x40) 8 24 0

/-! ### The check-value unit (§8.9) -/

/-- A write of CORE_CVCTL (R392–R394); a core out of service, whose clock is gated, starts no run (R299). -/
def cvWrite (s : State) (i : CoreId) (v : Word) : State :=
  let a := coreAt i 0xC20
  let s := s.setRf a 2 4 (bitsOf v 2 4)
  if !bitOf v 0 then s
  else
    let src := s.reg (coreAt i 0xC28)
    if s.standAlone i || s.role i == 3 || s.rf a 8 3 == 1 || 2 ≤ bitsOf v 2 2 || bitsOf src 40 24 == 0 then s.discard
    else ((s.modCore i fun c => { c with cvRun := some (v, src) }).setRf a 8 3 1).setReg (coreAt i 0xC30) 0

/-- The CRC of one line with its address bytes (R391). -/
def crcLine (crc : BitVec 32) (amode n addr : Nat) (bs : List Byte) : BitVec 32 :=
  let pre := if amode = 0 then leBytes 8 addr else if amode = 1 then leBytes 8 (128 * n) else []
  (pre ++ bs).foldl crcByte crc

/-- The lines of a run: the CRC, the first fault with its line, and the state; a core-store word that is uncorrectable
faults the run (R351). -/
def cvLines (i : CoreId) (amode base : Nat) (dev : Bool) : Nat → Nat → State → BitVec 32 → State × Except MFault (BitVec 32)
  | 0, _, s, crc => (s, .ok crc)
  | k + 1, n, s, crc =>
    let a := base + 128 * n
    if dev then
      let (bs, f, s) := devRead s i.p (some i.c) none a 128 (coreEp i)
      match f with
      | some f => (s, .error f)
      | none => cvLines i amode base dev k (n + 1) s (crcLine crc amode n a bs)
    else
      let c := s.core i
      let hit := c.csMarks.filter fun m => readsAt [(a, 128)] (8 * m.1) 8
      let s := hit.foldl (fun s m => match m.2 with
        | .corrected _ => (s.modCore i fun c => { c with csMarks := c.csMarks.filter (· != m) }).flag (coreAt i 0xC00) 0
        | _ => s.flag (coreAt i 0xC00) 1) s
      if hit.any fun m => m.2 == .uncorrectable || m.2 == .poisoned then
        (s, .error { cause := cCstoreUe, suspect := coreUnit i })
      else cvLines i amode base dev k (n + 1) s (crcLine crc amode n a (c.rd a 128))

/-- A run ends with its check value, or on a fault with its record (R391, R395). -/
def cvDone (s : State) (i : CoreId) : State :=
  match (s.core i).cvRun with
  | none => s
  | some (ctl, src) =>
    if !s.clocked i then s else
    let s := s.modCore i fun c => { c with cvRun := none }
    let dev := bitsOf ctl 2 2 == 1
    let base := if dev then bitsOf src 0 39 else bitsOf src 0 25
    let a := coreAt i 0xC20
    match cvLines i (bitsOf ctl 4 2) base dev (bitsOf src 40 24) 0 s 0xFFFFFFFF#32 with
    | (s, .ok crc) =>
      (s.setRf a 8 3 2).setReg (coreAt i 0xC30) (BitVec.ofNat 64 (2 ^ 32 + (crc ^^^ 0xFFFFFFFF#32).toNat))
    | (s, .error f) =>
      (s.setRf a 8 3 3).report (memRec s f 4 i.c.val i.p.val (coreUnit i) false false 0 0)

end Sys2Proof.Machine
end

