-- ==== Sys2Proof/Machine/Net.lean ====
section
/-! DEFINITION. The plate network (chapter 9): endpoints, injection and routes, hops, link groups, power domains and
barriers. -/
namespace Sys2Proof.Machine

/-! ### Power domains (§9.6) -/

/-- The domain of an endpoint. -/
def epDomain : Ep → Option (Fin 8 × Domain)
  | .core i => some (i.p, .hatch i.hatch.h)
  | .hatch i => some (i.p, .hatch i.h)
  | .region i => some (i.p, .region i.r)
  | _ => none

/-! ### Packets -/

def State.inboxOf (s : State) (a : Nat) : List Packet := sget [] s.inbox a
def State.setInbox (s : State) (a : Nat) (l : List Packet) : State := { s with inbox := sset [] s.inbox a l }

/-- The commission that MRG_TAG of a region names, if it runs (R474). -/
def State.regionCmsn (s : State) (i : RegionId) : Option Cmsn :=
  let t := s.reg (regionAt i 0x20)
  if bitOf t 32 then s.engine.cmsns.find? fun c => c.tag.toNat == bitsOf t 0 32 && (c.state == .running || c.state == .preempted)
  else none
/-- That commission is aborted for re-run (R50). -/
def State.abortRegion (s : State) (i : RegionId) (granule : Option Nat := none) : State :=
  match s.regionCmsn i with
  | some c => s.abortCmsn c.key granule
  | none => s


/-! ### User signals of a margin region (R459, R476, R479) -/

/-- The region next to a region in the ring around the core array, upward or downward in number (§11.1; assumption 124). -/
def nextRegion (i : RegionId) (up : Bool) : RegionId := ⟨i.p, if up then i.r + 1 else i.r - 1⟩

/-- The boundary wires that come in from the next region: they pass its isolation gate, and are 0 while it is closed (R459,
Table 11.3). -/
def State.wireIn (s : State) (i : RegionId) (up : Bool) : BitVec 256 :=
  let j := nextRegion i up
  if (s.region j).state == .opened then Config.userWires j.p j.r (!up) s.mod.time else 0

/-- What the user logic drives at its pins as the gates of an OPEN region close, or it goes to sleep: SAFE may hold it (Table 11.7). -/
def State.holdPins (s : State) (i : RegionId) : State :=
  if (s.region i).state == .opened && s.awake i.p (.region i.r) then
    s.modRegion i fun x => { x with pinHeld := Config.userPins i.p i.r s.mod.time }
  else s

/-- The access that is pending at the control window as the gates close ends as one behind closed gates: a read returns 0, a write is
discarded and counted (Table 11.3, R13). -/
def State.shutWindow (s : State) (i : RegionId) : State :=
  match (s.region i).ctl with
  | none => s
  | some (_, write, _) =>
    let s := s.modRegion i fun x => { x with ctl := none, answer := if write then none else some 0 }
    if write then s.discard else s

/-- What closing gates leave behind: the pins are held, and the control window is shut (Table 11.3). -/
def State.shut (s : State) (i : RegionId) : State := (s.holdPins i).shutWindow i

/-! ### The network port of a margin region (§11.6) -/

/-- A stack's real-time port raises or lowers panic; STACK_QOSSTAT counts the assertions (R377). -/
def State.setPanic (s : State) (i : StackId) (n : Nat) (on : Bool) : State :=
  let x := s.stack i
  if x.panic.toNat.testBit n == on then s
  else
    let b := BitVec.ofNat 16 (2 ^ n)
    let s := s.setStack i { x with panic := if on then x.panic ||| b else x.panic &&& ~~~b }
    if on then s.satRf (stackAt i 0x50) 0 32 1 else s

/-- Lines in the write buffer of a region's port (assumption 41). -/
def wbuf (x : RegionSt) : Nat := min 64 x.writes.length

/-- Whether a region's port raises panic (R473). -/
def State.regionPanics (s : State) (i : RegionId) : Bool :=
  (s.region i).panic || ((s.region i).panicIn && s.rf (regionAt i 0x10) 16 1 == 1)

/-- The stacks of the plate see whether a region's port raises panic. -/
def State.regionPanicOut (s : State) (i : RegionId) : State :=
  (List.finRange 4).foldl (fun (s : State) q => s.setPanic ⟨i.p, q⟩ i.r.val (s.regionPanics i)) s

/-- The panic of a region's port follows its write buffer and the user logic's input, on every stack of its plate (R473). -/
def State.regionPanic (s : State) (i : RegionId) : State :=
  let c := s.reg (regionAt i 0x10)
  let hi := max 1 (bitsOf c 0 7)
  let lo := min (bitsOf c 8 7) (hi - 1)
  let s := s.modRegion i fun x =>
    { x with panic := if hi ≤ wbuf x then true else if wbuf x < lo then false else x.panic }
  s.regionPanicOut i

/-- A fault of a region's port: the record, MRG_ERR.NETFLT, and the commission aborted (R472, Table 8.9). -/
def State.regionFault (s : State) (i : RegionId) (f : MFault) (write : Bool) : State :=
  let t := s.reg (regionAt i 0x20)
  let tag : BitVec 32 := if bitOf t 32 then BitVec.ofNat 32 (bitsOf t 0 32) else 0
  ((s.report (memRec s f 3 i.r.val i.p.val (regionUnit i) write false tag 0)).flag (regionAt i 0x28) 0).abortRegion i
    (f.daddr.map fun a => a / 16384)

/-- The unit in error that a response tells, else the line's address; and SYMBOL, 0x7F where no symbol is known (Table 8.7). -/
def errUnit (place : Nat) (bad : Option (BitVec 34)) : Nat := (bad.map fun u => u.toNat).getD (place % 2 ^ 34)
def errSym (status : BitVec 2) : Nat := if status = 3 then 0 else 0x7F

/-- A response at a region's port: an error answers with zeros; read data that returns behind closed gates is discarded
(R471, Table 11.3). -/
def State.regionAnswer (s : State) (i : RegionId) (load : Payload) : State :=
  let go (write : Bool) (tag : BitVec 10) (st : BitVec 2) (data : List Byte) (bad : Option (BitVec 34)) : State :=
    let x := s.region i
    match (if write then x.writes else x.reads).find? fun y => y.1 == tag.toNat with
    | none => s
    | some (_, a, pl) =>
      let x := if write then { x with writes := sdel x.writes tag.toNat } else { x with reads := sdel x.reads tag.toNat }
      let give := write || x.state == .opened
      let s := s.setRegion i { x with netRsp := if give then [(BitVec.ofNat 8 tag.toNat, st, data)] else [] }
      let s := if write then s.regionPanic i else s
      if st = 0 then s
      else
        let q : StackId := ⟨fin 8 (pl / 2 ^ 36), fin 4 (pl / 2 ^ 34)⟩
        s.regionFault i { cause := if st = 1 then cDataUe else if st = 2 then cPoison else cStackdown, daddr := some a.toNat,
                          phys := some (q, errUnit pl bad, errSym st), suspect := stackUnit q } write
  match load with
  | .rdata t st d u => go false t st d u
  | .wack t st => go true t st [] none
  | _ => s

/-- The KIND of a payload (Table 9.4). -/
def kindOf : Payload → BitVec 4
  | .rreq .. => 1
  | .wreq .. => 2
  | .wdata _ => 3
  | .rdata .. => 4
  | .wack .. => 5
  | .barr .. => 10
  | .brel => 11
  | .other k => k

/-- The answer UNREACH to a request (Table 9.5). -/
def unreach : Payload → Option Payload
  | .rreq _ t _ _ => some (.rdata t 3 (List.replicate 128 0))
  | .wreq _ t _ _ _ => some (.wack t 3)
  | _ => none

/-- The link of a group that carries the packets of a source and a destination: a fixed hash over the links that are up (R408). -/
def pickLink (up : Byte) (src dst : BitVec 10) : Option (Fin 8) :=
  let on := (List.finRange 8).filter fun l => up.toNat.testBit l.val
  on[Config.linkHash src dst % max 1 on.length]?

/-- A group accepts a packet for its next hop, unless it accepts none (R408, R410). -/
def RouterSt.accept (r : RouterSt) (pk : Packet) : Packet :=
  let g := pk.route.toNat % 8
  { pk with link := if g < 4 && !r.stopped.contains g then pickLink (sget 0 r.up g) pk.src pk.dst else none }

/-- A packet reaches a router. -/
def RouterSt.take (r : RouterSt) (pk : Packet) : RouterSt := { r with q := r.q ++ [r.accept pk] }

/-- A group that accepts no packets rehashes over its links that are up once every packet it held has gone on (R410). -/
def RouterSt.rehash (r : RouterSt) (g : Nat) : RouterSt :=
  if r.stopped.contains g && !(r.q.any fun pk => pk.route.toNat % 8 == g && pk.link.isSome) then
    let r := { r with stopped := r.stopped.filter (· != g) }
    { r with q := r.q.map fun pk => if pk.route.toNat % 8 = g then r.accept pk else pk }
  else r

/-- Inject a packet at its source's router (R401), with the data of a write request behind it (R398); an entry with V = 0 completes a
request with UNREACH (R405). -/
def State.inject (s : State) (src dst : Nat) (load : Payload) (data : Option (List Byte) := none) : State :=
  let i := routerOf src
  let e := s.routeEntry src dst
  let pk : Packet := { route := routeBits e dst, kind := kindOf load,
                       src := BitVec.ofNat 10 src, dst := BitVec.ofNat 10 dst, vc1 := false, nonW := false, load }
  if bitOf e 52 then s.modRouter i fun r => match data with
    | some d => (r.take pk).take { pk with kind := kindOf (.wdata d), load := .wdata d }
    | none => r.take pk
  else
    let s := s.netFault i 1
    match unreach load with
    | some a => match epOf src with
      | .region i => s.regionAnswer i a
      | _ => s.setInbox src (s.inboxOf src ++ [{ pk with kind := kindOf a, src := pk.dst, dst := pk.src, load := a }])
    | none => s

/-- The requests of a packet as the stack controller queues them. -/
def reqOf (pk : Packet) : Option DReq :=
  match pk.load with
  | .rreq l t c en => some { src := pk.src, tag := t, line := l, write := false, en, data := [], cls := c, age := 0, rt := none,
                             mir := none }
  | .wreq l t c en m => some { src := pk.src, tag := t, line := l, write := true, en, data := [], cls := c, age := 0, rt := none,
                               mir := m }
  | _ => none

/-- The real-time port of a requester at a stack: a region's port of the plate, or the lane receive-buffer channel of a Niuri port
(R377, R451). -/
def rtOf (i : StackId) (src : Nat) : Option (Fin 16) :=
  match epOf src with
  | .region j => if j.p = i.p then some (fin 16 j.r.val) else none
  | _ => if src = 56 then some 8 else if src = 568 then some 9 else if src % 128 = 24 then some (fin 16 (8 + src / 128)) else none

/-- The requests of a stack controller with a packet more at a port: a write request waits for its data, which the source sends next on
the same route, so that a request whose data has been lost gives way to the source's next one (R398); what arrives in a per-function
reset waits, but not at a stack that has failed (R389, R390). -/
def StackSt.arrive (x : StackSt) (i : StackId) (port : Nat) (pk : Packet) : StackSt :=
  let enter (x : StackSt) (d : DReq) : StackSt :=
    if x.resetting && x.state != 3 then { x with wait := x.wait ++ [d] } else { x with queue := x.queue ++ [d] }
  let same (d : DReq) : Bool := d.src == pk.src && d.port.val == port
  match pk.load with
  | .wdata b => match x.half.find? same with
    | some d => enter { x with half := x.half.erase d } { d with data := b }
    | none => x
  | _ => match reqOf pk with
    | some d =>
      let d := { d with rt := rtOf i pk.src.toNat, port := fin 8 port }
      if d.write then { x with half := x.half.filter (fun d => !same d) ++ [d] } else enter x d
    | none => x

/-- A packet reaches its endpoint (R417, R389). -/
def State.arrive (s : State) (a : Nat) (pk : Packet) : State :=
  match epOf a with
  | .stack i q => s.modStack i fun x => x.arrive i q pk
  | .region i => s.regionAnswer i pk.load
  | _ => s.setInbox a (s.inboxOf a ++ [pk])

/-- A packet to a fenced endpoint is discarded, a request answered with UNREACH (R417). -/
def State.fencedDrop (s : State) (i : RouterId) (a : Nat) (pk : Packet) : State :=
  let s := s.flag (routerAt i 8) 6
  match unreach pk.load with
  | some r => s.inject a pk.src.toNat r
  | none => s

/-- A hub hands a packet to endpoint `a` (R400, R415–R417).  A packet for a domain that enters sleep cancels the entry (R416). -/
def State.deliver (s : State) (i : RouterId) (a : Nat) (pk : Packet) : State :=
  let x := epOf a
  let k := pk.kind.toNat
  if k = 0 ∨ 14 ≤ k ∨ x = .absent then s.netFault i 0
  else if s.epFenced x then s.fencedDrop i a pk
  else match epDomain x with
    | some (p, d) =>
      let y := s.dom p d
      let rest := y.asleep || y.entering
      if rest || y.waking || y.reset then
        let s := if rest && !y.waking then s.satRf (netAt p 8) 32 32 1 else s
        s.setDom p d { y with waking := y.waking || rest, entering := false, entry := y.entry ++ [{ pk with dst := BitVec.ofNat 10 a }] }
      else s.arrive a pk
    | none => s.arrive a pk

/-- The class of a packet: 0 REQ, 1 RSP, 2 CTL (Table 9.4). -/
def classOf (k : BitVec 4) : Nat := if k.toNat ≤ 3 then 0 else if k.toNat ≤ 5 then 1 else 2

/-- Whether a packet can leave its router now: its group has accepted it or has no link up (R410, R411), and a full entry queue keeps it
in the network (R415). -/
def movable (s : State) (i : RouterId) (pk : Packet) : Bool :=
  let g := pk.route.toNat % 8
  if g < 4 then pk.link.isSome || sget 0 (s.router i).up g == 0
  else
    let x := epOf (hubEnd i pk.route)
    match epDomain x with
    | some (p, d) =>
      let y := s.dom p d
      s.epFenced x || !(y.asleep || y.entering || y.waking || y.reset)
        || decide ((y.entry.filter fun x => classOf x.kind == classOf pk.kind).length < 32)
    | none => true

/-- PACKET_HOP: the oldest packet of a router that can move goes to the next router or to its endpoint (R401, R404,
R411). -/
def hop (s : State) (i : RouterId) : State :=
  let r := s.router i
  match r.q.find? (movable s i) with
  | none => s
  | some pk =>
    let g := pk.route.toNat % 8
    let s := s.setRouter i ({ r with q := r.q.eraseP (movable s i) }.rehash g)
    if g < 4 then
      let w := g == 3
      let pk := { pk with route := pk.route >>> 3, vc1 := pk.vc1 || (w && pk.nonW), nonW := pk.nonW || !w }
      match meshNext i g with
      | some n =>
        if sget 0 r.up g = 0 then s.netFault i 5 (linkGroup i (meshOf g))
        else s.modRouter n fun x => x.take pk
      | none => s.netFault i 5 (linkGroup i (meshOf g))
    else
      s.deliver i (hubEnd i pk.route) pk

/-! ### Links (R409–R411) -/

/-- The links of a group change: it accepts no packets until those it holds have gone on (R410). -/
def RouterSt.relink (r : RouterSt) (g l : Nat) (up : Byte) : RouterSt :=
  { r with up := sset 0 r.up g up, replays := sdel r.replays (8 * g + l),
           stopped := if r.stopped.contains g then r.stopped else r.stopped ++ [g] }.rehash g

/-- LINK_UP: a link comes up. -/
def linkUp (s : State) (i : RouterId) (m : Mesh) (l : Fin 8) : State :=
  if (meshNext i (meshCode m)).isNone then s
  else s.modRouter i fun r => r.relink (meshCode m) l.val (sget 0 r.up (meshCode m) ||| BitVec.ofNat 8 (2 ^ l.val))

/-- LINK_DOWN: a link goes down; with no link left the packets that wait for the group are discarded and counted (R411). -/
def linkDown (s : State) (i : RouterId) (m : Mesh) (l : Fin 8) : State :=
  let r := s.router i
  let up := sget 0 r.up (meshCode m)
  if !up.toNat.testBit l.val then s
  else
    let up := up &&& ~~~(BitVec.ofNat 8 (2 ^ l.val))
    let s := s.setRouter i (r.relink (meshCode m) l.val up)
    let s := s.netFault i 4 (linkGroup i m)
    if up ≠ 0 then s
    else
      let lost := r.q.filter fun pk => pk.route.toNat % 8 == meshCode m
      let s := s.modRouter i fun r => { r with q := r.q.filter fun pk => pk.route.toNat % 8 != meshCode m }.rehash (meshCode m)
      lost.foldl (fun s _ => s.netFault i 5 (linkGroup i m)) s

/-- LINK_REPLAY: a flit is replayed; more than RMAX replays within 1 ms take the link down (R409). -/
def linkReplay (s : State) (i : RouterId) (m : Mesh) (l : Fin 8) : State :=
  let r := s.router i
  let k := 8 * meshCode m + l.val
  if !(sget 0 r.up (meshCode m)).toNat.testBit l.val then s
  else
    let ts := (sget [] r.replays k).filter (fun t => (s.mod.time - t).toNat < 1000000) ++ [s.mod.time]
    let s := (s.setRouter i { r with replays := sput r.replays k ts }).netFault i 3 (linkGroup i m)
    if s.rf (netAt i.p 0) 16 8 < ts.length then linkDown s i m l else s

/-! ### The route table (R403) -/

/-- Whether the mesh steps of a route are legal from router `i`: each has links, none reverses the one before, and at most
one W step comes next after a step that is not W. -/
def stepsOk (i : RouterId) (last : Option Nat) (used : Nat) : List Nat → Bool
  | [] => true
  | g :: r =>
    let turn := match last with
      | some l => (l + 2) % 4 == g
      | none => false
    let used := if g = 3 && (last.filter (· != 3)).isSome then used + 1 else used
    match meshNext i g with
    | some n => g < 4 && !turn && used ≤ 1 && stepsOk n (some g) used r
    | none => false

/-- Whether a route passes every check of R403. -/
def routeOk (i : RouterId) (v : Word) : Bool :=
  let n := bitsOf v 48 4
  let gs := (List.range n).map fun k => bitsOf v (3 * k) 3
  decide (1 ≤ n) && decide (4 ≤ nth 0 gs (n - 1)) && (gs.take (n - 1)).all (· < 4) && stepsOk i none 0 (gs.take (n - 1))

/-- NET_RTE_WRITE: stored, or refused with BADROUTE, discarded and counted (R403). -/
def rteWrite (s : State) (i : RouterId) (e : Fin 256) (v : Word) : State :=
  if routeOk i v then s.setReg (routerAt i (0x800 + 8 * e.val)) (v &&& 0x1FFFFFFFFFFFFF)
  else (s.flag (routerAt i 8) 2).discard

/-! ### Sleep and wake (R415–R418) -/

/-- Whether a domain may sleep: it runs no commission, and no request of it is outstanding (§9.6). -/
def domIdle (s : State) (p : Fin 8) : Domain → Bool
  | .hatch h =>
    let x := s.hatch ⟨p, h⟩
    x.run.isNone && x.saved.isNone && x.lq.isEmpty && (hatchCores ⟨p, h⟩).all fun i => (s.core i).outst.isEmpty && (s.core i).cvRun.isNone
  | .region r =>
    let x := s.region ⟨p, r⟩
    x.reads.isEmpty && x.writes.isEmpty && s.rf (regionAt ⟨p, r⟩ 0x20) 32 1 == 0

/-- The sleep-request bit of a domain in NET_PWR. -/
def sleepBit : Domain → Nat
  | .hatch h => h.val
  | .region r => 4 + r.val

/-- Whether a sleep request of a domain can take effect (§9.6, R418). -/
def State.maySleep (s : State) (p : Fin 8) (d : Domain) : Bool :=
  let x := s.dom p d
  bitOf (s.reg (netAt p 8)) (sleepBit d) && domIdle s p d && x.entry.isEmpty && !x.asleep && !x.waking && !x.reset

/-- DOMAIN_SLEEP_ENTER: a domain with a sleep request that meets the conditions begins to enter sleep; one that is entering sleeps,
unless a condition has failed since (R416, R418; assumption 119). -/
def sleepEnter (s : State) (p : Fin 8) (d : Domain) : State :=
  let x := s.dom p d
  if s.maySleep p d then
    let s := match d with
      | .region r => if x.entering then s.holdPins ⟨p, r⟩ else s
      | .hatch _ => s
    s.setDom p d { x with asleep := x.entering, entering := !x.entering }
  else if x.entering then s.setDom p d { x with entering := false }
  else s

/-- Hand the packets of an entry queue over in arrival order, each to the endpoint where its route ended. -/
def State.drainEntry (s : State) (p : Fin 8) (d : Domain) : State :=
  let x := s.dom p d
  x.entry.foldl (fun s pk =>
    let a := pk.dst.toNat
    if s.epFenced (epOf a) then s.fencedDrop (routerOf a) a pk else s.arrive a pk) (s.setDom p d { x with entry := [] })

/-- DOMAIN_WAKE_COMPLETE: the domain is awake and its entry queue drains (R415). -/
def wakeDone (s : State) (p : Fin 8) (d : Domain) : State :=
  let x := s.dom p d
  if x.waking then
    let s := s.setDom p d { x with asleep := false, waking := false }
    if x.reset then s else s.drainEntry p d
  else s

/-- NET_PWR_WRITE: sleep requests are stored; clearing one wakes its domain (R418). -/
def pwrWrite (s : State) (p : Fin 8) (v : Word) : State :=
  let a := netAt p 8
  let ds : List Domain := (List.finRange 4).map Domain.hatch ++ (List.finRange 8).map Domain.region
  let s := s.setRf a 0 12 (bitsOf v 0 12)
  ds.foldl (fun s d =>
    let x := s.dom p d
    if bitOf v (sleepBit d) then s
    else if x.asleep then s.setDom p d { x with waking := true }
    else if x.entering then s.setDom p d { x with entering := false }
    else s) s

/-! ### Barriers (R413, R414) -/

/-- The counter of a barrier group. -/
def State.bar (s : State) (p : Option (Fin 8)) (g : BitVec 4) : BarSt :=
  match p with
  | some p => sget {} (s.plate p).bars g.toNat
  | none => sget {} s.engine.mbars g.toNat
def State.setBar (s : State) (p : Option (Fin 8)) (g : BitVec 4) (x : BarSt) : State :=
  match p with
  | some p => s.modPlate p fun y => { y with bars := sset {} y.bars g.toNat x }
  | none => s.modEngine fun y => { y with mbars := sset {} y.mbars g.toNat x }

/-- BARR: the oldest arrival at a barrier unit is counted; a full group is released, and an arrival with another count sends
a record and aborts its commission (R414).  An arrival of a hatch that no longer waits is dropped. -/
def barrTake (s : State) (p : Option (Fin 8)) : State :=
  let a := match p with
    | some p => agentEp p
    | none => moduleBarEp
  match (s.inboxOf a).find? fun pk => pk.kind == 10 with
  | none => s
  | some pk =>
    let s := s.setInbox a ((s.inboxOf a).eraseP fun pk => pk.kind == 10)
    match pk.load with
    | .barr _ g n k f =>
      let live := (match (s.hatch f).run with
        | some l => l.key == k
        | none => false) && (s.hatch f).seq.arrived
      if !live then s
      else
        let x := s.bar p g
        if !x.arrived.isEmpty && x.count != n then
          (s.reportFlag 0 (hatchUnit f) 0x01 2 (s.tagQ (.hatch f)) (s.hatch f).seq.pc 5).abortHatch f
        else
          let x : BarSt := { count := n, arrived := x.arrived ++ [f] }
          if n.toNat ≤ x.arrived.length then
            x.arrived.foldl (fun s h => s.inject a (hatchEpAddr h) .brel) (s.setBar p g {})
          else s.setBar p g x
    | _ => s

/-- BREL: a release reaches a hatch that waits at a barrier (R414). -/
def brelTake (s : State) (i : HatchId) : State :=
  let a := hatchEpAddr i
  if (s.inboxOf a).any fun pk => pk.kind == 11 then
    let s := s.setInbox a ((s.inboxOf a).eraseP fun pk => pk.kind == 11)
    if (s.hatch i).seq.arrived then s.modHatch i fun x => { x with seq := { x.seq with release := true } } else s
  else s

end Sys2Proof.Machine
end

