-- ==== Sys2Proof/Machine/Dram.lean ====
section
/-! DEFINITION. The stack controllers (§8.7): scheduling and panic, the page policy, refresh, the patrol, row retirement and
the per-function reset of a stack. -/
namespace Sys2Proof.Machine

/-! ### Scheduling (R375–R379) -/

/-- The location of a request. -/
def reqLoc (s : State) (i : StackId) (d : DReq) : Loc := locOf (s.order i) d.line.toNat

/-- Whether a request's row is open. -/
def rowOpen (s : State) (i : StackId) (d : DReq) : Bool :=
  let l := reqLoc s i d
  sget 0 (s.stack i).rows (bankKey l) == l.row + 1

/-- The urgency of a request (R376); the privileged class is told by its source: the journal writer of the commission
engine, the map walker of a translation unit, or the scrubber. -/
def urgency (s : State) (i : StackId) (d : DReq) : Option Nat :=
  let q := s.reg (stackAt i 8)
  if d.cls.toNat = 1 then
    let t16 := match epOf d.src.toNat with
      | .service _ 5 => bitsOf q 40 8
      | .service _ 7 => bitsOf q 48 8
      | _ => bitsOf q 32 8
    some (min 7 (8 * d.age / (16 * max 1 t16)))
  else if d.cls = 0 ∧ bitsOf q 16 16 ≠ 0 ∧ bitsOf q 16 16 < d.age then some 7
  else none

/-- Whether a request is held by the row copy of a retirement (R386). -/
def bankBlocked (s : State) (i : StackId) (d : DReq) : Bool :=
  match (s.stack i).retire with
  | some w => let l := reqLoc s i d
    l.bank == bitsOf w 46 4 && l.ch == bitsOf w 42 4 && l.sid == bitsOf w 40 2
  | none => false

/-- Whether two requests access one 64-byte unit. -/
def DReq.meets (d e : DReq) : Bool :=
  d.line == e.line && [0, 64].any fun o => (fld d.en.toNat o 64 != 0) && fld e.en.toNat o 64 != 0

/-- The requests of a queue that no earlier one to the same unit holds back (R379). -/
def unordered (seen : List DReq) : List DReq → List DReq
  | [] => []
  | d :: r => if seen.any d.meets then unordered (seen ++ [d]) r else d :: unordered (seen ++ [d]) r

/-- The request that a channel serves next (R377), those to one unit in the order in which they came (R379). -/
def pickReq (s : State) (i : StackId) (ch : Nat) : Option DReq :=
  let x := s.stack i
  let qs := (unordered [] x.queue).filter fun d => (reqLoc s i d).ch == ch && !bankBlocked s i d
  let pan (n : Nat) : Bool := x.panic.toNat.testBit n && (s.rf (stackAt i 8) 0 16).testBit n
  let order := (List.range 16).map fun k => (x.rr + k) % 16
  let rt := order.findSome? fun n => if pan n then qs.find? fun d => match d.rt with
    | some m => m.val == n
    | none => false else none
  let urgent := [7, 6, 5, 4].findSome? fun u => qs.find? fun d => urgency s i d == some u
  rt <|> urgent <|> qs.find? (rowOpen s i) <|> qs.head?

/-- The commission that owns a request is aborted (R50): the kernel that made it still runs, also when an FDROP has ended its transfer, or
its region's access has not ended. -/
def State.abortOwner (s : State) (d : DReq) : State :=
  match epOf d.src.toNat with
  | .core i =>
    if (s.core i).outst.any fun r => r.tag == d.tag && r.mine then s.abortCore i else s
  | .region i =>
    let x := s.region i
    if (if d.write then x.writes else x.reads).any fun y => y.1 == d.tag.toNat then s.abortRegion i else s
  | _ => s

/-- Answer a request with a status from the port at which it came (R402); read data with an error tells the unit in error. -/
def State.answer (s : State) (i : StackId) (d : DReq) (status : BitVec 2) (data : List Byte) (bad : Option (BitVec 34) := none) : State :=
  s.inject (stackEp i d.port.val) d.src.toNat
    (if d.write then .wack d.tag status else .rdata d.tag status data bad)

/-- Perform a request on the DRAM and answer it (R379–R384, R369). -/
def State.perform (s : State) (i : StackId) (d : DReq) : State :=
  let a := d.line.toNat
  let on := (List.range 128).filter fun j => d.en.toNat.testBit j
  if d.write then
    let ws := on.map fun j => (a + j, nth 0 d.data j)
    let (f, s) := physWrite s i ws
    let s := match d.mir, f with
      | some (g, proof, slot, o), none => if s.pairedMode then
          s.mirrorSend ((runsOf (on.map fun j => (j, nth 0 d.data j))).map fun (r : Nat × List Byte) =>
            ({ granule := g, proof, slot, offset := o + BitVec.ofNat 14 r.1, bytes := r.2 } : MirrorMsg))
        else s
      | _, _ => s
    s.answer i d (if f.isSome then 3 else 0) []
  else
    let (bs, f, s) := [0, 64].foldl (fun (r : List Byte × Option MFault × State) o =>
      if on.any fun j => j / 64 == o / 64 then
        let (b, f, s) := physRead r.2.2 i (a + o) 64
        (r.1 ++ b, r.2.1.orElse fun _ => f, s)
      else (r.1 ++ List.replicate 64 0, r.2.1, r.2.2)) ([], none, s)
    let st : BitVec 2 := match f with
      | none => 0
      | some f => if f.cause = cDataUe then 1 else if f.cause = cPoison then 2 else 3
    s.answer i d st (if st = 0 then bs else List.replicate 128 0) ((f.bind fun f => f.phys).map fun x => BitVec.ofNat 34 x.2.1)

/-- DRAM_SCHEDULE: one controller cycle of a channel (R377). -/
def schedule (s : State) (i : StackId) (ch : Fin 16) : State :=
  let x := s.stack i
  if x.state = 3 then
    match x.queue with
    | [] => s
    | d :: r => (s.setStack i { x with queue := r }).answer i d 3 (List.replicate 128 0)
  else if x.state ≠ 1 ∨ x.resetting then s
  else
    let older (l : List DReq) : List DReq :=
      l.map fun e => if (reqLoc s i e).ch = ch.val then { e with age := e.age + 1 } else e
    match pickReq s i ch.val with
    | none => s.setStack i { x with queue := older x.queue }
    | some d =>
      let rr := match d.rt with
        | some n => if x.panic.toNat.testBit n.val then (n.val + 1) % 16 else x.rr
        | none => x.rr
      (s.setStack i { x with queue := older (x.queue.erase d), rr }).perform i d

/-- PANIC_DEADLINE_MISS: a panicking port was not served within 200 ns (R378). -/
def deadlineMiss (s : State) (i : StackId) (port : Fin 16) (cycles : BitVec 32) : State :=
  if (s.stack i).panic.toNat.testBit port.val then
    let a := stackAt i 0x50
    let s := s.setRf a 32 32 (max (s.rf a 32 32) cycles.toNat)
    (s.flag (stackAt i 0x18) 2).reportFlag (stackUnit i) (stackUnit i) 0x09 2
  else s

/-- PAGE_IDLE_CLOSE: a bank closes its row (R375). -/
def pageClose (s : State) (i : StackId) (ch : Fin 16) (sid : Fin 3) (bank : Fin 16) : State :=
  s.modStack i fun x => { x with rows := sdel x.rows ((ch.val * 3 + sid.val) * 16 + bank.val) }

/-- REFRESH: the rate follows the temperature, with 3 °C of hysteresis (R388). -/
def refresh (s : State) (i : StackId) (temp : BitVec 8) : State :=
  let t := temp.toNat
  let x := s.stack i
  let up := if 95 ≤ t then 2 else if 85 ≤ t then 1 else 0
  let keep := if x.refrate.toNat = 2 ∧ 92 < t then 2 else if 1 ≤ x.refrate.toNat ∧ 82 < t then 1 else 0
  (s.setStack i { x with temp, refrate := BitVec.ofNat 2 (max up keep) }).gauge 0x0104 i.key t

/-- Units of a stack: 12 GiB of 64 bytes (Table 8.10). -/
def stackUnits : Nat := 0xC000000

/-- PATROL_READ: the patrol reads the next unit (R385); a fault is reported (Table 8.9). -/
def patrol (s : State) (i : StackId) : State :=
  let x := s.stack i
  if s.rf (stackAt i 0) 24 8 = 0 ∨ x.state ≠ 1 ∨ x.resetting then s
  else
    let a := x.patrol % stackUnits * 64
    let (_, f, s) := physRead (s.await i a 64) i a 64
    let s := s.modStack i fun x => { x with patrol := (x.patrol + 1) % stackUnits }
    match f with
    | some f => s.report (memRec s f 8 i.s.val i.p.val (stackUnit i) false false 0 0)
    | none => s

/-! ### Row retirement (R386, R387) -/

/-- The retirement entries of a stack. -/
def retEntries (s : State) (i : StackId) : List Word :=
  (List.range 256).map fun k => sget 0 s.nv.ret (256 * i.key + k)

/-- ROW_RETIRE_COMPLETE: errors move as poison, corrected data stays, and the mapping is entered; or RETFULL, and the steward has the
row's granules to move (R387).  The steward then retires the next row that is due. -/
def retireDone (s : State) (i : StackId) : State :=
  match (s.stack i).retire with
  | none => s
  | some w =>
    let es := retEntries s i
    let used := es.filter fun e => bitOf e 0
    let spare := (List.range 4).find? fun k => !(used.any fun e => bitsOf e 40 10 == bitsOf w 40 10 && bitsOf e 1 2 == k)
    let free := firstIdx 256 fun k => !bitOf (nth 0 es k) 0
    let s := (s.modStack i fun x => { x with retire := none }).setRf (stackAt i 0x48) 1 1 0
    match spare, free with
    | some k, some n =>
      let inRow (u : Nat) : Bool :=
        let l := locOf (s.order i) (64 * u)
        l.row == bitsOf w 50 14 && l.bank == bitsOf w 46 4 && l.ch == bitsOf w 42 4 && l.sid == bitsOf w 40 2
      let move (m : Nat × Mark) : Option (Nat × Mark) :=
        if inRow m.1 then (match m.2 with
          | .corrected _ => none
          | _ => some (m.1, .poisoned))
        else some m
      let s := (s.setRf (stackAt i 0x48) 2 1 0).modStack i fun x => { x with marks := x.marks.filterMap move }
      let ret := sset 0 s.nv.ret (256 * i.key + n) (w ||| BitVec.ofNat 64 (2 * k + 1))
      let s := { s with nv := { s.nv with ret } }
      (s.tel 0x0503 i.key).retireNext i
    | _, _ =>
      let s := ((s.setRf (stackAt i 0x48) 2 1 1).flag (stackAt i 0x18) 3).modStack i fun x =>
        { x with failed := if x.failed.contains w then x.failed else x.failed ++ [w] }
      s.retireNext i

/-! ### The map as a whole, and failed stacks (R389, R390) -/

/-- The granules with a non-zero entry in the map, by the primary copy, or by the secondary where the primary's stack has failed. -/
def mapped (s : State) : List Nat :=
  plateIds.flatMap fun p =>
    let (i, a) := mapPlace s (16 * p.val) ((s.stack (mapPlace s (16 * p.val) false).1).state == 3)
    (((s.stack i).mem.filter fun m => decide (a ≤ m.1 ∧ m.1 < a + 0x2000000)).map fun m =>
      ((m.1 - a) / 128 * 8 + p.val) * 16 + (m.1 - a) % 128 / 8).eraseDups

/-- Remove granules from every cache of a plate (R359). -/
def State.invalPlate (s : State) (p : Fin 8) (g n : Nat) : State :=
  let s := s.modPlate p fun x => { x with l2 := sclear x.l2 g n }
  (List.finRange 36).foldl (fun s c => if (s.core ⟨p, c⟩).l1.isEmpty then s
    else s.modCore ⟨p, c⟩ fun x => { x with l1 := sclear x.l1 g n }) s
/-- The per-function reset of a stack controller starts (R389); a stack that has failed stays so (R390). -/
def stackResetGo (s : State) (i : StackId) : State :=
  let x := s.stack i
  let cfg := s.reg (stackAt i 0)
  let s := s.setStack i { x with queue := [], resetting := true, state := if x.state = 3 then 3 else 2, rows := [], panic := 0,
                                 retire := none, temp := 0, refrate := 0,
                                 due := x.due ++ x.retire.toList }
  let s := x.queue.foldl (fun s d => (s.answer i d 3 (List.replicate 128 0)).abortOwner d) s
  let s := s.setReg (stackAt i 0) (withBits (resetOf (stackAt i 0)) 16 2 (bitsOf cfg 16 2))
  [8, 0x18, 0x40, 0x48, 0x50].foldl (fun s o => s.setReg (stackAt i o) (resetOf (stackAt i o))) s

end Sys2Proof.Machine
end

