-- ==== Sys2Proof/Machine/HandleQ.lean ====
section
/-! DEFINITION. The registers of handle queues and the wait limit (R329, R337, R338, R348). -/
namespace Sys2Proof.Machine

/-- The handle of buffer `k` of a queue with GEN `g` (Table 7.6). -/
def handleOf (q pool bufsz k g : Nat) : Word :=
  BitVec.ofNat 64 ((pool + k * bufsz * 128) % 2 ^ 39 + k * 2 ^ 40 + q % 256 * 2 ^ 48 + g * 2 ^ 56)

/-- Whether the queue is quiescent: nothing published, nothing held (R348). -/
def hqQuiet (x : HqSt) : Bool := x.pub.isEmpty && x.held.isEmpty

/-- A write of HQ_POOL; the free handles name the buffers of the new pool (R329). -/
def hqPoolWrite (s : State) (p : Fin 8) (q : Nat) (v : Word) : State :=
  let x := s.hq p q
  if hqQuiet x then
    let pool := bitsOf v 0 39
    let sz := s.rf (queueAt p q 8) 48 16
    (s.setReg (queueAt p q 0) (BitVec.ofNat 64 pool)).setHq p q
      { x with free := x.free.map fun w => handleOf q pool sz (hSlot w) (bitsOf w 56 8) }
  else s.discard

/-- A write of HQ_CFG. -/
def hqCfgSet (s : State) (p : Fin 8) (q : Nat) (v : Word) : State :=
  let x := s.hq p q
  if hqQuiet x then
    let nbuf := bitsOf v 16 9
    let ok := nbuf != 0 && decide (nbuf ≤ 256) && bitsOf v 48 16 != 0 && bitsOf v 0 8 != bitsOf v 8 8
    let v := v &&& 0xFFFFFFFF03FFFFFF#64
    let s := s.setReg (queueAt p q 8) (if bitOf v 25 && !ok then withBits v 25 1 0 else v)
    if bitOf v 25 && ok then
      let pool := s.rf (queueAt p q 0) 0 39
      s.setHq p q { x with free := (List.range nbuf).map fun k => handleOf q pool (bitsOf v 48 16) k 0 }
    else s
  else s.discard

/-- HQ_CTL.RESET: every handle returns to the free list (R338). -/
def hqResetAll (s : State) (p : Fin 8) (q : Nat) : State :=
  let x := s.hq p q
  s.setHq p q { x with free := x.free ++ x.held.map fun (h : Byte × Word) => genUp h.2, held := [] }.reorder

/-- A take or a publish has waited HQ_CFG.TOUT: that of the endpoint that has waited longest (R337).  A kernel that serves no commission
of the engine ends with the same reason. -/
def hqTimedOut (s : State) (p : Fin 8) (q : Nat) : State :=
  let x := s.hq p q
  match x.wait with
  | [] => s
  | (ep, k) :: rest =>
    if s.rf (queueAt p q 8) 32 16 = 0 then s
    else
      let h : HatchId := ⟨fin 8 (ep.toNat / 32), fin 4 ep.toNat⟩
      let run := if ep.toNat % 32 < 4 then (s.hatch h).run else none
      let tag := match k.bind s.cmsn, run with
        | some c, _ => c.tag
        | none, some l => l.tag
        | none, none => 0
      let s := ((s.setHq p q { x with wait := rest }).flag (queueAt p q 0x20) 0).reportFlag 0 (unitId 7 p.val 0) 0x0A 0 tag
      match k with
      | some k => s.endCmsn k 0x24
      | none => if run.isSome then s.endHatch h 0x24 else s

end Sys2Proof.Machine
end

