-- ==== Sys2Proof/Machine/Planner.lean ====
section
/-! DEFINITION. The tile planner and the loader of a plate: plan table (R339, R340), launches (R341–R345, R667), the loader's
checks (R346, R347), and pre-emption (R571–R574). -/
namespace Sys2Proof.Machine

/-! ### What is in service -/

/-- Whether a hatch is in service: its plate is, and it has an active core (R29). -/
def State.hatchServes (s : State) (h : HatchId) : Bool := s.plateUp h.p && !(s.activeCores h).isEmpty

/-- Whether a hatch in service can take a kernel: no per-function reset of it runs. -/
def State.hatchUp (s : State) (h : HatchId) : Bool := s.hatchServes h && !(s.dom h.p (.hatch h.h)).reset

/-- The hatches of a plate that are in service. -/
def State.hatchesUp (s : State) (p : Fin 8) : List HatchId :=
  ((List.finRange 4).map fun h => (⟨p, h⟩ : HatchId)).filter s.hatchUp

/-- The plates other than `p` with a hatch in service, in rising number modulo 8. -/
def State.otherPlates (s : State) (p : Fin 8) : List (Fin 8) :=
  ((List.range 7).map fun k => fin 8 (p.val + k + 1)).filter fun q => !(s.hatchesUp q).isEmpty

/-! ### The plan table (Table 7.8) -/

/-- A plan-table entry. -/
structure PlanEntry where
  w : List Nat
  deriving DecidableEq, Repr

def PlanEntry.at (e : PlanEntry) (i lo n : Nat) : Nat := fld (nth 0 e.w i) lo n
def PlanEntry.hmin (e : PlanEntry) : Nat := e.at 0 22 6
def PlanEntry.hmax (e : PlanEntry) : Nat := e.at 0 28 6
def PlanEntry.pspan (e : PlanEntry) : Nat := e.at 0 34 3
def PlanEntry.foot (e : PlanEntry) : Nat := e.at 6 32 28

/-- Whether an entry is well formed (R340): the bits that Table 7.8 marks 0 are those of words 0, 4 and 7. -/
def PlanEntry.ok (e : PlanEntry) : Bool :=
  decide (e.at 0 20 2 ≤ 2) && decide (1 ≤ e.hmin ∧ e.hmin ≤ 32) && decide (e.hmin ≤ e.hmax ∧ e.hmax ≤ 32)
    && e.at 4 32 16 != 0 && e.at 4 32 16 % 32 == 0
    && e.at 0 37 27 == 0 && e.at 4 58 6 == 0 && nth 0 e.w 7 == 0

/-- Whether an entry serves a commission (R340). -/
def PlanEntry.fits (e : PlanEntry) (c : Cmsn) (hatches plates : Nat) : Bool :=
  let pair := e.at 0 16 4
  let det := e.at 0 20 2
  let inRange (k : Nat) : Bool :=
    let v := leAt c.body (16 + 4 * k) 4
    decide (e.at (1 + k) 0 32 ≤ v ∧ v ≤ e.at (1 + k) 32 32)
  e.ok && e.at 0 0 16 == leAt c.body 0 2 && (pair == 15 || pair == leAt c.body 2 1 % 16)
    && (det == 0 || (det == 1) == c.modes.det)
    && inRange 0 && inRange 1 && inRange 2 && decide (e.hmin ≤ hatches) && decide (e.pspan ≤ plates)

/-- The first entry from number `n` that serves a commission. -/
def planScan (c : Cmsn) (p : Fin 8) (base hatches plates : Nat) : Nat → Nat → State → Option PlanEntry × State
  | 0, _, s => (none, s)
  | k + 1, n, s =>
    let (bs, bad, s) := psRead s p (base + 64 * n) 64
    let s := if bad then s.pstoreUe p c.tag else s
    let e : PlanEntry := { w := (List.range 8).map fun i => leAt bs (8 * i) 8 }
    if e.fits c hatches plates then (some e, s) else planScan c p base hatches plates k (n + 1) s

/-! ### Launching -/

/-- Priority of a commission (Table 13.1). -/
def Cmsn.prio (c : Cmsn) : Nat := leAt c.body 3 1 % 4

/-- Whether commission `a` is served before `b`: by priority, then by acceptance order (R341). -/
def Cmsn.before (a b : Cmsn) : Bool := decide (b.prio < a.prio) || (a.prio == b.prio && decide (a.order < b.order))

/-- The first of a list in an order. -/
def bestBy {α : Type} (lt : α → α → Bool) (l : List α) : Option α :=
  l.foldl (fun (a : Option α) x => match a with
    | none => some x
    | some y => if lt x y then some x else some y) none

/-- The commission that may launch on plate `p` (R341). -/
def State.firstReady (s : State) (p : Fin 8) : Option Cmsn :=
  bestBy Cmsn.before (s.engine.cmsns.filter fun c => c.plate == p && c.state == .ready && !c.held)

/-- Whether a hatch is free for commission `k`: idle, with no image waiting, and with no saved state but that of a victim
whose hatches `k` has obtained (R341, R571). -/
def State.hatchFree (s : State) (k : CmsnKey) (h : HatchId) : Bool :=
  let x := s.hatch h
  s.hatchUp h && x.run.isNone && x.lq.isEmpty && match x.saved with
    | none => true
    | some v => match v.launch.key.bind s.cmsn with
      | some c => c.byCmsn == some k
      | none => false

/-- The hatches that a commission may take, in plate order; RES3 of each plate is kept back for priority 3 (R341, R342). -/
def State.takeable (s : State) (c : Cmsn) (e : PlanEntry) : List HatchId :=
  (c.plate :: (s.otherPlates c.plate).take e.pspan).flatMap fun p =>
    let free := (s.hatchesUp p).filter (s.hatchFree c.key)
    let keep := if c.prio = 3 then 0 else min 4 (s.rf (plateAt p 0x1008) 0 3)
    free.take (free.length - keep)

/-- How many hatches a commission could take with the hatches `gain` pre-empted for it; RES3 is kept back all the same (R342, R571). -/
def State.reach (s : State) (c : Cmsn) (e : PlanEntry) (gain : List HatchId) : Nat :=
  ((c.plate :: (s.otherPlates c.plate).take e.pspan).map fun p =>
    let free := ((s.hatchesUp p).filter (s.hatchFree c.key)).length + (gain.filter fun h => h.p == p).length
    free - (if c.prio = 3 then 0 else min 4 (s.rf (plateAt p 0x1008) 0 3))).sum

/-- Whether a commission is running or pre-empted. -/
def State.liveCmsn (s : State) (k : CmsnKey) : Bool :=
  match s.cmsn k with
  | some c => c.state == .running || c.state == .preempted
  | none => false

/-- The lowest plate group, and the lowest module group, that no running or pre-empted commission holds (R667). -/
def State.freePgroup (s : State) (p : Fin 8) : Option Nat :=
  firstIdx 16 fun g => !((s.plate p).bgroups.any fun x => x.1.toNat == g && s.liveCmsn x.2)
def State.freeMgroup (s : State) : Option Nat :=
  firstIdx 16 fun g => !(s.engine.mgroups.any fun x => x.1.toNat == g && s.liveCmsn x.2)

/-- A commission takes a plate group, or a module group, with its counter clear. -/
def State.takePgroup (s : State) (k : CmsnKey) (p : Fin 8) (g : BitVec 4) : State :=
  s.modPlate p fun y => { y with bgroups := (y.bgroups.filter fun x => x.1 != g) ++ [(g, k)], bars := y.bars.filter fun b => b.1 != g.toNat }
def State.takeMgroup (s : State) (k : CmsnKey) (g : BitVec 4) : State :=
  s.modEngine fun y => { y with mgroups := (y.mgroups.filter fun x => x.1 != g) ++ [(g, k)], mbars := y.mbars.filter fun b => b.1 != g.toNat }

/-- A 64-byte tensor descriptor's coarse scale, read by the planner as a non-owner (R344). -/
def planScale (s : State) (c : Cmsn) (n : Nat) : Except MFault (BitVec 32) × State :=
  let (bs, f, s) := devRead s c.plate none none (leAt c.body (48 + 8 * n) 8 + 40) 4 (agentEp c.plate)
  match f with
  | some f => (.error f, s)
  | none => (.ok (BitVec.ofNat 32 (leNat bs)), s)

/-- What keeps a launch from its arguments: no plan, or a memory fault (R344). -/
inductive PlanStop where
  | noPlan
  | fault (f : MFault)
  deriving DecidableEq, Repr

/-- The value of an ARG selector (Table 7.9). -/
def argOf (s : State) (c : Cmsn) (e : PlanEntry) (sel : Nat) : Except PlanStop Word × State :=
  let a := fld sel 8 24
  let ok (v : Nat) : Except PlanStop Word × State := (.ok (BitVec.ofNat 64 v), s)
  match sel % 256 with
  | 0 => ok 0
  | 1 => (.ok (BitVec.ofInt 64 (sgn 24 a)), s)
  | 2 => if a < 8 then ok (leAt c.body (16 + 4 * a) 4) else (.error .noPlan, s)
  | 3 => if a < 16 then ok (leAt c.body (48 + 8 * a) 8) else (.error .noPlan, s)
  | 4 => if a < 3 then ok (e.at 4 (16 * a) 16) else if a = 3 then ok (e.at 4 50 8) else (.error .noPlan, s)
  | 5 =>
    let i := fld a 0 8
    let j := fld a 8 8
    if 16 ≤ i ∨ 16 ≤ j then (.error .noPlan, s)
    else match planScale s c i with
      | (.error f, s) => (.error (.fault f), s)
      | (.ok x, s) => match planScale s c j with
        | (.error f, s) => (.error (.fault f), s)
        | (.ok y, s) =>
          let v := (roundFloat .b32 false true (vMul (Fmt.b32.decode x.toNat) (Fmt.b32.decode y.toNat)).1).1
          (.ok (BitVec.ofNat 64 v), s)
  | _ => (.error .noPlan, s)

/-- ARG1 to ARG24 from the selectors of a footprint template. -/
def argsOf (c : Cmsn) (e : PlanEntry) (tmpl : List Byte) : Nat → Nat → State → List Word → Except PlanStop (List Word) × State
  | 0, _, s, l => (.ok l, s)
  | k + 1, n, s, l => match argOf s c e (leAt tmpl (128 + 4 * n) 4) with
    | (.error x, s) => (.error x, s)
    | (.ok v, s) => argsOf c e tmpl k (n + 1) s (l ++ [v])

/-- The mode bits of a commission as a launch descriptor holds them (Table 6.17). -/
def modeBits (m : Modes) : Nat :=
  (if m.det then 1 else 0) + (if m.keep then 2 else 0) + (if m.checked then 4 else 0) + (if m.kx4 then 8 else 0)
    + m.spill.toNat * 16

/-- The place of the next launch image of a plate: the top 64 KiB of the controller region (R350), which firmware uses in
turn. -/
def imgAddr (n : Nat) : Nat := 0xAFF0000 + 512 * (n % 128)

/-- Write the launch image of hatch number `idx` of `hs` and pass it to HATCH_LAUNCH (R341–R345, R667).  The manual
does not say which queues firmware binds: bytes 32–47 are free, and the same whenever the commission is launched (R570, assumption 142).  No field of an image holds the K split that the entry
allows (KSH, Table 7.8); a kernel has its share from HIDX, HCNT and NCORE alone (R60, assumption 116). -/
def launchOn (c : Cmsn) (e : PlanEntry) (tmpl : List Byte) (args : List Word) (hs : List HatchId) (s : State) (idx : Nat) :
    State :=
  match hs[idx]? with
  | none => s
  | some h =>
    let own := (hs.filter fun x => x.p == h.p).length
    let g := match c.pgroups.find? fun x => x.1 == h.p with
      | some x => x.2.toNat
      | none => 0
    let w16 := modeBits c.modes + (((s.activeCores h).length - 1) % 8) * 2 ^ 12 + idx * 2 ^ 15 + hs.length * 2 ^ 20
      + c.prio * 2 ^ 26
    let (mg, mc) := match c.mgroup with
      | some m => (m.toNat, hs.length)
      | none => (0, 0)
    let w24 := g + mg * 16 + own * 256 + mc * 65536
    let bound (k : Nat) : Word := Config.queueBinding c.key.stream.toNat c.key.seq.toNat (2 * idx + k)
    let img := leBytes 8 (e.at 5 0 39) ++ leBytes 2 (e.at 5 48 16) ++ leBytes 2 (e.at 6 0 16) ++ leBytes 4 c.tag.toNat
      ++ leBytes 8 w16 ++ leBytes 8 w24 ++ leBytes 8 (bound 0).toNat ++ leBytes 8 (bound 1).toNat
      ++ args.flatMap (fun (w : Word) => leBytes 8 w.toNat)
      ++ leBytes 16 0 ++ slice tmpl 0 128 ++ leBytes 128 0
    let a := imgAddr (s.plate h.p).nextImg
    let s := psWrite (s.modPlate h.p fun x => { x with nextImg := (x.nextImg + 1) % 128 }) h.p a img
    (s.setOwner h c.slot).queueLaunch h (BitVec.ofNat 64 a) (some c.key)

/-- A commission ends before it launches. -/
def State.finishCmsn (s : State) (k : CmsnKey) (status : Byte) : State :=
  match s.cmsn k with
  | none => s
  | some c => s.setCmsn { c with state := .finished, status, held := false }

/-- Launch a commission on hatches `hs` (R341–R345). -/
def State.launch (s : State) (c : Cmsn) (e : PlanEntry) (hs : List HatchId) : State :=
  let foot := e.foot
  if foot % 256 ≠ 0 ∨ foot < 0xA800000 ∨ 0xB000000 < foot + 256 then s.finishCmsn c.key 0x25
  else
    let (tmpl, bad, s) := psRead s c.plate foot 256
    if bad then s.pstoreUe c.plate c.tag
    else match argsOf c e tmpl 24 0 s [] with
    | (.error .noPlan, s) => s.finishCmsn c.key 0x25
    | (.error (.fault f), s) =>
      (s.setCmsn { c with held := true, fault := f.daddr.map fun a => BitVec.ofNat 25 (a / 16384) }).report
        (memRec s f 14 0 c.plate.val (unitId 7 c.plate.val 0) false false c.tag 0)
    | (.ok args, s) =>
      let ps := plateIds.filter fun p => hs.any fun h => h.p == p
      match (if e.pspan = 0 then some none else (s.freeMgroup).map some),
        ps.mapM fun p => (s.freePgroup p).map fun g => (p, BitVec.ofNat 4 g) with
      | none, _ | _, none => s
      | some mg, some pg =>
        let mg : Option (BitVec 4) := mg.map (BitVec.ofNat 4)
        let s := pg.foldl (fun (s : State) (x : Fin 8 × BitVec 4) => s.takePgroup c.key x.1 x.2) s
        let s := match mg with
          | some g => s.takeMgroup c.key g
          | none => s
        let c := { c with state := .running, held := false, attempts := c.attempts + 1, hatches := hs, ended := [],
                          pgroups := pg, mgroup := mg, status := 0, start := s.mod.time.toNat, fault := none }
        let s := s.setCmsn c
        let got (d : Cmsn) : Cmsn := if d.byCmsn == some c.key then { d with byCmsn := none } else d
        let s := s.modEngine fun y => { y with cmsns := y.cmsns.map got }
        (List.range hs.length).foldl (launchOn c e tmpl args hs) s

/-! ### Pre-emption (R571) -/

/-- The core-store regions of a footprint record, as (base, length). -/
def regionsOf (fp : List Byte) : List (Nat × Nat) :=
  (List.range 8).filterMap fun k =>
    let w := leAt fp (8 * k) 8
    if w.testBit 50 then some (fld w 0 25, fld w 25 25) else none

/-- Whether two lists of regions share a byte. -/
def regionsMeet (a b : List (Nat × Nat)) : Bool :=
  a.any fun x => b.any fun y => decide (x.2 ≠ 0 ∧ y.2 ≠ 0 ∧ x.1 < y.1 + y.2 ∧ y.1 < x.1 + x.2)

/-- Whether a commission may be the victim of `c` (R571). -/
def State.victimOk (s : State) (c : Cmsn) (gap : Nat) (fp : List (Nat × Nat)) (v : Cmsn) : Bool :=
  let live := v.hatches.filter fun h => !v.ended.contains h
  v.state == .running && decide (v.prio + gap ≤ c.prio)
    && decide (v.start + 1000 * s.rf (engineAt 0) 16 16 ≤ s.mod.time.toNat)
    && !live.isEmpty && live.all fun h => (s.hatch h).saved.isNone && match (s.hatch h).run with
      | some l => !regionsMeet l.regions fp
      | none => false

/-- Stop the hatches of the best victim at a bundle boundary (R571, R572). -/
def State.preempt (s : State) (c : Cmsn) (e : PlanEntry) : State :=
  let gap := s.rf (engineAt 0) 10 2
  let (tmpl, bad, s) := psRead s c.plate e.foot 256
  let span := c.plate :: (s.otherPlates c.plate).take e.pspan
  let vs := s.engine.cmsns.filter fun v => s.victimOk c gap (regionsOf tmpl) v && v.hatches.any fun h => span.contains h.p
  let gain := vs.flatMap fun v => v.hatches.filter fun h => span.contains h.p && !v.ended.contains h
  let s := if bad then s.pstoreUe c.plate c.tag else s
  if gap == 0 || bad || decide (s.reach c e gain < e.hmin) then s
  else match bestBy (fun (a b : Cmsn) => decide (a.prio < b.prio) || (a.prio == b.prio && decide (b.order < a.order))) vs with
    | none => s
    | some v =>
      (v.hatches.filter fun h => !v.ended.contains h).foldl (fun s h => s.modHatch h fun x => { x with pre := true })
        (s.setCmsn { v with byCmsn := some c.key })

/-- Whether some hatch of a victim of `k` still saves its state. -/
def State.saving (s : State) (k : CmsnKey) : Bool :=
  s.engine.cmsns.any fun v => v.byCmsn == some k && v.hatches.any fun h => (s.hatch h).pre

/-- PLAN_LAUNCH: the first ready commission of a plate launches, ends with NO_PLAN, or pre-empts (R340, R341, R571). -/
def planGo (s : State) (p : Fin 8) : State :=
  if !s.plateUp p || s.pair.state == .fenced || s.engine.inReset then s
  else match s.firstReady p with
  | none => s
  | some c =>
    match planScan c p (s.rf (plateAt p 0x1000) 0 28) (s.hatchesUp p).length (s.otherPlates p).length
        (s.rf (plateAt p 0x1000) 32 13) 0 s with
    | (none, s) => s.finishCmsn c.key 0x25
    | (some e, s) =>
      if s.saving c.key then s
      else
        let hs := (s.takeable c e).take e.hmax
        if e.hmin ≤ hs.length then s.launch c e hs else s.preempt c e

/-! ### The loader (R346, R347) -/

/-- Bits [lo+n-1:lo] of the little-endian word at byte `o` of an image. -/
def imgFld (b : List Byte) (o lo n : Nat) : Nat := fld (leAt b o 8) lo n

/-- A positive normal binary32 code (R74). -/
def posNormal32 (x : Nat) : Bool := decide (0x00800000 ≤ x ∧ x < 0x7F800000)

/-- The checks of Table 7.11 before the tensor checks: the first reason. -/
def loadImage (s : State) (h : HatchId) (b : List Byte) : Option Nat :=
  let kaddr := leAt b 0 8
  let klen := leAt b 8 2
  let kreg := s.reg (plateAt h.p 0x1010)
  let kb := bitsOf kreg 14 25 * 16384
  let hcnt := imgFld b 16 20 6
  let regs := regionsOf (slice b 256 64)
  let xs := regs.filter fun r => r.1 < 0x1000000
  let ys := regs.filter fun r => 0x1000000 ≤ r.1
  let sum (l : List (Nat × Nat)) : Nat := (l.map (·.2)).sum
  let pbase := imgFld b 320 0 28
  let plen := imgFld b 320 28 28
  let quse := leAt b 336 2
  let qprod := leAt b 338 2
  let pc := imgFld b 24 8 8
  let mc := imgFld b 24 16 8
  let queueBad (k : Nat) : Bool := quse.testBit k && match s.hqFind h.p (nth 0 b (32 + k)).toNat (hatchEp h) with
    | none => true
    | some (p, q) => s.hqRole p q (hatchEp h) != some (qprod.testBit k)
  let twice : Bool := (List.range regs.length).any fun i => (List.range i).any fun j =>
    regionsMeet [nth (0, 0) regs i] [nth (0, 0) regs j]
  if kaddr % 32 ≠ 0 ∨ kaddr < kb ∨ kb + 16384 * bitsOf kreg 39 25 < kaddr + 32 * klen ∨ bitsOf kreg 39 25 = 0 then some 0x40
  else if klen = 0 ∨ klen ≤ leAt b 10 2 then some 0x41
  else if imgFld b 16 4 7 = 0 ∨ 64 < imgFld b 16 4 7 ∨ imgFld b 16 11 1 ≠ 0 ∨ imgFld b 16 28 36 ≠ 0 ∨ imgFld b 24 24 40 ≠ 0
  then some 0x42
  else if imgFld b 16 12 3 + 1 ≠ (s.activeCores h).length ∨ hcnt = 0 ∨ hcnt ≤ imgFld b 16 15 5 then some 0x43
  else if (List.range 16).any queueBad then some 0x44
  else if pc = 0 ∨ 4 < pc ∨ hcnt < pc ∨ hcnt < mc then some 0x45
  else if (regs.any fun r => r.1 % 128 != 0 || r.2 % 128 != 0) ∨ pbase % 128 ≠ 0 ∨ plen % 128 ≠ 0 then some 0x46
  else if 0x1000000 < sum xs ∨ xs.any fun r => 0x1000000 < r.1 + r.2 then some 0x47
  else if 0x1000000 < sum ys ∨ ys.any fun r => 0x2000000 < r.1 + r.2 then some 0x48
  else if twice then some 0x49
  else if plen ≠ 0 ∧ (pbase < 0xB000000 ∨ 0x10000000 < pbase + plen) then some 0x4A
  else none

/-- The format of a descriptor (Table 6.8), scaled or not. -/
def tdescFmt (d : List Byte) : Option Fmt :=
  let c : BitVec 4 := BitVec.ofNat 4 (leAt d 8 1)
  match Fmt.ofCode c with
  | some f => some f
  | none => scaledOf c

def tdescScaled (d : List Byte) : Bool := (scaledOf (BitVec.ofNat 4 (leAt d 8 1))).isSome

/-- K × es rounded up to bytes. -/
def tdescRow (d : List Byte) : Nat := ((tdescFmt d).map fun f => f.bytes (leAt d 16 4)).getD 0

/-- The first tensor check of Table 7.11 that a descriptor of an output or of another tensor fails, with DFMT `dfmt`. -/
def tdescCheck (d : List Byte) (out : Bool) (dfmt : Nat) : Option Nat :=
  let resv := imgFld d 0 39 25 != 0 || imgFld d 8 8 56 != 0 || imgFld d 32 39 25 != 0 || leAt d 48 16 != 0
  let k := leAt d 16 4
  if (tdescFmt d).isNone ∨ resv ∨ k = 0 ∨ 2 ^ 30 < k ∨ leAt d 20 4 = 0 then some 0x4B
  else if leAt d 0 8 % 128 ≠ 0 ∨ leAt d 32 8 % 128 ≠ 0 ∨ tdescScaled d = (leAt d 32 8 == 0) ∨ leAt d 24 8 < tdescRow d then some 0x4C
  else if 2 ^ 39 < leAt d 0 8 + (leAt d 20 4 - 1) * leAt d 24 8 + tdescRow d then some 0x4D
  else if !posNormal32 (leAt d 40 4) || (out && !posNormal32 (leAt d 44 4)) then some 0x4E
  else if tdescScaled d && decide (3 ≤ dfmt ∧ dfmt ≤ 7) then some 0x4F
  else none

/-- What ends the tensor checks: a failed check with its ARG, or a memory fault. -/
inductive LdStop where
  | check (code arg : Nat)
  | fault (f : MFault)
  deriving DecidableEq, Repr

/-- The tensor checks of the image `b` for `k` ARGs from number `n` + 1, in ARG order (R346, R347). -/
def loadTensors (h : HatchId) (b : List Byte) : Nat → Nat → State → Option LdStop × State
  | 0, _, s => (none, s)
  | k + 1, n, s =>
    if !(leAt b 328 4).testBit n then loadTensors h b k (n + 1) s
    else
      let a := leAt b (48 + 8 * n) 8
      if a % 64 ≠ 0 ∨ 2 ^ 39 < a + 64 then (some (.check 0x4B (n + 1)), s)
      else
        let (d, f, s) := devRead s h.p none (s.hatchOwner h) a 64 (hatchEpAddr h)
        match f with
        | some f => (some (.fault f), s)
        | none => match tdescCheck d ((leAt b 332 4).testBit n) (fld (leAt b 340 12) (4 * n) 4) with
          | some c => (some (.check c (n + 1)), s)
          | none => loadTensors h b k (n + 1) s

/-- The launch that an image describes (Tables 6.17, 7.10). -/
def launchOf (b : List Byte) (key : Option CmsnKey) : Launch :=
  { kaddr := BitVec.ofNat 39 (leAt b 0 8), klen := BitVec.ofNat 16 (leAt b 8 2), entry := BitVec.ofNat 16 (leAt b 10 2),
    tag := BitVec.ofNat 32 (leAt b 12 4),
    modes := { det := imgFld b 16 0 1 == 1, keep := imgFld b 16 1 1 == 1, checked := imgFld b 16 2 1 == 1,
               kx4 := imgFld b 16 3 1 == 1, spill := BitVec.ofNat 7 (imgFld b 16 4 7) },
    ncore := BitVec.ofNat 3 (imgFld b 16 12 3), hidx := BitVec.ofNat 5 (imgFld b 16 15 5),
    hcnt := BitVec.ofNat 6 (imgFld b 16 20 6), prio := BitVec.ofNat 2 (imgFld b 16 26 2),
    pgroup := BitVec.ofNat 4 (imgFld b 24 0 4), mgroup := BitVec.ofNat 4 (imgFld b 24 4 4),
    pcount := BitVec.ofNat 8 (imgFld b 24 8 8), mcount := BitVec.ofNat 8 (imgFld b 24 16 8),
    binds := slice b 32 16, args := wordsOf 24 (slice b 48 192), regions := regionsOf (slice b 256 64), key }

/-- The modes of a launch take force in a core (R294). -/
def State.setModes (s : State) (i : CoreId) (m : Modes) : State :=
  let s := (s.setRf (coreAt i 0x900) 0 7 m.spill.toNat).setRf (coreAt i 0x900) 7 1 (if m.det then 1 else 0)
  (s.setRf (coreAt i 0xA00) 13 1 (if m.keep then 1 else 0)).setRf (coreAt i 0xA00) 12 1 (if m.kx4 then 1 else 0)

/-- The register state of a launch (R259). -/
def CoreSt.atLaunch (c : CoreSt) (args : List Word) : CoreSt :=
  { c with
    sregs := (List.range 24).foldl (fun m k => sset 0 m (k + 1) (nth 0 args k)) [],
    vregs := [], preds := [], cbs := [], events := [], evs := [], pend := [], pendSt := [], vregWait := [], outst := c.outst.map Req.old,
    vpar := c.vpar.filter fun x => x.1 != 0 }

/-- The plate controller names the commission in the regions that are endpoints of a queue it uses: MRG_TAG and the owner slot
(R474; assumption 43); a region that sleeps wakes (R418). -/
def State.claimRegions (s : State) (l : Launch) (p : Fin 8) (q : Nat) : State :=
  let r := s.reg (queueAt p q 8)
  let slot := match l.key.bind s.cmsn with
    | some c => c.slot
    | none => 0
  (regionIds.filter fun i => bitsOf r 0 8 == (regionEp i).toNat || bitsOf r 8 8 == (regionEp i).toNat).foldl
    (fun (s : State) i => ((s.wake i.p (.region i.r)).setReg (regionAt i 0x20) (BitVec.ofNat 64 (2 ^ 32 + l.tag.toNat))).setRf
      (plateAt i.p (0x2010 + 8 * (1 + i.r.val / 4))) (16 * (i.r.val % 4)) 9 (if slot = 0 then 0 else 256 + slot)) s

/-- Whether a region holds a handle (R474). -/
def State.regionHolds (s : State) (i : RegionId) : Bool :=
  plateIds.any fun p => (s.plate p).hq.any fun q => q.2.held.any fun h => h.1 == regionEp i

/-- The plate controller writes MRG_QBIND of a region: the queues of the kernel that name the region, in the order of its bindings, unless
the bindings that stand name them all (R474; assumption 43).  A region that holds a handle discards the write. -/
def State.bindRegion (s : State) (i : RegionId) (qs : List (Fin 8 × Nat)) : State :=
  let mine := (qs.filter fun q =>
    let r := s.reg (queueAt q.1 q.2 8)
    bitsOf r 0 8 == (regionEp i).toNat || bitsOf r 8 8 == (regionEp i).toNat).map (·.2)
  let now := s.reg (regionAt i 0x18)
  if mine.all fun q => (List.range 8).any fun b => bitsOf now (8 * b) 8 == q then s
  else if s.regionHolds i then s.discard
  else s.setReg (regionAt i 0x18) (BitVec.ofNat 64 (leNat ((mine.take 8).map (BitVec.ofNat 8))))

/-- The kernel of a launch starts (R259, R294, R347). -/
def State.startKernel (s : State) (h : HatchId) (l : Launch) (quse : Nat) : State :=
  let s := s.modHatch h fun x => { x with run := some l, seq := { pc := l.entry.toNat }, ended := none, cache := [], pre := false }
  let s := (s.activeCores h).foldl (fun s i => (s.modCore i fun c => c.atLaunch l.args).setModes i l.modes) s
  let s := (List.range 16).foldl (fun (s : State) k =>
    if quse.testBit k then match s.hqFind h.p (nth 0 l.binds k).toNat (hatchEp h) with
      | some (p, q) => (s.setHq p q { s.hq p q with tag := l.tag }).claimRegions l p q
      | none => s
    else s) s
  let qs := (List.range 16).filterMap fun k => if quse.testBit k then s.hqFind h.p (nth 0 l.binds k).toNat (hatchEp h) else none
  let s := regionIds.foldl (fun (s : State) i => s.bindRegion i qs) s
  s.traceRec h 1 0 l.tag l.entry.toNat

/-- A rejected launch ends its commission on every hatch (R346, R537). -/
def State.rejectLaunch (s : State) (h : HatchId) (key : Option CmsnKey) (tag arg reason : Nat) : State :=
  let s := (s.setReg (hatchAt h 0x80) (BitVec.ofNat 64 (tag * 2 ^ 32 + 2 ^ 16 + arg * 256 + reason))).setOwner h 0
  match key with
  | none => s
  | some k =>
    (s.hatchDone h (some k) (BitVec.ofNat 8 reason)).endCmsn k (BitVec.ofNat 8 reason)

/-- LOADER_CHECK: the image at the head of the launch queue is checked, and its kernel starts (R346, R347). -/
def loaderGo (s : State) (h : HatchId) : State :=
  let x := s.hatch h
  match x.lq with
  | [] => s
  | (a, key) :: rest =>
    if x.run.isSome || x.pre || !s.hatchUp h || !s.awake h.p (.hatch h.h) || s.pair.state == .fenced then s
    else
      let s := s.modHatch h fun x => { x with lq := rest }
      let (b, bad, s) := psRead s h.p a.toNat 512
      let tag := leAt b 12 4
      let abort (s : State) (g : Option Nat) : State := match key with
        | some k => s.abortCmsn k g
        | none => s
      if bad then abort (s.pstoreUe h.p (BitVec.ofNat 32 tag)) none
      else match loadImage s h b with
      | some r => s.rejectLaunch h key tag 0 r
      | none => match loadTensors h b 24 0 s with
        | (some (.fault f), s) =>
          abort (s.report (memRec s f 13 h.h.val h.p.val (hatchUnit h) false false (BitVec.ofNat 32 tag) 0))
            (f.daddr.map (· / 16384))
        | (some (.check r n), s) => s.rejectLaunch h key tag n r
        | (none, s) => s.startKernel h (launchOf b key) (leAt b 336 2)

/-! ### Saving and resuming (R166, R202, R252, R270, R328, R572–R574) -/

/-- Whether all that a pre-emption waits for in a core is done: every operation of its matrix and drain queues, every TLOAD and every
request in flight (R166, R202, R252, R328). -/
def saveQuiet (c : CoreSt) : Bool :=
  c.mq.isEmpty && c.mrun.isEmpty && c.dq.isEmpty && c.vec.isNone && c.fast.isNone
    && c.tloads.isEmpty && c.chainWay.isEmpty && c.evs.isEmpty && c.outst.isEmpty && c.ringIn.isEmpty && c.advance == 0

/-- A core after its state has been saved: what runs for the kernel is gone, registers stay as they are. -/
def CoreSt.afterSave (c : CoreSt) : CoreSt :=
  { c with chainIn := [], tq := [], held := [], pend := [], pendSt := [], vregWait := [] }

/-- A core restored: the saved state, with the core store and what belongs to the part as they stand now (R572). -/
def CoreSt.restored (cur v : CoreSt) : CoreSt :=
  { v with store := cur.store, csMarks := cur.csMarks, accMarks := [], wpar := [], spar := [], residue := cur.residue, vpar := [],
           epoch := cur.epoch, outst := cur.outst.map Req.old, l1 := cur.l1, nextX := max cur.nextX v.nextX, sa := cur.sa,
           mxRun := cur.mxRun, cvRun := cur.cvRun, held := v.held.map fun h => { h with epoch := cur.epoch },
           chainWay := cur.chainWay, ringIn := cur.ringIn, evs := cur.evs }

/-- Whether an error strikes a save: an uncorrectable entry, row state, weight, register or user-table bank of a core (R573).  A save
reads no ROM table. -/
def saveFault (s : State) (h : HatchId) : Bool :=
  (s.activeCores h).any fun i => let c := s.core i
    !c.wpar.isEmpty || !c.spar.isEmpty || (c.vpar.any fun x => x.1 != 2) || c.accMarks.any fun m => m.2.dead

/-- What a save reads of a core is checked: its accumulator sets, its weights, its vector registers and table banks (R164, R203, R253). -/
def State.saveCheck (s : State) (i : CoreId) : State :=
  let b := (s.hatch i.hatch).seq.pc
  let (s, _) := s.checkMarks i (fun _ => true) b
  let s := s.mxErrors i b (((s.core i).wpar ++ (s.core i).spar).map fun x => (0, x.1.toNat + 128 * x.2.toNat))
  (s.checkParity i ((s.core i).vpar.filter fun x => x.1 != 2) b 0).1

/-- The save region of a hatch takes a new image (R350, assumption 114). -/
def State.saveImage (s : State) (h : HatchId) : State :=
  let lo := saveBase h.h
  let s := s.modPlate h.p fun x =>
    { x with store := sclear x.store lo saveSize, psMarks := sclear x.psMarks (lo / 8) (saveSize / 8),
             saves := sset 0 x.saves h.h.val (s.freeCtr + 1) }
  { s with freeCtr := s.freeCtr + 1 }

/-- The save regions of hatches are read back; an uncorrectable word is reported (R351).  The answer says whether one was met. -/
def State.readImages (s : State) (hs : List HatchId) : Bool × State :=
  hs.foldl (fun r h =>
    let (bad, s) := psCheck r.2 h.p (saveBase h.h) saveSize
    (r.1 || bad, if bad then s.pstoreUe h.p (match (s.hatch h).saved with
      | some v => v.launch.tag
      | none => 0) else s)) (false, s)

/-- PREEMPT_SAVE_COMPLETE: a victim's hatch has saved its state (R572). -/
def saveDone (s : State) (h : HatchId) : State :=
  let x := s.hatch h
  match x.run with
  | none => s
  | some l =>
    let cs := s.activeCores h
    if !x.pre || x.ended.isSome || !(cs.all fun i => saveQuiet (s.core i)) then s
    else if saveFault s h then (cs.foldl (fun s i => s.saveCheck i) s).abortHatch h
    else
      let v : Saved := { launch := l, seq := x.seq, cores := cs.map fun i => (i.key, s.core i) }
      let s := s.traceRec h 7 0 l.tag x.seq.pc
      let s := cs.foldl (fun s i => (s.saveCheck i).modCore i CoreSt.afterSave) s
      let s := ((s.saveImage h).clearHatch h).modHatch h fun y => { y with saved := some v }
      match l.key.bind s.cmsn with
      | some c => if s.allSaved c then s.setCmsn { c with state := .preempted } else s
      | none => s

/-- One hatch takes its saved state back (R574). -/
def State.restoreHatch (s : State) (h : HatchId) (slot : Nat) : State :=
  match (s.hatch h).saved with
  | none => s
  | some v =>
    let s := s.modHatch h fun x => { x with run := some v.launch, seq := v.seq, saved := none, ended := none, pre := false,
                                            cache := [] }
    let s := (s.activeCores h).foldl (fun s i => match v.cores.find? fun y => y.1 == i.key with
      | some y => (s.modCore i fun c => c.restored y.2).setModes i v.launch.modes
      | none => s) s
    (s.setOwner h slot).traceRec h 7 0 v.launch.tag v.seq.pc

/-- RESUME: the victim goes on once its hatches are free, or is aborted for re-run (R574). -/
def resumeGo (s : State) (k : CmsnKey) : State :=
  match s.cmsn k with
  | none => s
  | some c =>
    let hs := c.hatches.filter fun h => !c.ended.contains h
    let waits := match c.byCmsn.bind s.cmsn with
      | some d => d.state == .ready || d.state == .accepted
      | none => false
    if c.state != .preempted || waits || hs.any fun h => (s.hatch h).run.isSome || !(s.hatch h).lq.isEmpty then s
    else
      let same (h : HatchId) : Bool := match (s.hatch h).saved with
        | some v => s.hatchUp h && v.cores.map (·.1) == (s.activeCores h).map (·.key)
        | none => false
      let (bad, s) := if hs.all same then s.readImages hs else (true, s)
      if !bad then
        hs.foldl (fun s h => s.restoreHatch h c.slot)
          (s.setCmsn { c with state := .running, byCmsn := none, start := s.mod.time.toNat })
      else s.abortCmsn k

/-! ### Registers of the plate controller -/

/-- A write of PLAN_BASE (R339); both registers lock at Ready (R14). -/
def planBaseSet (s : State) (p : Fin 8) (v : Word) : State :=
  if s.mod.locked || decide (4096 < bitsOf v 32 13) || bitsOf v 0 28 % 64 != 0 then s.discard
  else s.setReg (plateAt p 0x1000) (v &&& 0x1FFF0FFFFFFF#64)

/-- A write of PLAN_KREG (Table 7.25, R666). -/
def planKregSet (s : State) (p : Fin 8) (v : Word) : State :=
  if s.mod.locked || decide (2 ^ 39 < bitsOf v 14 25 * 16384 + 16384 * bitsOf v 39 25) then s.discard
  else s.setReg (plateAt p 0x1010) v

/-- The requests on their way to a stack, or waiting there: in routers, entry queues of controllers, and write requests without their
data.  The requester of one may have given it up (R412). -/
def State.onWay (s : State) : List DReq :=
  (s.routers.flatMap fun r => r.2.q.filterMap reqOf) ++ s.drams.flatMap fun x => x.2.queue ++ x.2.wait ++ x.2.half

/-- An invalidation starts on a plate (R359): the granules leave the plate's caches, walks under way for them are discarded, and
DONE waits for the requests translated before it. -/
def State.invalStart (s : State) (p : Fin 8) (first n : Nat) : State :=
  let s := (s.invalPlate p first n).setRf (plateAt p 0x2008) 62 1 0
  let cs := (List.finRange 36).flatMap fun c => (s.core ⟨p, c⟩).outst.map fun r => (c.val, r)
  let rs := (List.finRange 8).flatMap fun r =>
    ((s.region ⟨p, r⟩).reads ++ (s.region ⟨p, r⟩).writes).map fun x => (r.val, x.1, x.2)
  let way := (s.onWay.filter fun d => match epOf d.src.toNat with
    | .core i => i.p == p
    | .region i => i.p == p
    | _ => false).map fun d => (d.src, d.tag, d.line)
  s.modPlate p fun x => { x with inval := some (cs, rs), invalWay := way,
                                 walks := x.walks.filter fun w => !decide (first ≤ w.granule.toNat ∧ w.granule.toNat < first + n) }

/-- A write of XLT_INVAL (R359, Table 8.18). -/
def xltGo (s : State) (p : Fin 8) (v : Word) : State :=
  let a := plateAt p 0x2008
  let done := bitOf (s.reg a) 62
  let s := s.setRf a 0 50 (bitsOf v 0 50)
  if bitOf v 63 && done then s.invalStart p (bitsOf v 0 25) (if bitsOf v 25 25 = 0 then 2 ^ 25 else bitsOf v 25 25)
  else s

/-- XLT_INVAL_DONE: those requests have completed at their destinations (R359). -/
def xltDone (s : State) (p : Fin 8) : State :=
  match (s.plate p).inval with
  | none => s
  | some (cs, rs) =>
    if (cs.any fun x =>
          let i : CoreId := ⟨p, fin 36 x.1⟩
          (s.core i).outst.any fun r => { r with mine := x.2.mine } == x.2)
        || (rs.any fun x =>
          let i : RegionId := ⟨p, fin 8 x.1⟩
          ((s.region i).reads ++ (s.region i).writes).contains x.2)
        || s.onWay.any fun d => cs.any (fun x => d.src.toNat == coreEp ⟨p, fin 36 x.1⟩ && d.tag == x.2.tag
              && d.line.toNat / 128 == x.2.place % 2 ^ 34 / 128)
            || rs.any (fun x => d.src.toNat == regionEpAddr ⟨p, fin 8 x.1⟩ && d.tag.toNat == x.2.1
              && d.line.toNat / 128 == x.2.2.2 % 2 ^ 34 / 128)
            || (s.plate p).invalWay.contains (d.src, d.tag, d.line) then s
    else (s.modPlate p fun x => { x with inval := none, invalWay := [] }).setRf (plateAt p 0x2008) 62 1 1

end Sys2Proof.Machine
end

