-- ==== Sys2Proof/Machine/Engine.lean ====
section
/-! DEFINITION. The commission engine (§13.1–§13.5): acceptance, the journal's own ring, proof slots (§8.4), cancel, commit and
completion, and the steward's release of held commissions. -/
namespace Sys2Proof.Machine

/-! ### Verdicts, completions and journal records -/

/-- A fabric port as one of the ten ports. -/
def fabPort (p : Fin 8) : Fin 10 := fin 10 p.val

/-- A VERDICT (Table 13.2). -/
def State.verdict (s : State) (port : Fin 8) (k : CmsnKey) (tag : Nat) (refused dup solo : Bool) (reason : Nat) : State :=
  let body := leBytes 4 tag ++ leBytes 1 ((if refused then 1 else 0) + (if dup then 2 else 0) + (if solo then 4 else 0))
    ++ leBytes 1 reason ++ leBytes 2 0 ++ leBytes 8 s.mod.time.toNat
  s.send (fabPort port) { kind := BitVec.ofNat 8 kVerdict, once := false, stream := k.stream, seq := k.seq, body }

/-- The COMPLETION of a commission (Table 13.2). -/
def completionMsg (c : Cmsn) : Msg :=
  let body := leBytes 4 c.tag.toNat ++ [c.status] ++ leBytes 1 (min c.attempts 255) ++ leBytes 2 0 ++ leBytes 8 c.ctime.toNat
  { kind := BitVec.ofNat 8 kCompletion, once := true, stream := c.key.stream, seq := c.key.seq, body }

/-- A refusal (R528). -/
def State.refuse (s : State) (port : Fin 8) (k : CmsnKey) (body : List Byte) (reason : Nat) : State :=
  let s := s.tel 0x0302 reason
  let s := if reason = 7 then s.flag (engineAt 0x20) 1 else if reason = 2 then s.flag (engineAt 0x20) 0 else s
  s.verdict port k (leAt body 8 4) true false false reason

/-- The next record of the own ring, with what a type carries. -/
def State.nextRec (s : State) (type : JType) (k : CmsnKey) (port : Fin 8) (modes : Modes) (body : List Byte) (status : Byte)
    (attempts : Nat) : JRec :=
  { jseq := s.engine.jseq + 1, time := s.mod.time, type, modes, port, stream := k.stream, status,
    attempts := BitVec.ofNat 8 (min attempts 255), seq := k.seq, body, crcOk := true }

/-- The plate at which the commission engine issues (R661). -/
def State.enginePlate (s : State) : Fin 8 := if s.plateUp 1 then 1 else 6

/-- The frame of the control complex reserve with a number, counted over its ranges (R40). -/
def reserveFrame : List (Nat × Nat) → Nat → Option Nat
  | [], _ => none
  | r :: rest, n => if n < r.2 then some (r.1 + n) else reserveFrame rest (n - r.2)

/-- A record of the own or the partner ring is written where it stands in the reserve (§13.5; assumption 140).  A fault is reported to
the steward; the twin's copy of the record, or the sender's, is the second one (R373, Table 8.9). -/
def State.ringWrite (s : State) (partner : Bool) (r : JRec) : State :=
  let n := r.jseq.toNat % 65536
  match reserveFrame s.mod.mapUsed ((if partner then 1024 else 0) + n / 64) with
  | none => s
  | some f =>
    let i := frameStack f
    let a := frameAddr f (n % 64 * 256)
    let b := journalBody r
    [0, 128].foldl (fun (s : State) o =>
      match netWrite s (engineEp s.enginePlate) i ((List.range 128).map fun j => (a + o + j, nth 0 b (o + j))) with
      | (some f, _, s) => s.report (memRec s f 6 i.s.val i.p.val (stackUnit i) true false 0 0)
      | (none, _, s) => s) s

/-- Write a record to the own ring, in which an ACCEPT or a COMMIT is kept (R544); in Paired mode it leaves for the twin (R530, R540,
R543). -/
def State.writeRec (s : State) (r : JRec) : State :=
  let keep := r.type = .accept ∨ r.type = .commit
  let s := s.ringWrite false r
  let s := s.modEngine fun e => { e with jseq := r.jseq, own := if keep then e.own ++ [r] else e.own }
  if s.pairedMode then
    (s.modEngine fun e => { e with sentJ := e.sentJ ++ [r] }).tieSend kJournal (journalBody r)
  else s

/-- The modes of nothing, for records that carry none. -/
def noModes : Modes := { det := false, keep := false, checked := false, kx4 := false, spill := 0 }

/-- Free a commission's records of the own ring. -/
def State.freeRecs (s : State) (k : CmsnKey) : State :=
  s.modEngine fun e => { e with own := e.own.filter fun r => !(r.stream == k.stream && r.seq == k.seq) }

/-! ### Acceptance (R526–R534, Table 13.3) -/

/-- The modes of a commission that arrives on a port, sampled now (R596, Table 14.10). -/
def State.modesOf (s : State) (port : Fin 8) : Modes :=
  let r := s.reg (engineAt (0x180 + 8 * port.val))
  let r := if bitOf r 63 then r else s.reg 0x100
  { det := bitOf r 0, keep := bitOf r 1, checked := bitOf r 2, kx4 := bitOf r 3,
    spill := BitVec.ofNat 7 (max 1 (min 64 (bitsOf r 4 7))) }

/-- Whether a COMMISSION body is well formed (Table 13.1). -/
def cmsnForm (b : List Byte) : Bool :=
  let nbuf := leAt b 5 1
  let buf (n : Nat) : Nat := leAt b (48 + 8 * n) 8
  b.length == 176 && decide (leAt b 2 1 ≤ 6) && decide (leAt b 3 1 < 4) && leAt b 4 1 % 128 / 8 == 0 && decide (nbuf ≤ 16)
    && decide (leAt b 6 2 < 2 ^ nbuf) && leAt b 12 4 == 0
    && (List.range 16).all fun n => if n < nbuf then buf n % 64 == 0 && decide (buf n < 2 ^ 39) else buf n == 0

/-- What the checks of Table 13.3 find. -/
inductive Check where
  | refuse (reason : Nat)
  | duplicate
  | accept
  deriving DecidableEq, Repr

/-- DEGRADE of CMSN_CFG. -/
def State.degrade (s : State) : Bool := s.rf (engineAt 0) 9 1 == 1

/-- Whether Paired mode refuses with TIE_DOWN (Tables 13.3, 13.7). -/
def State.tieDown (s : State) : Bool :=
  s.pair.state == .detaching || ((s.pair.state == .isolated || (s.pair.state == .paired && !s.tieUp)) && !s.degrade)

/-- The checks of Table 13.3 in their order. -/
def State.check (s : State) (port : Fin 8) (k : CmsnKey) (body : List Byte) : Check :=
  let e := s.engine
  if !e.ready || e.inReset || s.pair.state == .pairing then .refuse 1
  else if s.pair.state == .fenced || s.pair.state == .takeover then .refuse 8
  else if !(s.rf (engineAt 8) 0 8).testBit port.val then .refuse 4
  else if !cmsnForm body then .refuse 5
  else
    let next := sget none e.streams k.stream.toNat
    let gap := match next with
      | none => 0
      | some n => (n - k.seq).toNat
    if 1 ≤ gap ∧ gap ≤ 2 ^ 31 then .duplicate
    else if gap ≠ 0 then .refuse 6
    else if 65536 < e.own.length + 2 then .refuse 7
    else if s.tieDown then .refuse 3
    else .accept

/-- Whether a plate can serve a commission: it is in service and has a hatch in service. -/
def State.plateServes (s : State) (p : Fin 8) : Bool := s.plateUp p && !(s.hatchesUp p).isEmpty

/-- The plate that a commission is handed to (R534). -/
def State.choosePlate (s : State) (body : List Byte) : Fin 8 :=
  let want : Fin 8 := fin 8 (leAt body 4 1 % 8)
  let load (p : Fin 8) : Nat := (s.engine.cmsns.filter fun c => c.plate == p && c.state == .ready).length
  if leAt body 4 1 < 128 ∧ s.plateServes want then want
  else (bestBy (fun (a b : Fin 8) => decide (load a < load b)) (plateIds.filter s.plateServes)).getD want

/-- A commission enters the ready queue of its plate (Table 13.4). -/
def State.makeReady (s : State) (k : CmsnKey) : State :=
  match s.cmsn k with
  | none => s
  | some c => s.setCmsn { c with state := .ready, plate := s.choosePlate c.body }

/-- A commission enters ACCEPTED, and READY at once when it has no outputs (Table 13.4). -/
def State.addCmsn (s : State) (port : Fin 8) (k : CmsnKey) (modes : Modes) (body : List Byte) : State :=
  let c : Cmsn := { key := k, tag := BitVec.ofNat 32 (leAt body 8 4), port, modes, body, state := .accepted, plate := 0,
                    order := s.engine.order, atime := s.mod.time }
  let s := s.modEngine fun e => { e with cmsns := e.cmsns ++ [c], order := e.order + 1 }
  if leAt body 6 2 = 0 then s.makeReady k else s

/-- The commission is accepted: the acceptance leaves, and the stream goes on (R42, R526, R533). -/
def State.acceptNow (s : State) (port : Fin 8) (k : CmsnKey) (modes : Modes) (body : List Byte) (solo : Bool) (come : Word) : State :=
  let s := s.modEngine fun e => { e with streams := sset none e.streams k.stream.toNat (some (k.seq + 1)) }
  let s := ((s.satRf (engineAt 8) 32 32 1).tel 0x0301 0).latency 0 come
  (s.verdict port k (leAt body 8 4) false false solo 0).addCmsn port k modes body

/-- A COMMISSION that came at a time is handled (R527–R531): behind an undecided one of its stream it waits. -/
def State.handleCmsn (s : State) (port : Fin 8) (k : CmsnKey) (body : List Byte) (come : Word) : State :=
  if s.engine.pending.any fun x => x.key.stream == k.stream then
    s.modEngine fun e => { e with late := e.late ++ [(port, k, body, come)] }
  else match s.check port k body with
    | .refuse r => s.refuse port k body r
    | .duplicate => s.verdict port k (leAt body 8 4) false true false 0
    | .accept =>
      let modes := s.modesOf port
      let r := s.nextRec .accept k port modes body 0 0
      let s := s.writeRec r
      if s.pairedMode && s.tieUp then
        s.modEngine fun e => { e with pending := e.pending ++ [{ key := k, port, modes, body, jseq := r.jseq, come }] }
      else s.acceptNow port k modes body s.pairedMode come

/-- COMMISSION. -/
def cmsnGo (s : State) (port : Fin 8) (k : CmsnKey) (body : List Byte) : State := s.handleCmsn port k body s.mod.time

/-- The commissions that waited behind a stream's undecided one are handled in order (R529). -/
def State.handleLate (s : State) (stream : BitVec 16) : State :=
  let ws := s.engine.late.filter fun x => x.2.1.stream == stream
  let s := s.modEngine fun e => { e with late := e.late.filter fun x => x.2.1.stream != stream }
  ws.foldl (fun s x => s.handleCmsn x.1 x.2.1 x.2.2.1 x.2.2.2) s

/-- An undecided commission is refused; a VOID record follows its ACCEPT (R532). -/
def State.refusePending (s : State) (x : PendAcc) (reason : Nat) : State :=
  let s := (s.modEngine fun e => { e with pending := e.pending.filter fun y => y.key != x.key }).freeRecs x.key
  let s := s.writeRec (s.nextRec .void x.key 0 noModes [] 0 0)
  s.refuse x.port x.key x.body reason

/-- TIE_TIMEOUT (R44, R532). -/
def tieTimedOut (s : State) (k : CmsnKey) : State :=
  match s.engine.pending.find? fun x => x.key == k with
  | none => s
  | some x => (s.refusePending x 2).handleLate k.stream

/-! ### Output granules and proof slots (R361, R362) -/

/-- The byte ranges of an output tensor: its elements, and its scale plane when it has one (Table 7.2, R77). -/
def tensorSpans (d : List Byte) : List (Nat × Nat) :=
  let f := leAt d 20 4
  let kk := leAt d 16 4
  let scaled := (scaledOf (BitVec.ofNat 4 (leAt d 8 1))).isSome
  if (tdescFmt d).isNone || kk == 0 || f == 0 then []
  else
    let stride := (((kk + 31) / 32 + 127) / 128) * 128
    [(leAt d 0 8, (f - 1) * leAt d 24 8 + tdescRow d)] ++ if scaled then [(leAt d 32 8, f * stride)] else []

/-- The granules of byte ranges that lie in the device space, each once. -/
def granulesIn (l : List (Nat × Nat)) : List Nat :=
  let rs := (l.filter fun x => x.2 != 0 && decide (x.1 + x.2 ≤ 2 ^ 39)).map fun x => (x.1 / 16384, (x.1 + x.2 - 1) / 16384)
  (rs.foldl (fun (acc : List Nat × List (Nat × Nat)) r =>
    let new := (List.range (r.2 - r.1 + 1)).map (· + r.1)
    (acc.1 ++ new.filter fun g => !acc.2.any fun q => decide (q.1 ≤ g ∧ g ≤ q.2), acc.2 ++ [r])) ([], [])).1

/-- The granules that the outputs of a commission cover (R361).  A descriptor that cannot be read covers none; the loader
rejects it. -/
def outGranules (s : State) (body : List Byte) : List Nat × State :=
  let p := s.enginePlate
  let r := (List.range 16).foldl (fun (r : List (Nat × Nat) × State) n =>
    if (leAt body 6 2).testBit n then
      let (d, f, s) := devRead r.2 p none none (leAt body (48 + 8 * n) 8) 64 (engineEp p)
      (if f.isSome then r.1 else r.1 ++ tensorSpans d, s)
    else r) ([], s)
  (granulesIn r.1, r.2)

/-- The frames that an entry names: that of a lost granule may still have a proof frame. -/
def entryFrames (w : Word) : List Nat :=
  if meV w || meLost w then (if mePend w then [meFA w, meFB w] else [meFA w]) else []

/-- The entry of a granule in the copy that `mapped` lists, as the steward's own account of the frames in use has it: no access. -/
def mapPeek (s : State) (g : Nat) : Word :=
  let (i, a) := mapPlace s g ((s.stack (mapPlace s g false).1).state == 3)
  BitVec.ofNat 64 (leNat (readMem (s.stack i).mem a 8))

/-- The frames in use: those of the map, those that changed entries named until every DONE has been seen (R358), and those of page-ins and
moves. -/
def framesUsed (s : State) : List Nat :=
  ((mapped s).flatMap fun g => entryFrames (mapPeek s g))
    ++ s.engine.slots.flatMap (fun x => x.2.freed) ++ s.engine.pageIns.map (·.2) ++ s.engine.limbo.map (·.1)
    ++ s.engine.moves.flatMap fun x => [x.2.1, x.2.2]

/-- Whether a frame belongs to the control-complex reserve (R40). -/
def State.reserved (s : State) (f : Nat) : Bool := s.mod.mapUsed.any fun r => decide (r.1 ≤ f ∧ f < r.1 + r.2)

/-- Whether a frame is free for a granule: it exists, its stack works, and nothing uses it. -/
def State.frameFree (s : State) (used : List Nat) (f : Nat) : Bool :=
  frameOk f && (s.stack (frameStack f)).state != 3 && !used.contains f && !s.reserved f

/-- The lowest free frame from `n`. -/
def findFrame (s : State) (used : List Nat) : Nat → Nat → Option Nat
  | 0, _ => none
  | k + 1, n => if s.frameFree used n then some n else findFrame s used k (n + 1)

/-- `n` free frames, the lowest ones first (assumption 32). -/
def freeFrames (s : State) : Nat → List Nat → Nat → Option (List Nat)
  | 0, _, _ => some []
  | k + 1, used, lo => match findFrame s used (2 ^ 25 - lo) lo with
    | none => none
    | some f => (freeFrames s k used (f + 1)).map (f :: ·)

/-- Copy a frame unit by unit from an endpoint: a unit that does not read becomes poisoned, without a report (R361). -/
def copyFrame (s : State) (src fa fb : Nat) : State :=
  (List.range 256).foldl (fun (s : State) j =>
    let dst := frameAddr fb (64 * j)
    let (bs, f, s) := netRead s src (frameStack fa) (frameAddr fa (64 * j)) 64
    if f.isSome then s.poisonUnit (frameStack fb) (dst / 64)
    else (netWrite s src (frameStack fb) ((List.range 64).map fun o => (dst + o, nth 0 bs o))).2.2) s

/-- The control complex invalidates a granule on every plate (R358). -/
def State.invalAll (s : State) (g : Nat) : State :=
  plateIds.foldl (fun (s : State) p => (s.setRf (plateAt p 0x2008) 0 50 (g + 2 ^ 25)).invalStart p g 1) s

/-- Change an entry.  One that had V = 1, or that cannot be read, is invalidated on every plate, and the frames that it named and no longer
names with V = 1 are not free before every plate has answered DONE (R358). -/
def State.changeFrom (s : State) (g : Nat) (old : Option Word) (w : Word) : State :=
  match old with
  | some o =>
    if meV o then
      let kept := if meV w then entryFrames w else []
      let left := (entryFrames o).filter fun f => !kept.contains f
      ((mapWrite s g w).modEngine fun e => { e with limbo := e.limbo ++ left.map fun f => (f, 0) }).invalAll g
    else mapWrite s g w
  | none => (mapWrite s g w).invalAll g

/-- Read an entry, and change it. -/
def State.changeEntry (s : State) (g : Nat) (w : Word) : State :=
  let (o, s) := mapRead s g
  s.changeFrom g o w

/-- An entry with V = 0 and LOST = 1, its other fields as they are. -/
def lostEntry (w : Word) : Word := (w &&& ~~~1#64) ||| BitVec.ofNat 64 (2 ^ 62)

/-- A page-in of a granule into a frame starts: the entry reads V = 0 and LOST = 1 until the copy is complete (R372). -/
def State.startPageIn (s : State) (g f : Nat) (w : Word) : State :=
  (s.changeFrom g (some w) (lostEntry w)).modEngine fun e => { e with pageIns := e.pageIns ++ [(g, f)] }

/-- Whether one of a list satisfies a test that reads memory. -/
def State.anyOf {α : Type} (p : State → α → Bool × State) (s : State) : List α → Bool × State
  | [] => (false, s)
  | x :: r =>
    let (b, s) := p s x
    if b then (true, s) else s.anyOf p r

/-- Whether a waiting commission comes before another: its outputs share a granule with it, or no output granule of it is pending, so that
only a free slot is missing. -/
def slotBefore (gs : List Nat) (s : State) (d : Cmsn) : Bool × State :=
  let (hs, s) := outGranules s d.body
  if hs.any fun g => gs.contains g then (true, s)
  else if d.held then (false, s)
  else
    let (pend, s) := s.anyOf (fun s g =>
      let (w, s) := mapRead s g (engineEp s.enginePlate)
      (match w with
        | some w => mePend w
        | none => false, s)) hs
    (!pend, s)

/-- The entries of granules as the engine reads them: the first fault, else the entries. -/
def readEntries (p : Fin 8) : List Nat → State → List (Nat × Word) → Except (Nat × Nat × BitVec 16) (List (Nat × Word)) × State
  | [], s, l => (.ok l, s)
  | g :: gs, s, l => match walkEntry s p g with
    | (.error x, s) => (.error (g, x), s)
    | (.ok w, s) => readEntries p gs s (l ++ [(g, w)])

/-- PROOF_SLOT_OPEN: a waiting commission opens its slot and is READY (R361, R362). -/
def slotOpen (s : State) (k : CmsnKey) : State :=
  match s.cmsn k with
  | none => s
  | some c =>
    if c.state != .accepted || c.held || s.engine.inReset || s.pair.state == .fenced then s
    else
      let (gs, s) := outGranules s c.body
      let (behind, s) := s.anyOf (slotBefore gs) (s.engine.cmsns.filter fun d => d.state == .accepted && decide (d.order < c.order))
      if behind then s
      else match readEntries s.enginePlate gs s [] with
      | (.error (g, cause, suspect), s) =>
        (s.setCmsn { c with held := true, fault := some (BitVec.ofNat 25 g) }).report
          (memRec s { cause, suspect, daddr := some (g * 16384) } 12 0 s.enginePlate.val engineUnit false false c.tag 0)
      | (.ok es, s) =>
        if es.any fun e => mePend e.2 then s
        else match firstIdx 255 fun n => (sget ({} : SlotSt) s.engine.slots (n + 1)).state == 0,
            freeFrames s es.length (framesUsed s) 0 with
        | some n, some fs =>
          let slot := n + 1
          let s := s.modEngine fun e =>
            { e with slots := sset {} e.slots slot { state := 1, key := k, granules := gs } }
          let s := (es.zip fs).foldl (fun (s : State) (x : (Nat × Word) × Nat) =>
            (copyFrame s (engineEp s.enginePlate) (meFA x.1.2) x.2).changeFrom x.1.1 (some x.1.2) (mkEntry (meW x.1.2) (meDur x.1.2) true slot (meFA x.1.2) x.2)) s
          (s.setCmsn { c with slot }).makeReady k
        | _, _ => s

/-! ### Release, fault resolution, cancel -/

/-- An end before launch, or of a stopped commission. -/
def State.finish (s : State) (c : Cmsn) (status : Byte) : State :=
  s.setCmsn { c with state := .finished, status, held := false, fault := none, hatches := [], ended := [] }

/-- STEWARD_RELEASE: the steward releases a held commission whose fault, if any, is resolved (R535). -/
def release (s : State) (k : CmsnKey) : State :=
  match s.cmsn k with
  | some c => if c.held && c.fault.isNone then s.setCmsn { c with held := false } else s
  | none => s

/-- Every commission that a granule's fault holds is released. -/
def State.releaseAll (s : State) (g : Nat) : State :=
  let off (c : Cmsn) : Cmsn := if c.held && c.fault == some (BitVec.ofNat 25 g) then { c with held := false, fault := none } else c
  s.modEngine fun e => { e with cmsns := e.cmsns.map off }

/-- Whether a granule lies in a declared durable region (§8.5). -/
def State.inDurable (s : State) (g : Nat) : Bool :=
  s.pair.regions.any fun r => r.state != 2 && decide (r.first ≤ g ∧ g < r.first + r.count)

/-- Whether a granule is being paged in, or moved to another frame: its entry stays V = 0 and LOST = 1 until that is complete (R372). -/
def State.onMove (s : State) (g : Nat) : Bool :=
  (s.engine.pageIns.any fun x => x.1 == g) || s.engine.moves.any fun x => x.1 == g

/-- STEWARD_FAULT_RESOLVE: allocation, page-in, or FATAL (R327, R344, R362, R372). -/
def faultResolve (s : State) (k : CmsnKey) (r : FaultResolution) : State :=
  match s.cmsn k with
  | none => s
  | some c =>
    if !c.held then s
    else match r with
    | .fatal => s.finish c 0x26
    | .allocate g f wr =>
      if s.frameFree (framesUsed s) f.toNat && !s.onMove g.toNat then
        (s.changeEntry g.toNat (mkEntry wr (s.inDurable g.toNat) false 0 f.toNat 0)).releaseAll g.toNat
      else s
    | .pageIn g f =>
      if s.frameFree (framesUsed s) f.toNat && !s.onMove g.toNat then match mapRead s g.toNat with
        | (some o, s) => s.startPageIn g.toNat f.toNat o
        | (none, s) => s
      else s

/-- The bytes of a frame from the twin's mirror, which this module does not hold: free values (assumption 2). -/
def freeFrame (f : Nat) : Nat → State → State
  | 0, s => s
  | n + 1, s =>
    let s := freeFrame f n s
    let (ws, s) := (List.range 8).foldl (fun (r : List Byte × State) _ =>
      let (w, s) := r.2.fresh
      (r.1 ++ leBytes 8 w.toNat, s)) ([], s)
    let a := frameAddr f (64 * n)
    (netWrite s s.complexEnd (frameStack f) ((List.range 64).map fun o => (a + o, nth 0 ws o))).2.2

/-- An entry that is valid again with one frame in the place of another: the fields stay but V, LOST and that frame. -/
def movedEntry (o : Word) (from_ to_ : Nat) : Word :=
  let f (x : Nat) : Nat := if x = from_ then to_ else x
  mkEntry (meW o) (meDur o) (mePend o) (meSlot o) (f (meFA o)) (if mePend o then f (meFB o) else 0)

/-- The restoration of failed stacks has ended when no granule is being paged in: RECOV tells its time (R390, R602). -/
def State.restored (s : State) : State :=
  match s.engine.restoring with
  | some t => if s.engine.pageIns.isEmpty then (s.modEngine fun e => { e with restoring := none }).recovered 1 t else s
  | none => s

/-- A granule stays lost: management is told (R390). -/
def State.staysLost (s : State) (g : Nat) : State := s.event 0x0A 0 g

/-- The page-in of a granule goes on in another frame, or the granule stays lost. -/
def State.repage (s : State) (g : Nat) : State :=
  match freeFrames s 1 (framesUsed s) 0 with
  | some [f] => s.modEngine fun e => { e with pageIns := e.pageIns.map fun x => if x.1 = g then (g, f) else x }
  | _ => (s.modEngine fun e => { e with pageIns := e.pageIns.filter fun x => x.1 != g }).staysLost g

/-- PAGE_IN_COMPLETE: the granule is valid again in its new frame (R372).  A proof frame that its entry names, whose slot is not FREE and
that was not lost stays.  When the stack of the new frame has failed meanwhile the page-in goes on in another. -/
def pageInDone (s : State) (g : BitVec 25) : State :=
  match s.engine.pageIns.find? fun x => x.1 == g.toNat with
  | none => s
  | some (_, f) =>
    if (s.stack (frameStack f)).state = 3 then (s.repage g.toNat).restored
    else match mapRead s g.toNat with
    | (none, s) => s
    | (some o, s) =>
      let keep := mePend o && (sget ({} : SlotSt) s.engine.slots (meSlot o)).state != 0 && (s.stack (frameStack (meFB o))).state != 3
      let w := if keep then mkEntry (meW o) (meDur o) true (meSlot o) f (meFB o) else mkEntry (meW o) (meDur o) false 0 f 0
      let s := ((freeFrame f 256 s).changeFrom g.toNat (some o) w).modEngine fun e =>
        { e with pageIns := e.pageIns.filter fun x => x.1 != g.toNat }
      (s.releaseAll g.toNat).restored

/-! ### Failed stacks (R390) -/

/-- Whether a granule lies in a region that counts as durable: its contents have been copied to the twin (R368). -/
def State.regionDurable (s : State) (g : Nat) : Bool :=
  s.pair.regions.any fun r => r.state == 1 && decide (r.first ≤ g ∧ g < r.first + r.count)

/-- A granule of a failed stack is lost.  A durable one is paged in from the twin mirror into a new frame; one that stays lost is
reported to management. -/
def State.loseGranule (s : State) (i : StackId) (g : Nat) : State :=
  match mapRead s g with
  | (some w, s) =>
    if meV w && (frameStack (meFA w) == i || (mePend w && frameStack (meFB w) == i)) then
      match (if meDur w && s.pairedMode && s.regionDurable g then freeFrames s 1 (framesUsed s) 0 else none) with
      | some [f] => s.startPageIn g f w
      | _ => (s.changeFrom g (some w) (lostEntry w)).staysLost g
    else s
  | (none, s) => s

/-- The steward declares a stack failed (R390): its requests complete with STACKDOWN, and service is restored.  A page-in into the stack
goes on in another frame; a move into it or out of it ends with the granule lost. -/
def State.failStack (s : State) (i : StackId) (since : Word) : State :=
  let s := s.modStack i fun x => { x with state := 3, resetting := false, queue := x.queue ++ x.wait, wait := [] }
  let s := s.event 0x02 (stackUnit i) 0
  let s := s.setReg 0x1030 (s.reg 0x1030 ||| 1)
  let s := s.modEngine fun e => { e with restoring := some (e.restoring.getD since) }
  let dead (f : Nat) : Bool := frameStack f == i
  let s := (s.engine.pageIns.filter fun x => dead x.2).foldl (fun (s : State) x => s.repage x.1) s
  let s := (s.engine.moves.filter fun x => dead x.2.1 || dead x.2.2).foldl (fun (s : State) x =>
    (s.modEngine fun e => { e with moves := e.moves.filter fun y => y.1 != x.1 }).staysLost x.1) s
  ((mapped s).foldl (fun s g => s.loseGranule i g) s).restored

/-! ### Rows that could not be retired (R387) -/

/-- Whether a frame has a unit in a row of a stack. -/
def State.frameInRow (s : State) (i : StackId) (w : Word) (f : Nat) : Bool :=
  frameStack f == i && (List.range 256).any fun j => rowWord (locOf (s.order i) (frameAddr f (64 * j))) == w

/-- A granule leaves a frame for a free one: its entry reads V = 0 and LOST = 1 until every plate has answered DONE and the frame is copied
(R358). -/
def State.startMove (s : State) (g old : Nat) (w : Word) : State :=
  match freeFrames s 1 (framesUsed s) 0 with
  | some [f] => (s.changeFrom g (some w) (lostEntry w)).modEngine fun e => { e with moves := e.moves ++ [(g, old, f)] }
  | _ => s

/-- The steward moves the granules that use a row which could not be retired to other frames (R387). -/
def State.moveRow (s : State) (i : StackId) (w : Word) : State :=
  (mapped s).foldl (fun (s : State) g =>
    if s.onMove g then s
    else match mapRead s g with
    | (some o, s) =>
      if !meV o then s
      else match (entryFrames o).find? fun f => s.frameInRow i w f with
      | some f => s.startMove g f o
      | none => s
    | (none, s) => s) s

/-- The moves whose old frame is no longer reachable end: the frame is copied, and the entry is valid with the new one.  A proof frame whose
slot has been settled meanwhile is not in the entry any more. -/
def State.finishMoves (s : State) : State :=
  (s.engine.moves.filter fun x => !(s.engine.limbo.any fun y => y.1 == x.2.1)).foldl (fun (s : State) x =>
    match mapRead s x.1 with
    | (some o, s) =>
      let s := if (entryFrames o).contains x.2.1 then
          (copyFrame s s.complexEnd x.2.1 x.2.2).changeFrom x.1 (some o) (movedEntry o x.2.1 x.2.2)
        else s.changeFrom x.1 (some o) (movedEntry o x.2.1 x.2.1)
      (s.modEngine fun e => { e with moves := e.moves.filter fun y => y.1 != x.1 }).releaseAll x.1
    | (none, s) => s) s

/-- ROW_RETIRE_COMPLETE, with the steward's part. -/
def retireEnd (s : State) (i : StackId) : State :=
  let s := retireDone s i
  ((s.stack i).failed).foldl (fun s w => s.moveRow i w) s

/-- The time of the oldest record that the collector holds of a unit, else now. -/
def State.incidentTime (s : State) (unit : BitVec 16) : Word :=
  ((((s.gfc.closed ++ s.gfc.opened).find? fun e => e.key == unit).map fun e => e.rcd.time)).getD s.mod.time

/-- Retraining ends: the waiting requests are served (R389), or after three failures in a row the stack is declared failed
(R390). -/
def stackResetEnd (s : State) (i : StackId) (trained : Bool) : State :=
  let x := s.stack i
  if !x.resetting then s
  else if x.state = 3 then s.setStack i { x with resetting := false }
  else if trained then
    (s.setStack i { x with resetting := false, state := 1, fails := 0, queue := x.queue ++ x.wait, wait := [] }).retireNext i
  else if 2 ≤ x.fails then (s.setStack i { x with fails := x.fails + 1 }).failStack i (s.incidentTime (stackUnit i))
  else s.setStack i { x with resetting := false, state := 0, fails := x.fails + 1, queue := x.queue ++ x.wait, wait := [] }

/-- CMSN_CANCEL (R538). -/
def cancelGo (s : State) (k : CmsnKey) : State :=
  let none_ := s.flag (engineAt 0x20) 3
  match s.cmsn k with
  | none => none_
  | some c => match c.state with
    | .accepted | .ready => s.finish c 0x27
    | .running | .preempted => (s.stopCmsn k c.tag).finish { c with pgroups := [], mgroup := none } 0x27
    | .finished => s.setCmsn { c with status := 0x27 }
    | _ => none_

/-- A write of CMSN_CANCEL (Table 13.28). -/
def cancelWrite (s : State) (v : Word) : State :=
  let s := s.setReg (engineAt 0x18) (BitVec.ofNat 64 (bitsOf v 0 48))
  if bitOf v 63 then cancelGo s { stream := BitVec.ofNat 16 (bitsOf v 32 16), seq := BitVec.ofNat 32 (bitsOf v 0 32) } else s

/-! ### Commit (R539–R543, R365, R366) -/

/-- The entry of a slot's granule after the slot's end: PEND, PSLOT and FB are 0, and FA is the frame that stays; V, W, DUR and LOST
stay (R366). -/
def settledEntry (w : Word) (ok : Bool) : Word :=
  BitVec.ofNat 64 ((if meV w then 1 else 0) + (if meW w then 2 else 0) + (if meDur w then 4 else 0)
    + (if ok then meFB w else meFA w) * 2 ^ 12 + if meLost w then 2 ^ 62 else 0)

/-- Step 5 of R540: the entries of a slot are rewritten, those of lost granules too, and the slot waits for DONE of every plate (R366).
An entry with V = 0 needs no invalidation: that of its loss has its frames in the account of R358.  A slot with an entry that cannot be read is not rewritten whole yet. -/
def State.slotRewrite (s : State) (slot : Nat) : State :=
  let x := sget ({} : SlotSt) s.engine.slots slot
  let ok := x.state == 2
  let (freed, whole, s) := x.granules.foldl (fun (r : List Nat × Bool × State) g =>
    match mapRead r.2.2 g with
    | (some w, s) =>
      if (meV w || meLost w) && mePend w && meSlot w == slot then
        (if meV w then r.1 ++ [if ok then meFA w else meFB w] else r.1, r.2.1, s.changeFrom g (some w) (settledEntry w ok))
      else (r.1, r.2.1, s)
    | (none, s) => (r.1, false, s)) ([], true, s)
  s.modEngine fun e => { e with slots := sset {} e.slots slot { x with rewrote := whole, freed := x.freed ++ freed, dones := 0 } }

/-- The slots whose entries are rewritten and whose DONEs have all been seen are FREE again (R366). -/
def State.freeSlots (s : State) : State :=
  let all (x : SlotSt) : Bool := x.rewrote && (x.freed.isEmpty || x.dones == 0xFF)
  let gone := (s.engine.slots.filter fun x => all x.2).map (·.1)
  let off (c : Cmsn) : Cmsn := if gone.contains c.slot then { c with slot := 0 } else c
  s.modEngine fun e => { e with slots := e.slots.filter (fun x => !all x.2), cmsns := e.cmsns.map off }

/-- Whether a slot's end has been published while an entry of it still stands, because it could not be read. -/
def State.slotOwes (s : State) (n : Nat) (x : SlotSt) : Bool :=
  2 ≤ x.state.toNat && x.acks == 0xFF && !x.rewrote && !(s.engine.cmsns.any fun c => c.slot == n && c.state == .committing)

/-- The entries of such slots are rewritten once they can be read. -/
def State.rewriteRest (s : State) : State :=
  ((s.engine.slots.filter fun x => s.slotOwes x.1 x.2).map (·.1)).foldl (fun s n => (s.slotRewrite n).freeSlots) s

/-- XLT_INVAL_DONE of a plate, as the engine and the control complex see it. -/
def invalDone (s : State) (p : Fin 8) : State :=
  let t := xltDone s p
  if (s.plate p).inval.isSome && (t.plate p).inval.isNone then
    let b := BitVec.ofNat 8 (2 ^ p.val)
    let seen (x : SlotSt) : SlotSt := if x.rewrote then { x with dones := x.dones ||| b } else x
    (t.modEngine fun e =>
      { e with slots := e.slots.map fun x => (x.1, seen x.2),
               limbo := (e.limbo.map fun x => (x.1, x.2 ||| b)).filter fun x => x.2 != 0xFF }).freeSlots.finishMoves
  else t

/-- The regions that a commission's tag names are given back (R474). -/
def State.clearTags (s : State) (tag : BitVec 32) : State :=
  regionIds.foldl (fun (s : State) i =>
    let t := s.reg (regionAt i 0x20)
    if bitOf t 32 && bitsOf t 0 32 == tag.toNat then
      (s.setReg (regionAt i 0x20) 0).setRf (plateAt i.p (0x2010 + 8 * (1 + i.r.val / 4))) (16 * (i.r.val % 4)) 9 0
    else s) s

/-- Steps 4 and 5 of R540: the COMPLETION leaves, and the commission is COMMITTED; its queues are reset (R338), its barrier groups
return (R667). -/
def State.publish (s : State) (c : Cmsn) : State :=
  let c := { c with state := .committed, pgroups := [], mgroup := none, ctime := s.mod.time, step := 5 }
  let s := (((s.setCmsn c).tel 0x0303 c.status.toNat).latency 2 c.atime).clearTags c.tag
  let s := s.send (fabPort c.port) (completionMsg c)
  let s := (s.hqReset c.hatches c.tag).freeGroups c.key
  if c.slot = 0 then s else (s.slotRewrite c.slot).freeSlots

/-- Whether every plate has acknowledged a slot's last change (R365). -/
def State.slotSeen (s : State) (slot : Nat) : Bool :=
  (sget ({} : SlotSt) s.engine.slots slot).acks == 0xFF

/-- Step 3 of R540: the slot changes state in one change, broadcast to the eight plates (R365). -/
def State.commit3 (s : State) (c : Cmsn) : State :=
  if c.slot = 0 then s.publish c
  else
    let x := sget ({} : SlotSt) s.engine.slots c.slot
    let s := if x.state == 1 then
        s.modEngine fun e => { e with slots := sset {} e.slots c.slot { x with state := if c.status = 0 then 2 else 3, acks := 0 } }
      else s
    let c := { c with step := 3 }
    if s.slotSeen c.slot then s.publish c else s.setCmsn c

/-- Step 2 of R540: the COMMIT record; in Paired mode the commission waits for the JACK that covers it, and in ISOLATED no commission
passes this step (Table 13.7). -/
def State.commit2 (s : State) (c : Cmsn) : State :=
  match c.jcommit with
  | some j => if s.pairedMode && (s.pair.state == .isolated || decide (s.engine.jacked.toNat < j.toNat)) then s.setCmsn { c with step := 2 } else s.commit3 c
  | none =>
    let r := s.nextRec .commit c.key 0 noModes [] c.status c.attempts
    let on9 := s.tiePort == 9
    let s := s.writeRec r
    let c := { c with jcommit := some r.jseq, step := 2, onTie9 := on9 }
    if s.pairedMode then s.setCmsn c else s.commit3 c

/-- A COMMITTING commission goes on from the step it is in. -/
def commitGo (s : State) (k : CmsnKey) : State :=
  match s.cmsn k with
  | none => s
  | some c =>
    if c.state != .committing || s.pair.state == .fenced || s.engine.inReset then s
    else if c.step ≤ 1 then (if c.mirWait.isEmpty then s.commit2 c else s)
    else if c.step = 2 then s.commit2 c
    else if s.slotSeen c.slot then s.publish c else s

/-- Every COMMITTING commission goes on as far as it can, and entries that a published slot still owes are rewritten. -/
def State.commitAll (s : State) : State :=
  ((s.engine.cmsns.filter fun c => c.state == .committing).foldl (fun s c => commitGo s c.key) s).rewriteRest

/-- Whether an output granule of a commission belongs to a durable region (R540). -/
def durable (s : State) (c : Cmsn) : Bool × State :=
  s.anyOf (fun s g =>
    let (w, s) := mapRead s g (engineEp s.enginePlate)
    (match w with
      | some w => meDur w
      | none => false, s)) (sget ({} : SlotSt) s.engine.slots c.slot).granules

/-- COMMIT_START (R539). -/
def commitStart (s : State) (k : CmsnKey) : State :=
  match s.cmsn k with
  | none => s
  | some c =>
    let waits := match s.cmsn { k with seq := k.seq - 1 } with
      | some d => d.state != .committed && d.state != .retired
      | none => false
    if c.state != .finished || waits || s.pair.state == .fenced || s.engine.inReset then s
    else
      let (dur, s) := if c.status = 0 && s.pairedMode then durable s c else (false, s)
      let bar := if dur then s.pair.mirOut.map (·.granule) else []
      commitGo (s.setCmsn { c with state := .committing, step := 1, mirWait := bar }) k

/-- COMMIT_RESEND: an uncovered COMMIT record is sent again, on the other tie port if that is Active (R541). -/
def commitResend (s : State) (k : CmsnKey) : State :=
  match s.cmsn k with
  | none => s
  | some c => match c.jcommit.bind fun j => s.engine.sentJ.find? fun r => r.jseq == j with
    | none => s
    | some r =>
      if c.state != .committing || c.step != 2 || !s.tieUp then s
      else
        let other : Fin 10 := if c.onTie9 then 8 else 9
        let k : Fin 10 := if s.portUp other then other else s.tiePort
        (if s.portUp k then s.enqueue k (tieMsg kJournal (journalBody r)) else s).setCmsn { c with onTie9 := k == 9 }

/-- PROOF_STATE_SYNC: a plate takes the proof-slot changes and acknowledges them (R365). -/
def stateSync (s : State) (p : Fin 8) : State :=
  let take (x : SlotSt) : SlotSt := { x with acks := x.acks ||| BitVec.ofNat 8 (2 ^ p.val) }
  (s.modEngine fun e => { e with slots := e.slots.map fun x => (x.1, take x.2) }).commitAll

/-- COMPLETION_ACKED: a DONE record is written, the commission's records are freed, and it is RETIRED (R543). -/
def completionAcked (s : State) (k : CmsnKey) : State :=
  match s.cmsn k with
  | none => s
  | some c =>
    if c.state != .committed then s
    else
      let m := completionMsg c
      let s := s.modPort (fabPort c.port) fun p => { p with out := p.out.filter (· != m), msgs := p.msgs.filter fun x => x.1 != m }
      let s := (s.writeRec (s.nextRec .done k 0 noModes [] 0 0)).freeRecs k
      s.modEngine fun e => { e with cmsns := e.cmsns.filter fun d => d.key != k }

/-- The COMPLETIONs that a port has returned are sent again when it is Active again (R542). -/
def State.resendCompletions (s : State) (k : Fin 10) : State :=
  s.engine.cmsns.foldl (fun (s : State) c =>
    if c.state == .committed && fabPort c.port == k && !s.onPort k (completionMsg c) then s.send k (completionMsg c) else s) s

/-! ### The twin's acknowledgements (R530, R370) -/

/-- JACK: records up to `hi` are covered; acceptances leave in order and commits go on. -/
def jackGo (s : State) (hi : Word) : State :=
  let hi := min hi.toNat s.engine.jseq.toNat
  let hit (x : PendAcc) : Bool := decide (x.jseq.toNat ≤ hi)
  let ready := s.engine.pending.filter hit
  let s := (s.engine.sentJ.filter fun r => decide (r.jseq.toNat ≤ hi)).foldl (fun (s : State) r => s.latency 1 r.time) s
  let s := s.modEngine fun e => { e with jacked := BitVec.ofNat 64 (max e.jacked.toNat hi), sentJ := e.sentJ.filter fun r => decide (hi < r.jseq.toNat),
                                         pending := e.pending.filter fun x => !hit x }
  let s := ready.foldl (fun s x => (s.acceptNow x.port x.key x.modes x.body false x.come).handleLate x.key.stream) s
  s.commitAll

/-- `l` without its first element that satisfies `p`. -/
def dropFirst {α : Type} (p : α → Bool) : List α → List α
  | [] => []
  | x :: r => if p x then r else x :: dropFirst p r

/-- MACK: the oldest mirror write of a granule is acknowledged; mirror barriers may complete (R370).  One with no mirror write left says
that the mirror of a withdrawn region is deleted (R593; assumption 30). -/
def mackGo (s : State) (g : BitVec 25) : State :=
  if s.pair.mirOut.any fun w => w.granule == g then
    let s := s.modPair fun x => { x with mirOut := dropFirst (fun w => w.granule == g) x.mirOut }
    (s.modEngine fun e => { e with cmsns := e.cmsns.map fun c => { c with mirWait := dropFirst (· == g) c.mirWait } }).commitAll
  else s.modPair fun x => { x with regions := x.regions.filter fun r => !(r.state == 2 && r.first == g.toNat) }

/-! ### The per-function reset of the engine (R547) -/

/-- The reset starts: nothing new is accepted, undecided commissions are refused, and what runs is aborted. -/
def engineReset (s : State) : State :=
  let s := s.modEngine fun e => { e with inReset := true }
  let s := s.engine.pending.foldl (fun s x => (s.refusePending x 1).handleLate x.key.stream) s
  let s := (s.engine.cmsns.filter fun c => c.state == .running || c.state == .preempted).foldl (fun s c => s.stopCmsn c.key c.tag) s
  s.setBusy 0x3A0

/-- A commission as the own ring gives it: without a COMMIT it is ACCEPTED again, with its slot and its count of launches kept, unless the
abort of this reset has reached the re-run limit (R50, R535); with one it finishes from step 3 of R540, whose steps repeat. -/
def State.replay (s : State) (k : CmsnKey) : State :=
  match s.cmsn k with
  | none => s
  | some c =>
    let own := s.engine.own.filter fun r => r.stream == k.stream && r.seq == k.seq
    if own.any fun r => r.type == .commit then
      if c.state == .committed then s.send (fabPort c.port) (completionMsg c) else s.commit3 { c with state := .committing }
    else if (c.state == .running || c.state == .preempted) && decide (s.rf (engineAt 0) 32 8 + 1 ≤ c.attempts) then
      (s.finish { c with step := 0, pgroups := [], mgroup := none, mirWait := [], byCmsn := none } 0x28).flag (engineAt 0x20) 2
    else
      let c := { c with state := .accepted, held := false, status := 0, step := 0, hatches := [], ended := [],
                        pgroups := [], mgroup := none, mirWait := [], fault := none, byCmsn := none }
      let s := s.setCmsn c
      if c.slot ≠ 0 ∨ leAt c.body 6 2 = 0 then s.makeReady k else s

/-- The reset ends: the state is rebuilt from the own ring. -/
def engineResetEnd (s : State) : State :=
  let s := s.modEngine fun e => { e with inReset := false }
  (s.engine.cmsns.map (·.key)).foldl (fun s k => s.replay k) s

end Sys2Proof.Machine
end

