-- ==== Sys2Proof/Machine/Pairing.lean ====
section
/-! DEFINITION. The twin pair (§13.5–§13.8): the partner's journal and mirror, heartbeats, pairing, detaching, fence tokens,
takeover and FENCED. -/
namespace Sys2Proof.Machine

/-- The code of a pairing state (Table 13.7). -/
def pcode : PState → Nat
  | .solo => 0 | .pairing => 1 | .paired => 2 | .isolated => 3 | .takeover => 4 | .detaching => 5 | .fenced => 6

/-- The pairing state changes, and the event log says so (Table 14.8). -/
def State.setPState (s : State) (p : PState) : State :=
  ((s.modPair fun x => { x with state := p }).event 0x07 0 (pcode p)).edge 2

/-- The image version in use (CFG_RESULT of the image, Table 12.17). -/
def State.version (s : State) : BitVec 32 := (s.reg (confAt (if s.boot.image = 1 then 0x10 else 0x8)) >>> 32).setWidth 32

/-- A PAIR message of this module. -/
def State.sendPair (s : State) (op : Nat) (epoch : BitVec 32) : State :=
  s.tieSend kPair (pairBody op { rejoin := op == 1 && s.pair.rejoin, mid := Config.mid, epoch, version := s.version,
                                 cap := BitVec.ofNat 64 (s.rf (engineAt 0x100) 48 16 * 2 ^ 30), ranges := [] })

/-! ### FENCED (R560, R561, R577) -/

/-- Every hatch stops and the module is FENCED; a stop by its own decision sends a token naming itself on every Active tie port, also
from a module that is FENCED already. -/
def State.fenceModule (s : State) (token : Bool) : State :=
  let s := if s.pair.state == .fenced then s
    else (hatchIds.foldl (fun (s : State) h => if (s.hatch h).run.isSome then s.stopHatch h else s) s).setPState .fenced
  let t : FenceToken := { target := Config.mid, issuer := Config.mid, epoch := s.pair.epoch, kind := 1,
                          reserved := List.replicate 11 0 }
  if token then [(8 : Fin 10), 9].foldl (fun (s : State) k => s.send k (tieMsg kFence (tokenBody t))) s else s

/-! ### Leaving and entering Paired mode -/

/-- The module is in SOLO: what it held for the partner is deleted, and COMMITTING commissions no longer wait (R541, R557). -/
def State.toSolo (s : State) : State :=
  let s := s.modPair fun x =>
    { x with sentAgree := false, gotAgree := false, sentReady := false, gotReady := false, sentDet := false, gotDet := false,
             hbLoss := false, token := false, rejoin := false, mirOut := [], back := [], mirror := [], mirProof := [], mirSlots := [],
             peerRanges := [], regions := (x.regions.filter fun r => r.state != 2).map fun r => { r with state := 0 } }
  let s := s.modEngine fun e => { e with partner := [], stored := 0, sentJ := [], cmsns := e.cmsns.map fun c => { c with mirWait := [] } }
  ((s.setRf (engineAt 0x108) 16 8 0).setPState .solo).commitAll

/-- A commission of a returning module from its records (R556, R547), or of a partner that has stopped (R562): with a COMMIT
record its COMPLETION leaves; without one it is ACCEPTED. -/
def State.resumeRec (s : State) (all : List JRec) (a : JRec) : State :=
  let k : CmsnKey := { stream := a.stream, seq := a.seq }
  if (s.cmsn k).isSome then s
  else match all.find? fun r => r.type == .commit && r.stream == a.stream && r.seq == a.seq with
  | some r =>
    let c : Cmsn := { key := k, tag := BitVec.ofNat 32 (leAt a.body 8 4), port := a.port, modes := a.modes, body := a.body,
                      state := .committed, status := r.status, attempts := r.attempts.toNat, plate := 0, order := s.engine.order,
                      ctime := r.time, step := 5 }
    (s.modEngine fun e => { e with cmsns := e.cmsns ++ [c], order := e.order + 1 }).send (fabPort a.port) (completionMsg c)
  | none => s.addCmsn a.port k a.modes a.body

/-- The stream entry after a record's commission (R526): the later of it and what stands there. -/
def State.addStream (s : State) (a : JRec) : State :=
  s.modEngine fun e =>
    let late := match sget none e.streams a.stream.toNat with
      | none => true
      | some n => decide (1 ≤ (a.seq + 1 - n).toNat ∧ (a.seq + 1 - n).toNat ≤ 2 ^ 31)
    if late then { e with streams := sset none e.streams a.stream.toNat (some (a.seq + 1)) } else e

/-- The records of a list take new numbers from 1. -/
def renumber (l : List JRec) : List JRec := l.zipIdx.map fun x => { x.1 with jseq := BitVec.ofNat 64 (x.2 + 1) }
/-- The new number of an old one. -/
def newSeq (l : List JRec) (j : Word) : Word := BitVec.ofNat 64 (((l.findIdx? fun r => r.jseq == j).map (· + 1)).getD 0)

/-- Both sides have received READY: the pair is PAIRED.  Each module numbers its live records anew from 1 and sends them, so that
the twin's ring starts complete (assumption 33); a module that returns resumes its own commissions from its records (R556). -/
def State.enterPaired (s : State) : State :=
  let old := s.engine.own
  let own := renumber old
  let s := s.modEngine fun e =>
    { e with own, sentJ := own, jseq := BitVec.ofNat 64 own.length, jacked := 0, stored := 0, partner := [],
             pending := e.pending.map fun x => { x with jseq := newSeq old x.jseq },
             cmsns := e.cmsns.map fun c => { c with jcommit := c.jcommit.map (newSeq old) } }
  let s := s.modPair fun x =>
    { x with sentAgree := false, gotAgree := false, sentReady := false, gotReady := false, hbLoss := false, token := false,
             sentDet := false, gotDet := false, rejoin := false, back := own.map fun r => tieMsg kJournal (journalBody r),
             regions := x.regions.map fun r => if r.state = 0 then { r with state := 1 } else r }
  let s := own.foldl (fun (s : State) r => s.ringWrite false r) ((s.setRf (engineAt 0x108) 16 8 0).setPState .paired)
  let accs := own.filter fun r => r.type == .accept
  let s := accs.foldl (fun s a => (s.addStream a).resumeRec own a) s
  s.tieResend

/-! ### Pairing (R552, R553, R556) -/

/-- Whether two ranges of granules meet. -/
def rangesMeet (a b : Nat × Nat) : Bool := decide (a.1 < b.1 + b.2 ∧ b.1 < a.1 + a.2)

/-- The check of R553: the partner's durable ranges fit the capacity granted and overlap neither this module's nor what it maps. -/
def State.rangesFit (s : State) (rs : List (Nat × Nat)) : Bool :=
  decide ((rs.map (·.2)).sum * 16384 ≤ s.rf (engineAt 0x100) 48 16 * 2 ^ 30)
    && !(rs.any fun r => s.pair.regions.any fun q => rangesMeet r (q.first, q.count))
    && !((mapped s).any fun g => meV (mapPeek s g) && rs.any fun r => decide (r.1 ≤ g ∧ g < r.1 + r.2))

/-- The partner's durable ranges: those that have come and those that a message names (Table 13.8). -/
def State.peersWith (s : State) (rs : List (Nat × Nat)) : List (Nat × Nat) :=
  s.pair.peerRanges ++ rs.filter fun r => !s.pair.peerRanges.contains r

/-- A PROPOSE is answered with AGREE, or with REFUSE and SOLO (assumption 33). -/
def State.answerPropose (s : State) (m : PairMsg) : State :=
  let rs := s.peersWith m.ranges
  if s.rangesFit rs then
    let e := max s.pair.proposed.toNat m.epoch.toNat + 1
    (s.modPair fun x => { x with peer := m.mid, peerCap := m.cap, peerRanges := rs, sentAgree := true }).sendPair 2
      (BitVec.ofNat 32 e)
  else (s.sendPair 3 s.pair.epoch).toSolo

/-- A durable range, or the end of one, leaves as a MIRROR message of length 0 on the port of its granule (Table 13.8, R456;
assumption 30). -/
def State.sendRange (s : State) (r : DurRegion) (gone : Bool) : State :=
  s.send (s.mirrorPort r.first) (mirrorMsg { granule := BitVec.ofNat 25 r.first, proof := gone, slot := 0, offset := 0, bytes := [] } r.count)

/-- PROPOSE and the durable ranges leave (R553). -/
def State.propose (s : State) (rejoin : Bool) : State :=
  let s := (s.modPair fun x =>
    { x with sentAgree := false, gotAgree := false, sentReady := false, gotReady := false, rejoin, proposed := x.epoch }).setPState
      .pairing
  let s := s.sendPair 1 s.pair.epoch
  s.pair.regions.foldl (fun (s : State) r => s.sendRange r false) s

/-- Pairing starts, at start-up or by an attach command (R58); a PROPOSE that the partner has sent is answered. -/
def State.pairStart (s : State) (rejoin : Bool) : State :=
  match s.pair.proposal with
  | some m => ((s.modPair fun x => { x with proposal := none }).propose rejoin).answerPropose m
  | none => s.propose rejoin

/-- The partner's records in their order, then its mirror, go back to it (R556). -/
def State.returnAll (s : State) : State :=
  let s := s.engine.partner.foldl (fun (s : State) r => s.tieSend kJournal (journalBody r)) s
  (runsOf s.pair.mirror).foldl (fun (s : State) r =>
    (pieces 8192 r.1 r.2.length).foldl (fun (s : State) q =>
      let w : MirrorMsg := { granule := BitVec.ofNat 25 (q.1 / 16384), proof := false, slot := 0,
                             offset := BitVec.ofNat 14 (q.1 % 16384), bytes := slice r.2 (q.1 - r.1) q.2 }
      s.send (s.mirrorPort (q.1 / 16384)) (mirrorMsg w)) s) s

/-- PAIR_PROPOSE.  In SOLO it waits for this side's own pairing, which start-up or an attach command begins (R58, assumption 33). -/
def proposeGo (s : State) (m : PairMsg) : State :=
  match s.pair.state with
  | .pairing => s.answerPropose m
  | .solo => s.modPair fun x => { x with proposal := some m }
  | .isolated =>
    if m.rejoin then
      let s := (s.modPair fun x => { x with mirOut := [], back := [] }).modEngine fun e =>
        { e with cmsns := e.cmsns.map fun c => { c with mirWait := [] } }
      (s.returnAll.propose false).answerPropose m
    else s
  | _ => s

/-- A range of the partner that is durable no longer: its mirror is deleted (R593). -/
def State.dropRange (s : State) (g n : Nat) : State :=
  let out (a : Nat) : Bool := !decide (g ≤ a / 16384 ∧ a / 16384 < g + n)
  s.modPair fun x =>
    { x with peerRanges := x.peerRanges.filter (· != (g, n)), mirror := x.mirror.filter fun e => out e.1,
             mirProof := x.mirProof.filter fun e => out e.1, mirSlots := x.mirSlots.filter fun y => out (y.1 * 16384) }

/-- A durable range arrives as a MIRROR message of length 0 (Table 13.8): around PROPOSE it is kept, and a PROPOSE that has been answered
is checked again with it; in Paired mode it tells of a region declared since or, marked so, of one withdrawn, and is acknowledged as a
mirror write is (R593; assumption 30). -/
def rangeGo (s : State) (g n : Nat) (gone : Bool) : State :=
  let rs := s.peersWith [(g, n)]
  if s.pairedMode then
    (if gone then s.dropRange g n else s.modPair fun x => { x with peerRanges := rs }).tieSend kMack (leBytes 4 g)
  else if s.pair.state == .pairing then
    if !s.pair.sentAgree || s.rangesFit rs then s.modPair fun x => { x with peerRanges := rs } else (s.sendPair 3 s.pair.epoch).toSolo
  else if s.pair.state == .solo then s.modPair fun x => { x with peerRanges := rs }
  else s

/-- The mirror writer reads a unit.  A fault is reported to the steward, and the read is tried once more on the twin's own mirror, from
which nothing then has to be copied (R382, R373, Table 8.9; assumption 120). -/
def State.copyUnit (s : State) (g fr o : Nat) : List (Nat × Byte) × State :=
  let i := frameStack fr
  let (bs, f, s) := netRead s (engineEp s.enginePlate) i (frameAddr fr o) 64
  match f with
  | some f => ([], s.report (memRec s { f with daddr := some (g * 16384 + o) } 9 i.s.val i.p.val (stackUnit i) false false 0 0))
  | none => (bs.zipIdx.map fun b => (o + b.2, b.1), s)

/-- Half a frame of a granule leaves for the twin, as published contents or as those of a proof slot (R369). -/
def State.copyHalf (s : State) (g fr o : Nat) (slot : Option Nat := none) : State :=
  let (bs, s) := (List.range 128).foldl (fun (r : List (Nat × Byte) × State) k =>
    let (b, s) := r.2.copyUnit g fr (o + 64 * k)
    (r.1 ++ b, s)) ([], s)
  s.mirrorSend ((runsOf bs).map fun r =>
    { granule := BitVec.ofNat 25 g, proof := slot.isSome, slot := BitVec.ofNat 8 (slot.getD 0), offset := BitVec.ofNat 14 r.1, bytes := r.2 })

/-- The contents of a granule leave for the twin: what its entry publishes (Table 8.6), and what an OPEN slot holds. -/
def State.granuleCopy (s : State) (g : Nat) (w : Word) : State :=
  let both (s : State) (fr : Nat) (slot : Option Nat) : State := (s.copyHalf g fr 0 slot).copyHalf g fr 8192 slot
  let st := (sget ({} : SlotSt) s.engine.slots (meSlot w)).state
  let s := both s (if mePend w && st == 2 then meFB w else meFA w) none
  if mePend w && st == 1 then both s (meFB w) (some (meSlot w)) else s

/-- The contents of a durable region leave for the twin. -/
def State.regionCopy (s : State) (r : DurRegion) : State :=
  (List.range r.count).foldl (fun (s : State) n =>
    match mapRead s (r.first + n) (engineEp s.enginePlate) with
    | (some w, s) => if meV w then s.granuleCopy (r.first + n) w else s
    | (none, s) => s) s

/-- PAIR_AGREE: the epoch is fixed, and the copy of the durable regions starts. -/
def agreeGo (s : State) (m : PairMsg) : State :=
  if s.pair.state == .pairing && !s.pair.gotAgree then
    let s := (s.modPair fun x => { x with gotAgree := true, epoch := m.epoch }).setRf (engineAt 0x108) 32 32 m.epoch.toNat
    s.pair.regions.foldl (fun (s : State) r => s.regionCopy r) s
  else s

/-- PAIR_REFUSE. -/
def refuseGo (s : State) : State := if s.pair.state == .pairing then s.toSolo else s

/-- DURABLE_COPY_COMPLETE: the twin has acknowledged the copy; READY leaves (R553, R593). -/
def copyDone (s : State) : State :=
  if !s.pair.mirOut.isEmpty then s
  else match s.pair.state with
  | .pairing =>
    if s.pair.gotAgree && !s.pair.sentReady then
      let s := (s.modPair fun x => { x with sentReady := true }).sendPair 4 s.pair.epoch
      if s.pair.gotReady then s.enterPaired else s
    else s
  | .paired => s.modPair fun x => { x with regions := x.regions.map fun r => if r.state = 0 then { r with state := 1 } else r }
  | _ => s

/-- PAIR_READY. -/
def readyGo (s : State) (_m : PairMsg) : State :=
  if s.pair.state == .pairing then
    let s := s.modPair fun x => { x with gotReady := true }
    if s.pair.sentReady then s.enterPaired else s
  else s

/-- PAIR_TIMEOUT. -/
def pairTimedOut (s : State) : State := if s.pair.state == .pairing then s.toSolo else s

/-! ### Detaching (R557) -/

/-- A module in DETACHING that has drained its own commissions sends DETACHED; with the partner's too, it is in SOLO. -/
def State.drained (s : State) : State :=
  if s.pair.state == .detaching then
    let s := if !s.pair.sentDet && s.engine.cmsns.isEmpty && s.engine.pending.isEmpty then
        (s.modPair fun x => { x with sentDet := true }).sendPair 6 s.pair.epoch
      else s
    if s.pair.sentDet && s.pair.gotDet then s.toSolo else s
  else s

/-- The module starts to detach, by command or by the partner's DETACH. -/
def State.detachNow (s : State) (tell : Bool) : State :=
  if s.pair.state == .paired then
    let s := (s.modPair fun x => { x with sentDet := false, gotDet := false }).setPState .detaching
    (if tell then s.sendPair 5 s.pair.epoch else s).drained
  else s

/-- PAIR_DETACH. -/
def detachGo (s : State) : State := s.detachNow false

/-- PAIR_DETACHED: the partner's ring and mirror are deleted. -/
def detachedGo (s : State) : State :=
  if s.pair.state == .detaching then
    ((s.modPair fun x => { x with gotDet := true, mirror := [], mirProof := [], mirSlots := [] }).modEngine fun e =>
      { e with partner := [] }).drained
  else s

/-- DETACH_TIMEOUT. -/
def detachTimedOut (s : State) : State :=
  if s.pair.state == .detaching then (s.modPair fun x => { x with sentDet := false, gotDet := false }).setPState .paired else s

/-! ### Heartbeats (R554, R555) -/

/-- HEARTBEAT_SEND. -/
def heartbeatSend (s : State) : State :=
  if s.pairedMode then
    let b := heartbeatBody { mid := Config.mid, epoch := s.pair.epoch, state := BitVec.ofNat 8 (pcode s.pair.state),
                             sentHi := s.engine.jseq, storedHi := s.engine.stored }
    [(8 : Fin 10), 9].foldl (fun (s : State) k => s.send k (tieMsg kHeartbeat b)) s
  else s

/-- HEARTBEAT: one with the current EPOCH restarts the count; in ISOLATED the module is PAIRED again and sends again what was
returned (R555). -/
def heartbeatGo (s : State) (h : HeartbeatMsg) : State :=
  if s.pairedMode && h.epoch == s.pair.epoch then
    let s := (s.modPair fun x => { x with hbLoss := false }).setRf (engineAt 0x108) 16 8 0
    if s.pair.state == .isolated then ((s.setPState .paired).tieResend).commitAll else s
  else s

/-! ### The partner's journal and mirror (R545, R546, R369) -/

/-- The proof mirrors of a slot are published, or discarded (R546). -/
def State.mirrorCommit (s : State) (slot : Nat) (ok : Bool) : State :=
  let gs := (s.pair.mirSlots.filter fun x => x.2.toNat == slot).map (·.1)
  let mine (e : Nat × Option Byte) : Bool := gs.contains (e.1 / 16384)
  s.modPair fun x =>
    { x with mirror := if ok then (x.mirProof.filter mine).foldl (fun m e => sset 0 m e.1 (e.2.getD 0)) x.mirror else x.mirror,
             mirProof := x.mirProof.filter fun e => !mine e,
             mirSlots := x.mirSlots.filter fun y => y.2.toNat != slot }

/-- The granules that the outputs of a partner's commission cover, by the descriptors that the mirror holds; whether every descriptor
is there. -/
def State.mirrorOutputs (s : State) (body : List Byte) : List Nat × Bool :=
  let outs := (List.range 16).filter fun n => (leAt body 6 2).testBit n
  let spans := outs.map fun n => tensorSpans (readMem s.pair.mirror (leAt body (48 + 8 * n) 8) 64)
  (granulesIn spans.flatten, spans.all fun l => !l.isEmpty)

/-- The slots whose proof mirrors stand on a granule that the outputs of a partner's commission cover. -/
def State.slotsOn (s : State) (a : JRec) : List Nat :=
  let gs := (s.mirrorOutputs a.body).1
  ((s.pair.mirSlots.filter fun x => gs.contains x.1).map fun x => x.2.toNat).eraseDups

/-- The proof slot of the partner's commission, which its COMMIT record does not name: the slot whose proof mirrors stand on a granule
that the commission's outputs cover; with a descriptor that is not mirrored it is a free choice among none and the slots that no other
commission of the partner is known to have (assumption 34). -/
def State.partnerSlot (s : State) (r : JRec) : Option Nat × State :=
  let mine (x : JRec) : Bool := x.stream == r.stream && x.seq == r.seq
  let accs := s.engine.partner.filter fun x => x.type == .accept
  match accs.find? mine with
  | none => (none, s)
  | some a =>
    match s.slotsOn a with
    | n :: _ => (some n, s)
    | [] =>
      if (s.mirrorOutputs a.body).2 then (none, s)
      else
        let others := (accs.filter fun x => !mine x).flatMap fun x => s.slotsOn x
        let free := ((s.pair.mirSlots.map fun x => x.2.toNat).eraseDups).filter fun n => !others.contains n
        let (w, s) := s.fresh
        (free[w.toNat % (free.length + 1)]?, s)

/-- JOURNAL: the twin stores a record in order and answers with a JACK; a COMMIT publishes or discards the proof mirrors of its slot
(R545, R546).  A module that pairs again after a reset takes its own records back (R556). -/
def journalGo (s : State) (r : JRec) : State :=
  let mine (x : JRec) : Bool := x.stream == r.stream && x.seq == r.seq
  if s.pair.state == .pairing && s.pair.rejoin then
    if r.crcOk then s.modEngine fun e => { e with own := e.own ++ [r], jseq := BitVec.ofNat 64 (max e.jseq.toNat r.jseq.toNat) } else s
  else if !s.pairedMode then s
  else
    let s := if r.crcOk && r.jseq == s.engine.stored + 1 then
        let kept (f : List JRec → List JRec) : State :=
          (s.ringWrite true r).modEngine fun e => { e with stored := r.jseq, partner := f e.partner }
        match r.type with
        | .accept => kept fun l => l ++ [r]
        | .commit => match (kept fun l => l ++ [r]).partnerSlot r with
          | (some n, s) => s.mirrorCommit n (r.status == 0)
          | (none, s) => s
        | .done | .void => kept fun l => l.filter fun x => !mine x
      else s
    s.tieSend kJack (leBytes 8 s.engine.stored.toNat)

/-- A granule is mapped to a free frame whose bytes are given by their offsets. -/
def State.mapGranule (s : State) (g : Nat) (dur : Bool) (byte : Nat → Byte) : State :=
  match freeFrames s 1 (framesUsed s) 0 with
  | some [f] =>
    let s := (List.range 256).foldl (fun (s : State) j =>
      let a := frameAddr f (64 * j)
      (netWrite s (engineEp s.enginePlate) (frameStack f) ((List.range 64).map fun o => (a + o, byte (64 * j + o)))).2.2) s
    mapWrite s g (mkEntry true dur false 0 f 0)
  | _ => s

/-- A returned mirror write is stored: a granule that the new map does not hold yet is mapped, as a durable one (R556). -/
def State.takeBack (s : State) (w : MirrorMsg) : State :=
  let g := w.granule.toNat
  let store (s : State) (f : Nat) : State :=
    (pieces 128 w.offset.toNat w.bytes.length).foldl (fun (s : State) q =>
      (netWrite s (engineEp s.enginePlate) (frameStack f) ((List.range q.2).map fun j =>
        (frameAddr f (q.1 + j), nth 0 w.bytes (q.1 + j - w.offset.toNat)))).2.2) s
  match mapRead s g (engineEp s.enginePlate) with
  | (some e, s) =>
    if meV e then store s (meFA e)
    else s.mapGranule g true fun o =>
      if w.offset.toNat ≤ o then nth 0 w.bytes (o - w.offset.toNat) else 0
  | (none, s) => s

/-- MIRROR: a write of the partner is applied to the mirror and acknowledged (R369, R370); a module that pairs again after a reset
takes its durable contents back (R556). -/
def mirrorGo (s : State) (w : MirrorMsg) : State :=
  let a := w.granule.toNat * 16384 + w.offset.toNat
  let ack (s : State) : State := s.tieSend kMack (leBytes 4 w.granule.toNat)
  if s.pair.state == .pairing && s.pair.rejoin && !s.pair.sentAgree then ack (s.takeBack w)
  else if s.pairedMode || s.pair.state == .pairing then
    ack (s.modPair fun x =>
      if w.proof then
        let gs := x.mirSlots.filter fun y => y.1 != w.granule.toNat
        { x with mirProof := w.bytes.zipIdx.foldl (fun m b => sset none m (a + b.2) (some b.1)) x.mirProof,
                 mirSlots := gs ++ [(w.granule.toNat, w.slot)] }
      else { x with mirror := writeMem x.mirror a w.bytes })
  else s

/-! ### Fence tokens and takeover (R558, R559, R562) -/

/-- The partner's durable granules: its ranges, and what its mirror writes name. -/
def State.peerGranules (s : State) : List Nat :=
  granulesIn ((s.pair.peerRanges.map fun r => (r.1 * 16384, r.2 * 16384)) ++ (runsOf s.pair.mirror).map fun r => (r.1, r.2.length))

/-- Step 1 of R562: a durable granule of the partner is mapped to a frame that holds its mirror. -/
def State.takeGranule (s : State) (g : Nat) : State :=
  s.mapGranule g false fun o => sget 0 s.pair.mirror (g * 16384 + o)

/-- The takeover, as one step (R562; assumption 35). -/
def State.takeOver (s : State) : State :=
  let s := s.setPState .takeover
  let s := s.peerGranules.foldl (fun s g => s.takeGranule g) s
  let all := s.engine.partner
  let accs := all.filter fun r => r.type == .accept
  let s := accs.foldl (fun (s : State) a =>
    let k : CmsnKey := { stream := a.stream, seq := a.seq }
    let s := (s.addStream a).resumeRec all a
    let s := s.writeRec (s.nextRec .accept k a.port a.modes a.body 0 0)
    match all.find? fun r => r.type == .commit && r.stream == a.stream && r.seq == a.seq with
    | some r => s.writeRec (s.nextRec .commit k 0 noModes [] r.status r.attempts.toNat)
    | none => s) s
  s.toSolo.recovered 2 s.mod.time

/-- A module that holds heartbeat loss and a valid token takes over (R559). -/
def State.maybeTake (s : State) : State :=
  if s.pair.state == .isolated && s.pair.hbLoss && s.pair.token then s.takeOver else s

/-- HEARTBEAT_LOSS (R554). -/
def heartbeatLost (s : State) : State :=
  if s.pairedMode then
    let n := max 1 (s.rf (engineAt 0x100) 4 4)
    let s := (s.modPair fun x => { x with hbLoss := true }).setRf (engineAt 0x108) 16 8 (max n (s.rf (engineAt 0x108) 16 8))
    (if s.pair.state == .paired then s.setPState .isolated else s).maybeTake
  else s

/-- Whether a token is valid (R558). `kind` is the one its way of arrival admits. -/
def State.tokenOk (s : State) (kind : Nat) (t : FenceToken) : Bool :=
  s.pairedMode && t.target == s.pair.peer && t.epoch == s.pair.epoch && t.kind.toNat == kind
    && t.issuer == (if kind = 1 then t.target else 0) && t.reserved.all (· == 0)

/-- A token arrives: a valid one is held, an invalid one is counted (R558). -/
def State.tokenGo (s : State) (kind : Nat) (t : FenceToken) : State :=
  if s.tokenOk kind t then (s.modPair fun x => { x with token := true }).maybeTake else s.satRf (engineAt 0x108) 8 8 1

/-- FENCE: a token on the tie (R558). -/
def fenceMsg (s : State) (t : FenceToken) : State := s.tokenGo 1 t

end Sys2Proof.Machine
end

