-- ==== Sys2Proof/Machine/Margin.lean ====
section
/-! DEFINITION. Margin regions (chapter 11): the network, handle-queue and control-window ports, margin RAM, gates and clock
generators, and the start and end of a region's per-function reset (R470). -/
namespace Sys2Proof.Machine

/-- Whether a region's power domain runs (R470). -/
def State.regionAwake (s : State) (i : RegionId) : Bool :=
  let d := s.dom i.p (.region i.r)
  !d.asleep && !d.waking && !d.reset

/-- Whether a region's ports accept requests: gates open, the region awake (Table 11.3). -/
def State.regionOpen (s : State) (i : RegionId) : Bool := (s.region i).state == .opened && s.regionAwake i

/-! ### The network port (R471–R473) -/

/-- A request of the port: translated with the region's owner slot and sent as a real-time packet, or ended by its fault. -/
def State.regionReq (s : State) (i : RegionId) (line : Nat) (tag : Byte) (w : Option (List Byte × BitVec 128)) : State :=
  let (t, s) := translate s i.p none (s.regionOwner i) w.isSome line
  match t with
  | .error e =>
    (s.modRegion i fun x => { x with netRsp := [(tag, 3, if w.isSome then [] else List.replicate 128 0)] }).regionFault i
      { cause := e.1, daddr := some line, suspect := e.2 } w.isSome
  | .ok (e, fr) =>
    let st := frameStack fr
    let a := frameAddr fr (line % 16384)
    let at_ := (BitVec.ofNat 39 line, st.key * 2 ^ 34 + a)
    let port := stackEp st ((locOf (s.order st) a).ch / 2)
    let id := BitVec.ofNat 10 tag.toNat
    match w with
    | none =>
      (s.modRegion i fun x => { x with reads := sput x.reads tag.toNat at_, netRsp := [] }).inject (regionEpAddr i) port
        (.rreq (BitVec.ofNat 34 a) id 2 (BitVec.allOnes 128))
    | some (data, en) =>
      let proof := mePend e && fr == meFB e
      let mir := if meDur e then
          some (BitVec.ofNat 25 (line / 16384), proof, (if proof then BitVec.ofNat 8 (meSlot e) else 0),
            BitVec.ofNat 14 (line % 16384))
        else none
      ((s.modRegion i fun x => { x with writes := sput x.writes tag.toNat at_, netRsp := [] }).regionPanic i).inject
        (regionEpAddr i) port (.wreq (BitVec.ofNat 34 a) id 2 en mir) (some data)

/-- REGION_NET_RD: a tag still outstanding holds the request off (R471). -/
def regionRd (s : State) (i : RegionId) (addr : BitVec 39) (tag : Byte) : State :=
  if !s.regionOpen i || (s.region i).reads.any (fun y => y.1 == tag.toNat) then s
  else s.regionReq i (addr.toNat / 128 * 128) tag none

/-- REGION_NET_WR. -/
def regionWr (s : State) (i : RegionId) (addr : BitVec 39) (data : List Byte) (en : BitVec 128) (tag : Byte) : State :=
  if !s.regionOpen i || (s.region i).writes.any (fun y => y.1 == tag.toNat) then s
  else s.regionReq i (addr.toNat / 128 * 128) tag (some (data, en))

/-- USER_PANIC_INPUT (R473). -/
def panicInput (s : State) (i : RegionId) (level : Bool) : State :=
  (s.modRegion i fun x => { x with panicIn := level }).regionPanic i

/-! ### The handle-queue port (R334) -/

/-- The three operations of the port. -/
inductive RegionHq where
  | take
  | pub (w : Word)
  | free (w : Word)
  deriving DecidableEq, Repr

/-- What the port answers. -/
def State.hqAnswer (s : State) (i : RegionId) (b : Fin 8) (r : Option Word) : State :=
  s.modRegion i fun x => { x with hqRsp := [(b, r)] }

/-- The queue is recorded as one whose operation waits (R337). -/
def State.hqWait (s : State) (i : RegionId) (p : Fin 8) (n : Nat) : State :=
  s.setHq p n ((s.hq p n).waits (regionEp i) ((s.regionCmsn i).map fun c => c.key))

/-- An operation that R333 makes invalid: HQ_ERR.BADOP, refused, the commission aborted (R334). -/
def State.hqBad (s : State) (i : RegionId) (b : Fin 8) (p : Fin 8) (n : Nat) : State :=
  let t := s.reg (regionAt i 0x20)
  let tag : BitVec 32 := if bitOf t 32 then BitVec.ofNat 32 (bitsOf t 0 32) else 0
  (((s.hqAnswer i b none).flag (queueAt p n 0x20) 1).reportFlag 0 (regionUnit i) 0x0A 1 tag).abortRegion i

/-- An operation at the handle-queue port: done, refused, or waiting with the request held (R330–R334). -/
def regionHq (s : State) (i : RegionId) (b : Fin 8) (op : RegionHq) : State :=
  if !s.regionOpen i then s
  else
    let ep := regionEp i
    let q := s.rf (regionAt i 0x18) (8 * b.val) 8
    match s.hqFind i.p q ep with
    | none => s.hqBad i b i.p q
    | some (p, n) =>
      let (ok, s) := s.reaches (regionEpAddr i) (hqBlockEp p)
      if !ok then s.hqWait i p n else
      let x := s.hq p n
      let prod := s.hqRole p n ep == some true
      let t := s.reg (regionAt i 0x20)
      let tag : BitVec 32 := if bitOf t 32 then BitVec.ofNat 32 (bitsOf t 0 32) else x.tag
      match op with
      | .take => match (if prod then x.free else x.pub) with
        | [] => s.hqWait i p n
        | w :: r =>
          let x := { x.unwait ep with held := x.held ++ [(ep, w)], tag }
          (s.setHq p n (if prod then { x with free := r } else { x with pub := r })).hqAnswer i b (some w)
      | .pub w => match x.holds ep w with
        | none => s.hqBad i b p n
        | some w =>
          if !prod then s.hqBad i b p n
          else if !(s.region i).writes.isEmpty || decide (64 ≤ x.pub.length) then s.hqWait i p n
          else (s.setHq p n { x.unwait ep with pub := x.pub ++ [w], held := x.held.erase (ep, w) }).hqAnswer i b (some w)
      | .free w => match x.holds ep w with
        | none => s.hqBad i b p n
        | some w =>
          (s.setHq p n { x with free := x.free ++ [genUp w], held := x.held.erase (ep, w) }).hqAnswer i b (some w)

/-- MRG_QBIND_WRITE (R474). -/
def qbindWrite (s : State) (i : RegionId) (v : Word) : State :=
  if s.regionHolds i then s.discard else s.setReg (regionAt i 0x18) v

/-! ### The user control window (R475) -/

/-- USER_CTL_ACCESS: forwarded to the user logic; closed gates answer at once (Table 11.3).  One access is forwarded at a
time. -/
def ctlAccess (s : State) (i : RegionId) (off : BitVec 15) (write : Bool) (v : Word) : State :=
  if !s.regionOpen i then
    if write then s.discard else s.modRegion i fun x => { x with answer := some 0 }
  else if (s.region i).ctl.isSome then s
  else s.modRegion i fun x => { x with ctl := some (off &&& 0x7FF8, write, v), answer := none }

/-- USER_CTL_ANSWER. -/
def ctlAnswer (s : State) (i : RegionId) (v : Word) : State :=
  match (s.region i).ctl with
  | none => s
  | some (_, write, _) => s.modRegion i fun x => { x with ctl := none, answer := if write then none else some v }

/-- An access that the user logic has not answered in time is reported. -/
def State.ctlLate (s : State) (i : RegionId) : State :=
  (s.flag (regionAt i 0x28) 3).reportFlag (regionUnit i) (regionUnit i) 0x07 3

/-- USER_CTL_TIMEOUT. -/
def ctlTimeout (s : State) (i : RegionId) : State :=
  match (s.region i).ctl with
  | none => s
  | some (_, write, _) =>
    (s.modRegion i fun x => { x with ctl := none, answer := if write then none else some 0 }).ctlLate i

/-! ### Margin RAM (R464–R466) -/

/-- The logic frames of a region. -/
def State.regionFrames (s : State) (i : RegionId) : List (Nat × BitVec 1024) :=
  (s.plate i.p).frames.filter fun f => f.1 / 2 ^ 15 == i.r.val

/-- The bytes of a block that a port access covers, with the width in bytes. -/
def ramSpan (block : Byte) (w : Fin 4) (op : RamPortOp) : Nat × Nat :=
  let n := 2 ^ w.val
  (block.toNat * 4096 + op.addr.toNat % (4096 / n) * n, n)

/-- A port reads the word at a span: the word and its error output (R466). -/
def ramRead (s : State) (i : RegionId) (block : Byte) (code : Bool) (sp : Nat × Nat) : Word × Bool × State :=
  let x := s.region i
  let w := BitVec.ofNat 64 (leNat (readMem x.ram sp.1 sp.2))
  let mark : Option Mark := if code then (x.ramMarks.find? fun m => m.1 == sp.1 / 8).map (·.2) else none
  match mark with
  | none => (w, false, s)
  | some (.corrected _) => (w, false, s.flag (regionAt i 0x28) 1)
  | some _ =>
    let t := s.reg (regionAt i 0x20)
    let tag : BitVec 32 := if bitOf t 32 then BitVec.ofNat 32 (bitsOf t 0 32) else 0
    (w, true, ((s.flag (regionAt i 0x28) 2).reportFlag (regionUnit i) (regionUnit i) 0x07 2 tag 0 0 block.toNat).abortRegion i)

/-- A port writes the enabled bytes of the word at a span. -/
def ramWrite (s : State) (i : RegionId) (sp : Nat × Nat) (op : RamPortOp) : State :=
  if !op.write then s
  else
    s.modRegion i fun x =>
      let on := (List.range sp.2).filter fun j => op.en.toNat.testBit j
      { x with
        ram := on.foldl (fun m j => sset 0 m (sp.1 + j) (BitVec.ofNat 8 (bitsOf op.data (8 * j) 8))) x.ram
        ramMarks := if on.length = 8 then sdel x.ramMarks (sp.1 / 8) else x.ramMarks }

/-- One port's access at its clock edge (R464). -/
def ramPort (s : State) (i : RegionId) (block : Byte) (code first : Bool) (w : Fin 4) (op : Option RamPortOp) :
    Option (Word × Bool) × State :=
  match op with
  | none => (none, s)
  | some op =>
    let sp := ramSpan block w op
    if op.write && first then
      let s := ramWrite s i sp op
      (some (BitVec.ofNat 64 (leNat (readMem (s.region i).ram sp.1 sp.2)), false), s)
    else
      let (v, e, s) := ramRead s i block code sp
      (some (v, e), ramWrite s i sp op)

/-- MARGIN_RAM_ACCESS. -/
def ramAccess (s : State) (i : RegionId) (block : Byte) (a b : Option RamPortOp) (within150 bFirst : Bool) : State :=
  if (s.region i).state = .empty ∨ !s.regionAwake i then s
  else
    let c := Config.ramCfg (s.regionFrames i) block
    let code := c.code && c.wa == 3 && c.wb == 3
    let hit : Option (RamPortOp × RamPortOp) := match a, b with
      | some x, some y =>
        let p := ramSpan block c.wa x
        let q := ramSpan block c.wb y
        if within150 && (x.write || y.write) && decide (p.1 < q.1 + q.2 ∧ q.1 < p.1 + p.2) then some (x, y) else none
      | _, _ => none
    let (oa, ob, s) : Option (Word × Bool) × Option (Word × Bool) × State := match hit with
      | some (x, y) =>
        let (va, ea, s) := ramRead s i block code (ramSpan block c.wa x)
        let (vb, eb, s) := ramRead s i block code (ramSpan block c.wb y)
        (some (va, ea), some (vb, eb), ramWrite (ramWrite s i (ramSpan block c.wb y) y) i (ramSpan block c.wa x) x)
      | none =>
        if bFirst then
          let (ob, s) := ramPort s i block code c.firstB c.wb b
          let (oa, s) := ramPort s i block code c.firstA c.wa a
          (oa, ob, s)
        else
          let (oa, s) := ramPort s i block code c.firstA c.wa a
          let (ob, s) := ramPort s i block code c.firstB c.wb b
          (oa, ob, s)
    s.modRegion i fun x => { x with ramOut := [oa, ob] }

/-! ### Gates and clocks (R462, R467) -/

/-- A CLOSED region opens while GATE_REQ is 1; before Ready every gate stays closed (R467, R504). -/
def State.tryOpen (s : State) (i : RegionId) : State :=
  if (s.region i).state = .closed ∧ s.engine.ready ∧ s.rf (regionAt i 8) 0 1 = 1 ∧ !(s.dom i.p (.region i.r)).reset then
    s.modRegion i fun x => { x with state := .opened }
  else s

/-- Gates close on an OPEN region. -/
def State.closeGates (s : State) (i : RegionId) : State :=
  if (s.region i).state = .opened then (s.shut i).modRegion i fun x => { x with state := .closed } else s

/-- GATE_REQ_WRITE: a write of MRG_CTL (R467). -/
def gateWrite (s : State) (i : RegionId) (v : Word) : State :=
  let s := s.setReg (regionAt i 8) (v &&& 0xFFFF0001)
  if bitOf v 0 then s.tryOpen i else s.closeGates i

/-- MRG_CLK_WRITE: accepted behind closed gates; a write that enables or retunes a generator unlocks it (R462). -/
def clkWrite (s : State) (i : RegionId) (n : Fin 4) (v : Word) : State :=
  if (s.region i).state = .opened then s.discard
  else
    let a := regionAt i (0x60 + 8 * n.val)
    let v := v &&& 0x3FF1
    if v = s.reg a then s
    else (s.setReg a v).modRegion i fun x => { x with clkLock := x.clkLock &&& ~~~(BitVec.ofNat 4 (2 ^ n.val)) }

/-- CLKGEN_LOCK: an enabled generator with a frequency of 10 to 1,000 MHz locks (R462, Table 11.15). -/
def clkLocked (s : State) (i : RegionId) (n : Fin 4) : State :=
  let v := s.reg (regionAt i (0x60 + 8 * n.val))
  if bitOf v 0 && decide (10 ≤ bitsOf v 4 10 ∧ bitsOf v 4 10 ≤ 1000) && s.pins.sref then
    s.modRegion i fun x => { x with clkLock := x.clkLock ||| BitVec.ofNat 4 (2 ^ n.val) }
  else s

/-! ### The per-function reset of a region (R470, R513) -/

/-- A load of the region's channel ends with D_RESET (R510, R513). -/
def State.channelReset (s : State) (i : RegionId) : State :=
  let st := channelAt i 0x10
  let loading := s.rf st 0 3 == 2
  let s := if loading then
      ((((s.setRf st 0 3 5).setRf st 16 8 0x23).flag (channelAt i 0x20) 1).reportFlag (regionUnit i) (regionUnit i) 0x0B 1).modRegion i
        fun x => { x with state := .incoherent }
    else s.setRf st 0 3 0
  let s := s.modRegion i fun x => { x with entries := [], recNo := 0, written := [], data := [], digest := [] }
  (s.setReg (channelAt i 0x20) 0).modPlate i.p fun x => { x with icpQ := x.icpQ.filter (· != i.r) }

/-- REGION_RESET: steps 1 to 6 of R470; FUNC_RESET_COMPLETE ends the reset.  The writes that are on their way complete, no longer counted
in MRG_STAT (assumption 96). -/
def regionResetGo (s : State) (i : RegionId) : State :=
  let s := edgeIf (channelAt i 0x10) s ((s.closeGates i).channelReset i)
  let s := s.modRegion i fun x => { x with reads := [], writes := [], netRsp := [], hqRsp := [], ctl := none, panic := false }
  let s := s.regionPanicOut i
  let s := (s.hqGiveBack (regionEp i)).abortRegion i
  let s := (s.setReg (regionAt i 0x20) 0).setReg (regionAt i 0x28) 0
  let s := s.modRegion i fun x => { x with ffs := [], ramOut := [] }
  let s := s.setRf (netAt i.p 8) (4 + i.r.val) 1 0
  let d := s.dom i.p (.region i.r)
  let s := s.setDom i.p (.region i.r) { d with asleep := false, waking := false, entering := false, reset := true }
  s.setBusy (0x100 + i.p.val * 0x20 + 0x10 + i.r.val)

/-- The reset of a region ends: it opens if GATE_REQ is 1, and the packets that waited are handed over (R470, R417). -/
def regionResetEnd (s : State) (i : RegionId) : State :=
  let d := s.dom i.p (.region i.r)
  ((s.setDom i.p (.region i.r) { d with reset := false }).drainEntry i.p (.region i.r)).tryOpen i

end Sys2Proof.Machine
end

