-- ==== Sys2Proof/Machine/Coding.lean ====
section
/-! DEFINITION. The coding layer of a Niuri lane (§10.2, §10.3, §10.5): blocks and levels, the scrambler, symbol stuffing, the Robust
mode code, and the transmit lanes. -/
namespace Sys2Proof.Machine

/-! ### Blocks and levels (R423–R426) -/

/-- The two bits of a level, the first sent in bit 0 (Table 10.3, R425). -/
def levelBits (l : Fin 4) : Nat := if l.val = 0 then 0 else if l.val = 1 then 2 else if l.val = 2 then 3 else 1
/-- The level of two bits, the first sent in bit 0. -/
def bitsLevel (b : Nat) : Fin 4 := if b = 0 then 0 else if b = 2 then 1 else if b = 3 then 2 else 3

/-- A block from its 129 symbols: header level in bits [257:256], payload below (R424, R425). -/
def blockOf (l : List (Fin 4)) : BitVec 258 :=
  BitVec.ofNat 258 ((nth 0 l 0).val * 2 ^ 256 + ((l.drop 1).zipIdx.map fun x => levelBits x.1 * 4 ^ x.2).sum)

def blkHdr (b : BitVec 258) : Nat := b.toNat / 2 ^ 256
def blkPay (b : BitVec 258) : BitVec 256 := b.setWidth 256
def mkBlk (h : Nat) (p : BitVec 256) : BitVec 258 := BitVec.ofNat 258 (h * 2 ^ 256 + p.toNat)
/-- The 129 symbols of a block in sending order. -/
def blockSyms (b : BitVec 258) : List (Fin 4) :=
  fin 4 (blkHdr b) :: (List.range 128).map fun i => bitsLevel (fld (blkPay b).toNat (2 * i) 2)
/-- Byte `n` of a payload. -/
def payByte (p : BitVec 256) (n : Nat) : Nat := fld p.toNat (8 * n) 8
def payBytes (p : BitVec 256) : List Byte := (List.range 32).map fun n => BitVec.ofNat 8 (payByte p n)
/-- A payload from its bytes. -/
def payOf (b : List Byte) : BitVec 256 := BitVec.ofNat 256 (leNat (b.take 32))
/-- Whether a control payload is an alignment marker: TYPE and the fixed bytes of Table 10.5. -/
def isAm (p : BitVec 256) : Bool := payByte p 0 == 0x4B && (List.range 20).all fun n => payByte p (12 + n) == 0xA5
/-- The payload of an IDLE block (Table 10.4). -/
def idlePay : BitVec 256 := 0x1E

/-! ### The scrambler (R427) -/

/-- The next bit of the PRBS31 sequence and the state after it: bit 0 is s(n−1). -/
def prbsStep (x : BitVec 31) : Bool × BitVec 31 :=
  let b := x.toNat.testBit 27 != x.toNat.testBit 30
  (b, (x <<< 1) ||| (if b then 1 else 0))

/-- `n` bits of the sequence, the first in bit 0, and the state after them. -/
def prbsBits : Nat → BitVec 31 → Nat × BitVec 31
  | 0, x => (0, x)
  | n + 1, x =>
    let (v, y) := prbsBits n x
    let (b, y) := prbsStep y
    (if b then v + 2 ^ n else v, y)

/-! ### The code of Robust mode (R444, R445) -/

/-- The product in GF(2^10) with field polynomial x^10 + x^3 + 1. -/
def gfMul (a b : Nat) : Nat :=
  ((List.range 10).foldl (fun (r : Nat × Nat) k =>
    let x := if b.testBit k then r.1 ^^^ r.2 else r.1
    let d := 2 * r.2
    (x, if d.testBit 10 then d ^^^ 0x409 else d)) (0, a)).1

/-- A power in the field, of an exponent below 1,024. -/
def gfPow (a n : Nat) : Nat :=
  ((List.range 10).foldl (fun (r : Nat × Nat) k => (if n.testBit k then gfMul r.1 r.2 else r.1, gfMul r.2 r.2)) (1, a)).1
/-- The inverse of a non-zero element: its power 2^10 − 2. -/
def gfInv (a : Nat) : Nat := gfPow a 1022
/-- The power of the field's generator x. -/
def gfExp (n : Nat) : Nat := gfPow 2 (n % 1023)

/-- The value of a polynomial, lowest coefficient first. -/
def gfEval (p : List Nat) (x : Nat) : Nat := p.foldr (fun c v => c ^^^ gfMul v x) 0
/-- The sum and the product of polynomials. -/
def gfAddP (p q : List Nat) : List Nat := (List.range (max p.length q.length)).map fun k => nth 0 p k ^^^ nth 0 q k
def gfMulP (p q : List Nat) : List Nat :=
  (List.range (p.length + q.length - 1)).map fun k =>
    (List.range (k + 1)).foldl (fun v i => v ^^^ gfMul (nth 0 p i) (nth 0 q (k - i))) 0

/-- The generator polynomial: sixteen consecutive roots. -/
def rsGen : List Nat := (List.range 16).foldl (fun p j => gfMulP p [gfExp (Config.rsRoot + j), 1]) [1]

/-- The sixteen parity symbols of a message, the first symbol being the highest coefficient: the remainder of the message times x^16. -/
def rsParity (msg : List Nat) : List Nat :=
  let g := (rsGen.take 16).reverse
  msg.foldl (fun r m =>
    let f := m ^^^ nth 0 r 0
    (List.range 16).map fun k => nth 0 r (k + 1) ^^^ gfMul f (nth 0 g k)) (List.replicate 16 0)

/-- The ten-bit symbols of a run of bits in sending order, the first bit of each the high one (R444). -/
def rsSymbols (bits n : Nat) : List Nat :=
  (List.range n).map fun k => ((List.range 10).map fun t => if bits.testBit (10 * k + t) then 2 ^ (9 - t) else 0).sum
/-- The bits of symbols in sending order. -/
def rsBits (l : List Nat) : Nat :=
  (l.zipIdx.map fun x => ((List.range 10).map fun t => if x.1.testBit (9 - t) then 2 ^ (10 * x.2 + t) else 0).sum).sum

/-- The payload bits of the covered blocks in sending order. -/
def coverBits (l : List (BitVec 258)) : Nat := (l.zipIdx.map fun x => (blkPay x.1).toNat * 2 ^ (256 * x.2)).sum

/-- The parity block of ten covered blocks: parity symbols, and the copy of the headers (R444). -/
def parityOf (l : List (BitVec 258)) : BitVec 258 :=
  let hdrs := (l.zipIdx.map fun x => levelBits (fin 4 (blkHdr x.1)) * 4 ^ x.2).sum
  mkBlk 3 (BitVec.ofNat 256 (rsBits (rsParity (rsSymbols (coverBits l) 256)) + hdrs * 2 ^ 160))

/-- The syndromes of a received word, the first symbol being the highest coefficient. -/
def rsSyndromes (w : List Nat) : List Nat := (List.range 16).map fun j => gfEval w.reverse (gfExp (Config.rsRoot + j))

/-- The error locator of syndromes (Berlekamp and Massey), lowest coefficient first. -/
def rsLocator (syn : List Nat) : List Nat :=
  ((List.range 16).foldl (fun (r : List Nat × List Nat × Nat × Nat) n =>
    let (c, b, l, k) := r
    let d := (List.range (l + 1)).foldl (fun v i => v ^^^ gfMul (nth 0 c i) (nth 0 syn (n - i))) 0
    if d = 0 then (c, b, l, k + 1)
    else
      let t := gfAddP c (List.replicate k 0 ++ b.map (gfMul d))
      if 2 * l ≤ n then (t, c.map (gfMul (gfInv d)), n + 1 - l, 1) else (t, b, l, k + 1)) ([1], [1], 0, 1)).1

/-- The word corrected at the powers where the locator has a root (Forney), and the number of symbols changed. -/
def rsCorrect (w : List Nat) : List Nat × Nat :=
  let syn := rsSyndromes w
  let loc := rsLocator syn
  let ev := (gfMulP loc syn).take 16
  let der := (List.range loc.length).map fun k => if k % 2 = 0 then nth 0 loc (k + 1) else 0
  let fix (n : Nat) (v : Nat) : Nat :=
    let pos := w.length - 1 - n
    let inv := gfExp (1023 - pos % 1023)
    if gfEval loc inv ≠ 0 then v
    else v ^^^ gfMul (gfMul (gfEval ev inv) (gfInv (gfEval der inv))) (gfExp (pos * (1023 + 1 - Config.rsRoot % 1023)))
  let u := w.zipIdx.map fun x => fix x.2 x.1
  (u, ((w.zip u).filter fun x => x.1 != x.2).length)

/-- The decoder: the codeword within eight symbols of a received one, with the number of symbols corrected, or none (R445). -/
def rsDecode (w : List Nat) : Option (List Nat × Nat) :=
  if (rsSyndromes w).all (· == 0) then some (w, 0)
  else
    let (u, n) := rsCorrect w
    if decide (n ≤ 8) && (rsSyndromes u).all (· == 0) then some (u, n) else none

/-- The covered blocks of a received codeword, corrected in their payloads (R445). -/
def codewordOf (l : List (BitVec 258)) (par : BitVec 258) : Option (List (BitVec 256) × Nat) :=
  (rsDecode (rsSymbols (coverBits l) 256 ++ rsSymbols (blkPay par).toNat 16)).map fun x =>
    let bits := rsBits (x.1.take 256)
    ((List.range 10).map fun k => BitVec.ofNat 256 (bits / 2 ^ (256 * k)), x.2)

/-! ### Transmit lanes (R427, R430, R434, R443) -/

/-- A symbol leaves; after 24 of one level a stuff symbol follows (R430). -/
def TxLane.push (t : TxLane) (v : Fin 4) : TxLane :=
  let run := if t.run ≠ 0 ∧ v = t.level then t.run + 1 else 1
  if run = 24 then { t with run := 1, level := fin 4 (3 - v.val), sym := t.sym ++ [v, fin 4 (3 - v.val)] }
  else { t with run, level := v, sym := t.sym ++ [v] }

/-- A block leaves in its symbols. -/
def TxLane.block (t : TxLane) (b : BitVec 258) : TxLane := { (blockSyms b).foldl TxLane.push t with cnt := t.cnt + 1 }

/-- A block leaves, and behind the tenth of a group its parity block (R443). -/
def TxLane.covered (t : TxLane) (b : BitVec 258) : TxLane :=
  let t := t.block b
  if !t.fecOn then t
  else if t.cover.length < 9 then { t with cover := t.cover ++ [b] }
  else { t.block (parityOf (t.cover ++ [b])) with cover := [] }

def PortSt.txLane (p : PortSt) (l : Nat) : TxLane := sget {} p.tx l

/-- A data, IDLE or CAP block leaves on a lane, scrambled (R427). -/
def PortSt.sendLane (p : PortSt) (l hdr : Nat) (pay : BitVec 256) : PortSt :=
  let (bits, st) := prbsBits 256 (sget 0 p.txPrbs l)
  { p with tx := sset {} p.tx l ((p.txLane l).covered (mkBlk hdr (pay ^^^ BitVec.ofNat 256 bits))),
           txPrbs := sset 0 p.txPrbs l st }

/-- A block of the port stream leaves on the next lane (R436). -/
def PortSt.sendStream (p : PortSt) (hdr : Nat) (pay : BitVec 256) : PortSt :=
  let n := if p.width8 then 8 else 16
  { p.sendLane (p.txNext % n) hdr pay with txNext := p.txNext + 1 }

/-- A port that has sent no symbol in this command. -/
def PortSt.quiet (p : PortSt) : PortSt := { p with tx := p.tx.map fun (x : Nat × TxLane) => (x.1, { x.2 with sym := [] }) }

/-- The parcels and the CAP block that a port sends leave in their blocks: a parcel is eight data blocks (R437). -/
def PortSt.coded (p : PortSt) : PortSt :=
  p.sentBlk.foldl (fun (p : PortSt) (b : List Byte) =>
    if b.length = 32 then p.sendStream 3 (payOf b)
    else (List.range 8).foldl (fun (p : PortSt) n => p.sendStream 1 (payOf (b.drop (32 * n)))) p) p.quiet

/-- IDLE blocks fill a lane up to the next marker row: 16,379 blocks lie between two (R434). -/
def PortSt.fillLane (l : Nat) : Nat → PortSt → PortSt
  | 0, p => p
  | n + 1, p => if (p.txLane l).cnt < 16379 then PortSt.fillLane l n (p.sendLane l 3 idlePay) else p

/-- The payload of an alignment marker (Table 10.5). -/
def amBytes (k l seed n : Nat) : List Byte :=
  leBytes 1 0x4B ++ leBytes 1 l ++ leBytes 1 k ++ leBytes 1 0 ++ leBytes 4 seed ++ leBytes 4 n ++ List.replicate 20 0xA5

/-- A lane sends its marker row: the fill before it, the AM, four IDLE blocks; groups are counted from its end (R434, R443). -/
def PortSt.markLane (p : PortSt) (k n l : Nat) : PortSt :=
  let p := PortSt.fillLane l 16379 p
  let t := { p.txLane l with fecOn := false, cover := [] }
  let t := t.block (mkBlk 3 (payOf (amBytes k l (sget 0 p.txPrbs l).toNat n)))
  let p := (List.range 4).foldl (fun p _ => p.sendLane l 3 idlePay) { p with tx := sset {} p.tx l t }
  { p with tx := sset {} p.tx l { p.txLane l with cnt := 0, fecOn := p.state == 5 && p.protAct } }

end Sys2Proof.Machine
end

