-- ==== Sys2Proof/Machine/Gfc.lean ====
section
/-! DEFINITION. The global fault collector (§13.9), GLB_TOPO (Table 1.3), and the steward's routes around a failed link group
(§9.4). -/
namespace Sys2Proof.Machine

/-! ### Records and windows (R564–R566) -/

/-- WITNESS of a record: SUSPECT differs from REPORTER (Table 13.11). -/
def FRec.witness (r : FRec) : Bool := r.suspect != r.reporter

/-- An entry that takes one more record of its key (R565). -/
def GEntry.take (e : GEntry) (r : FRec) : GEntry :=
  if r.witness then { e with wit := if e.wit = 0xFFFF then e.wit else e.wit + 1 }
  else { e with own := true, rcd := if !e.own && e.rcd.witness then r else e.rcd }

/-- FAULT_RECORD: the oldest record on its way is latched, counted, or counted as an overflow (R564, R565). -/
def recordGo (s : State) : State :=
  match s.gfc.frec with
  | [] => s
  | r :: rest =>
    let key := if r.suspect = 0 then r.reporter else r.suspect
    let s := (s.modGfc fun g => { g with frec := rest, seen := true }).tel 0x0701 0
    if s.gfc.opened.any fun e => e.key == key then
      let one (e : GEntry) : GEntry := if e.key == key then e.take r else e
      s.modGfc fun g => { g with opened := g.opened.map one }
    else if 256 ≤ s.gfc.opened.length then s.satRf 0x1008 0 9 1
    else
      let e : GEntry := { key, info := r.suspect == 0, own := !r.witness, wit := 0, rcd := r }
      s.modGfc fun g => { g with opened := g.opened ++ [e] }

/-- An entry put behind those with at least its witness count. -/
def insertWit (e : GEntry) : List GEntry → List GEntry
  | [] => [e]
  | y :: r => if y.wit.toNat < e.wit.toNat then e :: y :: r else y :: insertWit e r

/-- The rank order of R566: OWN entries in arrival order, witness-only entries by falling count, INFO entries. -/
def rankEntries (l : List GEntry) : List GEntry :=
  (l.filter fun e => !e.info && e.own) ++ (l.filter fun e => !e.info && !e.own).foldl (fun a e => insertWit e a) []
    ++ l.filter fun e => e.info

/-- FAULT_WINDOW_END (R566). -/
def windowEnd (s : State) : State :=
  if !s.gfc.seen then s
  else if s.gfc.held then s.satRf 0x1008 20 8 1
  else
    let l := rankEntries s.gfc.opened
    let s := s.modGfc fun g => { g with closed := l, opened := [], held := true, tested := 0, seen := false }
    ((s.addRf 0x1008 32 32 1).flag 0x1010 0).event 0x01 0 l.length

/-- GFC_RELEASE (R566). -/
def gfcFree (s : State) : State := s.modGfc fun g => { g with closed := [], held := false, tested := 0 }

/-! ### GLB_TOPO (R41, Table 1.3) -/

/-- GLB_TOPO as the module stands. -/
def topoWord (s : State) : Word :=
  let plates := (plateIds.filter s.plateUp).foldl (fun a p => a + 2 ^ p.val) 0
  let hs := hatchIds.filter s.hatchServes
  let spares := (hs.filter fun h => (hatchCores h).any fun i => s.role i == 1).length
  let cores := (hs.map fun h => (s.activeCores h).length).sum
  let nStacks := (stackIds.filter fun i => (s.stack i).state != 3).length
  BitVec.ofNat 64 (plates * 2 ^ 56 + hs.length * 2 ^ 50 + spares * 2 ^ 44 + cores * 2 ^ 35 + nStacks * 2 ^ 29)

/-- The steward rewrites GLB_TOPO; before Ready it reads 0 (R41). -/
def State.topo (s : State) : State := if s.engine.ready then s.setReg 0x8 (topoWord s) else s

/-- A unit is fenced or declared failed: FAULT_N is driven low and the event log says so (R568). -/
def State.unitDown (s : State) (u : BitVec 16) : State := (s.setReg 0x1030 (s.reg 0x1030 ||| 1)).event 0x02 u 0

/-- The program of a core in stand-alone mode halts, as a write of CORE_SACTL.HALT does (R222, R300). -/
def State.haltAlone (s : State) (i : CoreId) : State := if s.standAlone i && s.saStatus i == 1 then s.saHalt i 5 else s

/-- A write of HATCH_CORES (R300); GLB_TOPO follows it (R41). -/
def coresWrite (s : State) (h : HatchId) (v : Word) : State :=
  let x := s.hatch h
  let act := (List.range 9).filter fun j => bitsOf v (5 * j + 3) 2 == 0
  let idx := act.map fun j => bitsOf v (5 * j) 3
  let st := s.seqState h
  if (st = 0 ∨ st = 3) ∧ x.lq.isEmpty ∧ x.saved.isNone ∧
      (List.range act.length).all fun k => (idx.filter (· == k)).length == 1 then
    let s := (hatchCores h).foldl (fun (s : State) i => if bitsOf v (5 * i.pos + 3) 2 = 2 then s else s.haltAlone i) s
    (s.setRf (hatchAt h 0x50) 0 45 v.toNat).topo
  else s.discard

/-! ### Routes around a failed link group (§9.4) -/

/-- Whether every group that a route's mesh steps cross has a link up. -/
def routeLive (s : State) (i : RouterId) : List Nat → Bool
  | [] => true
  | g :: r => sget 0 (s.router i).up g != 0 && match meshNext i g with
    | some n => routeLive s n r
    | none => false

/-- The router that mesh steps lead to. -/
def walkSteps (i : RouterId) : List Nat → Option RouterId
  | [] => some i
  | g :: r => (meshNext i g).bind fun n => walkSteps n r

/-- The legal live step lists of length `k`, one for each state in which the legality of the next step can differ. -/
def stepLists (s : State) (i : RouterId) : Nat → List (List Nat)
  | 0 => [[]]
  | k + 1 =>
    let all := (stepLists s i k).flatMap fun l => (List.range 4).map fun g => l ++ [g]
    let ok := all.filter fun l => stepsOk i none 0 l && routeLive s i l
    let mark (l : List Nat) : Option RouterId × Nat × Nat :=
      (walkSteps i l, nth 4 l k, ((l.zip (l.drop 1)).filter fun x => x.1 != 3 && x.2 == 3).length)
    ok.foldl (fun (acc : List (List Nat)) l => if acc.any fun m => mark m == mark l then acc else acc ++ [l]) []

/-- A route word from mesh steps and a hub code. -/
def routeWord (l : List Nat) (hub : Nat) : Word :=
  let gs := l ++ [4 + hub]
  BitVec.ofNat 64 (2 ^ 52 + gs.length * 2 ^ 48 + (gs.zipIdx.map fun x => x.1 * 8 ^ x.2).sum)

/-- STEWARD_ROUTE_REWRITE: the default route where it avoids the failure, else the shortest legal detour (the first in the order
of mesh codes), else V = 0 and the pair is reported as unreachable (§9.4; assumption 86). -/
def routeRewrite (s : State) (i : RouterId) (e : Fin 256) : State :=
  let a := routerAt i (0x800 + 8 * e.val)
  let dst : RouterId := ⟨fin 8 (e.val / 32), fin 4 (e.val / 8 % 4)⟩
  let old := s.reg a
  let steps (v : Word) : List Nat := (List.range (bitsOf v 48 4 - 1)).map fun k => bitsOf v (3 * k) 3
  let s := if bitOf old 52 && routeLive s i (steps old) then s
    else if routeLive s i (steps (resetOf a)) then s.setReg a (resetOf a)
    else match ((List.range 15).flatMap fun k => stepLists s i k).find? fun l => walkSteps i l == some dst with
      | some l => s.setReg a (routeWord l (e.val / 2 % 4))
      | none => (s.setReg a (withBits old 52 1 0)).modGfc fun g => { g with cut := g.cut.filter (· != (i, e)) ++ [(i, e)] }
  let s := if bitOf (s.reg a) 52 then s.modGfc fun g => { g with cut := g.cut.filter (· != (i, e)) } else s
  s.topo

/-- Whether no valid entry of any router takes a group that has no link up: the steward's work on a failed group is then over. -/
def State.routesClear (s : State) : Bool :=
  (List.finRange 8).all fun p => (List.finRange 4).all fun q => (List.range 256).all fun e =>
    let v := s.reg (routerAt ⟨p, q⟩ (0x800 + 8 * e))
    !bitOf v 52 || routeLive s ⟨p, q⟩ ((List.range (bitsOf v 48 4 - 1)).map fun k => bitsOf v (3 * k) 3)

end Sys2Proof.Machine
end

