-- ==== Sys2Proof/Machine/Niuri.lean ====
section
/-! DEFINITION. The Niuri ports (chapter 10): bring-up, lanes and blocks, CAP exchange, parcels and replay, the stream layer,
and fabric data movement (§14.2.1). -/
namespace Sys2Proof.Machine

/-! ### Flags and the states of a port -/

/-- A flag of NIURI_ERR with its record (Tables 10.19, 13.14; assumption 37). -/
def State.niuriErr (s : State) (k : Fin 10) (b : Nat) : State :=
  (s.flag (portAt k 0x30) b).reportFlag (portUnit k) (portUnit k) 0x06 b

/-- The lanes of the width in force, or of the width that bring-up runs at. -/
def PortSt.width (p : PortSt) : Nat := if p.width8 then 8 else 16

def PortSt.lane (p : PortSt) (l : Nat) : LaneSt := sget {} p.lanes l
def PortSt.setLane (p : PortSt) (l : Nat) (x : LaneSt) : PortSt := { p with lanes := sset {} p.lanes l x }

/-- Whether a port may leave Idle: enabled, start-up at its lane step or past it, its lane reference present (R442, R649). -/
def State.portMayRun (s : State) (k : Fin 10) : Bool :=
  !s.mod.inReset && decide (7 ≤ s.rf 0x300 0 4) && bitOf (s.reg (portAt k 0)) 0 && s.pins.lref.toNat.testBit (k.val / 2)

/-- Entry to Detect samples WIDTH, PROT, TXPRESET (R439); port 0 with DEBUG runs at width 8 (R422). -/
def State.toDetect (s : State) (k : Fin 10) : State :=
  let c := s.reg (portAt k 0)
  s.modPort k fun p =>
    { p with state := 1, width8 := bitOf c 1 || (k == 0 && bitOf c 4), robust := bitOf c 2, preset := BitVec.ofNat 3 (bitsOf c 8 3),
             present := 0, lanes := [], capGot := false, capSent := false, gather := [], sentBlk := [], tx := [], txNext := 0 }

/-- PORT_DETECT (R439, Table 10.6). -/
def portDetect (s : State) (k : Fin 10) : State := if (s.port k).state == 0 && s.portMayRun k then s.toDetect k else s

/-- Entry to Train. -/
def State.toTrain (s : State) (k : Fin 10) : State :=
  s.modPort k fun p => { p with state := 2, lanes := [], capGot := false, capSent := false, gather := [], sentBlk := [], tx := [], txNext := 0 }

/-- DETECT_PROBE: the lanes that show a receiver; with all 16 the port trains at once at width 16 (Table 10.6). -/
def detectProbe (s : State) (k : Fin 10) (present : BitVec 16) : State :=
  if (s.port k).state != 1 then s
  else
    let s := s.modPort k fun p => { p with present := p.present ||| present, sentBlk := [] }
    if (s.port k).present == 0xFFFF then s.toTrain k else s

/-- DETECT_WIDTH_TIMEOUT: 10 ms after lanes 0–7 first showed a receiver (Table 10.6). -/
def detectWidthTimedOut (s : State) (k : Fin 10) : State :=
  let p := s.port k
  if p.state == 1 && p.present.toNat % 256 == 255 then
    (s.modPort k fun p => { p with width8 := p.width8 || p.present != 0xFFFF }).toTrain k
  else s

/-- TRAIN_TIME_EXPIRE: the port enters Lock; a scrambler starts from any non-zero state (R428), a free value. -/
def trainExpired (s : State) (k : Fin 10) : State :=
  if (s.port k).state != 2 then s
  else (List.range 16).foldl (fun (s : State) l =>
    let (w, s) := s.fresh
    let st : BitVec 31 := if w.setWidth 31 = 0 then 1 else w.setWidth 31
    s.modPort k fun p => { p with txPrbs := sset 0 p.txPrbs l st }) (s.modPort k fun p => { p with state := 3, sentBlk := [] })

/-! ### Link state (R448, R455) -/

/-- Link state is cleared; what the partner has not acknowledged returns to its sender, and the tie's goes out again on the other
port (R448, R455, R542). -/
def State.clearLink (s : State) (k : Fin 10) : State :=
  let p := s.port k
  let back := if 8 ≤ k.val then (p.msgs.map (·.1) ++ p.out).filter Msg.returns else []
  let s := s.modPair fun x => { x with back := back ++ x.back }
  let s := s.modPort k fun p =>
    { p with heldL := false, txSeq := 0, replay := [], toSend := [], retries := 0, lastNak := none, sentCnt := 0, peerCred := 0,
             rxExp := 0, nakOut := false, freed := 0, unrep := false, rxHold := [], rxBytes := [], gather := [], msgs := [], out := [] }
  if 8 ≤ k.val then s.tieResend else s

/-- The lane receive-buffer channel of a port is in panic on every stack while one of its ports is (R451). -/
def State.panicLanes (s : State) (k : Fin 10) : State :=
  let c := k.val % 8
  let on := (List.finRange 10).any fun j => j.val % 8 == c && (s.port j).panic
  stackIds.foldl (fun (s : State) i => s.setPanic i (8 + c) on) s

/-- The panic of a receive buffer follows its level (R451). -/
def State.rxPanic (s : State) (k : Fin 10) : State :=
  let r := s.reg (portAt k 0x18)
  let hi := max 1 (bitsOf r 16 13)
  let lo := min (bitsOf r 0 13) (hi - 1)
  let p := s.port k
  let n := p.rxHold.length
  let on := if hi ≤ n then true else if n < lo then false else p.panic
  if on == p.panic then s else (s.setPort k { p with panic := on }).panicLanes k

/-- A retrain: an Active port returns to Train and holds its link state (R441, R448). -/
def State.retrain (s : State) (k : Fin 10) : State :=
  if (s.port k).state == 5 then (s.modPort k fun p => { p with heldL := true }).toTrain k else s

/-- The port fails back to Detect. -/
def State.toIdleOrDetect (s : State) (k : Fin 10) : State :=
  if s.portMayRun k then s.toDetect k else s.modPort k fun p => { p with state := 0, lanes := [], present := 0, sentBlk := [], tx := [], txNext := 0 }

/-- LOCK_TIMEOUT and EXCHANGE_TIMEOUT (Table 10.6). -/
def bringUpTimedOut (s : State) (k : Fin 10) (state : BitVec 4) : State :=
  if (s.port k).state == state then (s.niuriErr k 7).toDetect k else s

/-- HOLD_EXPIRE: the port has not returned to Active within HOLD (R448). -/
def holdExpired (s : State) (k : Fin 10) : State :=
  if (s.port k).heldL && (s.port k).state != 5 then (s.clearLink k).rxPanic k else s

/-! ### Parcels out (R447, R449) -/

/-- A parcel's 256 bytes with the receiver's current ACK and CREDIT (Table 10.8). -/
def parcelBytes (p : PortSt) (data nak : Bool) (seq : BitVec 16) (body : List Byte) : List Byte :=
  let head := leBytes 1 (if data then 1 else 0) ++ leBytes 1 (if nak then 1 else 0) ++ leBytes 2 seq.toNat ++ leBytes 2 p.rxExp.toNat
    ++ leBytes 2 p.freed.toNat ++ leBytes 1 body.length ++ leBytes 3 0 ++ slice body 0 240
  head ++ leBytes 4 (crc32c head).toNat

/-- A message in its bytes (Table 10.10). -/
def msgBytes (m : Msg) : List Byte :=
  [m.kind] ++ leBytes 1 (if m.once then 1 else 0) ++ leBytes 2 m.body.length ++ leBytes 2 m.stream.toNat ++ leBytes 2 0
    ++ leBytes 4 m.seq.toNat ++ leBytes 4 0 ++ m.body

/-- Cut a byte list into parcel bodies; each message starts a parcel of its own (assumption 38). -/
def bodiesOf : Nat → List Byte → List (List Byte)
  | 0, _ => []
  | n + 1, bs => if bs.isEmpty then [] else bs.take 240 :: bodiesOf n (bs.drop 240)

/-- The oldest message handed over becomes parcels, numbered in order (R447). -/
def PortSt.pack (p : PortSt) : PortSt :=
  match p.out with
  | [] => p
  | m :: rest =>
    let bs := bodiesOf 70 (msgBytes m)
    let base := p.txSeq
    { p with out := rest, txSeq := base + BitVec.ofNat 16 bs.length,
             toSend := p.toSend ++ bs.zipIdx.map fun x => { seq := base + BitVec.ofNat 16 x.2, body := x.1 },
             msgs := p.msgs ++ [(m, base + BitVec.ofNat 16 (bs.length - 1))] }

/-- New DATA parcels leave while credit and the replay buffer admit them (R447, R449). -/
def PortSt.sendNew : Nat → PortSt → PortSt
  | 0, p => p
  | n + 1, p => match p.toSend with
    | [] => p
    | x :: r =>
      if (p.sentCnt - p.peerCred).toNat < p.peerRx.toNat ∧ p.replay.length < 1024 then
        PortSt.sendNew n { p with toSend := r, replay := p.replay ++ [x], sentCnt := p.sentCnt + 1, unrep := false,
                                  sentBlk := p.sentBlk ++ [parcelBytes p true p.nakOut x.seq x.body] }
      else p

/-- Messages leave one after the other while their parcels can: one that waits is cut into parcels only when it is its turn, so that a
journal record still goes before the mirror writes that wait (R371). -/
def PortSt.sendAll : Nat → PortSt → PortSt
  | 0, p => p
  | n + 1, p =>
    let p := p.sendNew p.toSend.length
    if p.toSend.isEmpty && !p.out.isEmpty then PortSt.sendAll n p.pack else p

/-- An Active port sends what it can. -/
def State.pump (s : State) (k : Fin 10) : State :=
  if (s.port k).state == 5 then
    let p := s.port k
    let q := PortSt.sendAll (p.out.length + 1) p
    (s.setPort k q).tel 0x0402 (2 * k.val) ((q.replay.drop p.replay.length).map fun x => x.body.length).sum
  else s

/-- A replay from the oldest parcel that is left, or a retrain at the replay limit (R447). -/
def State.replayAll (s : State) (k : Fin 10) : State :=
  let p := s.port k
  let lim := max 1 (s.rf (portAt k 0x10) 24 8)
  if lim ≤ p.retries then (s.niuriErr k 5).retrain k
  else
    (s.satRf (portAt k 0x90) 32 32 1).modPort k fun p =>
      { p with retries := p.retries + 1, unrep := p.unrep && p.replay.isEmpty,
               sentBlk := p.sentBlk ++ p.replay.map fun x => parcelBytes p true p.nakOut x.seq x.body }

/-- The ACK of a replay that starts now: that of its oldest parcel (R447). -/
def PortSt.replayFrom (p : PortSt) : Option (BitVec 16) := p.replay.head?.map (·.seq)

/-- REPLAY_TIMEOUT (R447).  A NAK for the same parcel that comes now is too near to the replay. -/
def replayTimedOut (s : State) (k : Fin 10) : State :=
  let p := s.port k
  if p.state == 5 && !p.replay.isEmpty then
    ((s.setPort k { p with lastNak := p.replayFrom }).replayAll k).pump k
  else s

/-- ACK_IDLE_NULL: an unreported change of ACK, NAK or CREDIT leaves in a NULL parcel (R447). -/
def ackIdle (s : State) (k : Fin 10) : State :=
  if (s.port k).state != 5 then s
  else
    let s := s.pump k
    let p := s.port k
    if p.unrep then s.setPort k { p with unrep := false, sentBlk := p.sentBlk ++ [parcelBytes p false p.nakOut 0 []] } else s

/-! ### Fabric data movement (§14.2.1) -/

/-- Whether `[a, a+n)` lies wholly in one valid window that admits a port and a direction (R582, Tables 14.20, 14.21). -/
def fabWindow (s : State) (port : Fin 8) (write : Bool) (a n : Nat) : Bool :=
  (List.range 16).any fun i =>
    let b := s.reg (engineAt (0x200 + 16 * i))
    let base := bitsOf b 14 25 * 16384
    bitOf b 63 && bitOf b (if write then 62 else 61) && bitOf b (48 + port.val) && decide (base ≤ a) &&
      decide (a + n ≤ base + s.rf (engineAt (0x208 + 16 * i)) 0 40)

/-- A DREADRSP (Table 14.3); a refused request is counted. -/
def State.dreadRsp (s : State) (port : Fin 8) (k : CmsnKey) (tag status cause : Nat) (data : List Byte) (send : Bool) : State :=
  let s := if status = 1 ∨ status = 3 then s.tel 0x0404 port.val else s
  let body := leBytes 4 tag ++ leBytes 1 status ++ leBytes 1 cause ++ leBytes 10 0 ++ data
  if send then s.send (fabPort port) { kind := BitVec.ofNat 8 kDreadRsp, once := false, stream := k.stream, seq := k.seq, body } else s

/-- DWRITE (R582, R583). -/
def dwriteGo (s : State) (port : Fin 8) (k : CmsnKey) (body : List Byte) : State :=
  let a := leAt body 0 8
  let n := body.length - 16
  let tag := leAt body 8 4
  let ack := leAt body 12 1 % 2 == 1
  let form := decide (32 ≤ body.length ∧ n ≤ 16352) && n % 16 == 0 && a % 16 == 0 && decide (a < 2 ^ 39) &&
    decide (leAt body 12 1 ≤ 1) && leAt body 13 3 == 0
  if !form then s.dreadRsp port k tag 3 0 [] ack
  else if !fabWindow s port true a n then s.dreadRsp port k tag 1 0 [] ack
  else
    let bs := body.drop 16
    let (f, s) := devWrite s port none none a (bs.take n) (fabEp port)
    match f with
    | some f => s.dreadRsp port k tag 2 f.cause [] ack
    | none => s.dreadRsp port k tag 0 0 [] ack

/-- DREAD (R582, R583). -/
def dreadGo (s : State) (port : Fin 8) (k : CmsnKey) (body : List Byte) : State :=
  let a := leAt body 0 8
  let n := leAt body 12 4
  let tag := leAt body 8 4
  let form := body.length == 16 && decide (16 ≤ n ∧ n ≤ 16352) && n % 16 == 0 && a % 16 == 0 && decide (a < 2 ^ 39)
  if !form then s.dreadRsp port k tag 3 0 [] true
  else if !fabWindow s port false a n then s.dreadRsp port k tag 1 0 [] true
  else
    let (bs, f, s) := devRead s port none none a n (fabEp port)
    match f with
    | some f => s.dreadRsp port k tag 2 f.cause [] true
    | none => s.dreadRsp port k tag 0 0 bs true

/-! ### Messages in (R452–R454) -/

/-- A message reaches the block that its KIND names (Table 10.11). -/
def State.handle (s : State) (k : Fin 10) (m : Msg) : State :=
  let port : Fin 8 := fin 8 k.val
  let key : CmsnKey := { stream := m.stream, seq := m.seq }
  match m.kind.toNat with
  | 0x01 => cmsnGo s port key m.body
  | 0x04 => dwriteGo s port key m.body
  | 0x05 => dreadGo s port key m.body
  | 0x10 => journalGo s (journalOf m.body)
  | 0x11 => jackGo s (BitVec.ofNat 64 (leAt m.body 0 8))
  | 0x12 =>
    if m.body.length ≤ 16 then rangeGo s (leAt m.body 0 4) (leAt m.body 8 4) (leAt m.body 4 1 % 2 == 1) else mirrorGo s (mirrorOf m.body)
  | 0x13 => mackGo s (BitVec.ofNat 25 (leAt m.body 0 4))
  | 0x14 => heartbeatGo s (heartbeatOf m.body)
  | 0x15 => match leAt m.body 0 1 with
    | 1 => proposeGo s (pairOf m.body)
    | 2 => agreeGo s (pairOf m.body)
    | 3 => refuseGo s
    | 4 => readyGo s (pairOf m.body)
    | 5 => detachGo s
    | 6 => detachedGo s
    | _ => s
  | 0x16 => fenceMsg s (tokenOf m.body)
  | _ => s

/-- The endpoint of a port's block (Table 9.2). -/
def portEp (k : Fin 10) : Nat := if k.val < 8 then fabEp (fin 8 k.val) else if k.val = 8 then 56 else 568

/-- A message leaves through the port's endpoint for the commission engine, in packets of the plate network; data movement goes from
there to the stacks (R450; assumption 31). -/
def State.dispatch (s : State) (k : Fin 10) (m : Msg) : State :=
  if m.kind.toNat = 4 ∨ m.kind.toNat = 5 then s.handle k m
  else
    let e := engineEp s.enginePlate
    let (d, s) := s.carry (portEp k) e
    if d = .taken e then s.handle k m else s

/-- A complete message is delivered, dropped by class or length (R452), or discarded as a duplicate (R454). -/
def State.deliverMsg (s : State) (k : Fin 10) (m : Msg) (len : Nat) : State :=
  let n := m.kind.toNat
  let right := if k.val < 8 then decide (1 ≤ n ∧ n ≤ 6) else decide (0x10 ≤ n ∧ n ≤ 0x16)
  if !right || decide (16368 < len) then (s.satRf (portAt k 0x98) 0 32 1).niuriErr k 9
  else if m.once && k.val < 8 && n != 1 then
    match sget none s.mod.dedup m.stream.toNat with
    | some last =>
      if (last - m.seq).toNat < 2 ^ 31 then s.satRf (portAt k 0x98) 32 32 1
      else (s.modMod fun x => { x with dedup := sset none x.dedup m.stream.toNat (some m.seq) }).dispatch k m
    | none => (s.modMod fun x => { x with dedup := sset none x.dedup m.stream.toNat (some m.seq) }).dispatch k m
  else s.dispatch k m

/-- Drop `n` bytes from the parcels held, oldest first: the counts left, and the parcels freed. -/
def dropHeldBytes : Nat → List Nat → List Nat × Nat
  | n, [] => ([], n * 0)
  | n, x :: r => if x ≤ n then (let (l, f) := dropHeldBytes (n - x) r; (l, f + 1)) else ((x - n) :: r, 0)

/-- Hand on every complete message of the receive buffer, in order (R450, R453).  A message whose block cannot do its access to DRAM now
stays in the buffer until the next parcel (assumption 13). -/
def State.handOn (k : Fin 10) : Nat → State → State
  | 0, s => s
  | fuel + 1, s =>
    let p := s.port k
    let len := leAt p.rxBytes 2 2
    if p.rxBytes.length < 16 ∨ p.rxBytes.length < 16 + len then s
    else
      let m : Msg := { kind := nth 0 p.rxBytes 0, once := leAt p.rxBytes 1 1 % 2 == 1, stream := BitVec.ofNat 16 (leAt p.rxBytes 4 2),
                       seq := BitVec.ofNat 32 (leAt p.rxBytes 8 4), body := slice p.rxBytes 16 len }
      let (hold, n) := dropHeldBytes (16 + len) p.rxHold
      let t := (s.setPort k { p with rxBytes := p.rxBytes.drop (16 + len), rxHold := hold, freed := p.freed + BitVec.ofNat 16 n,
                                     unrep := p.unrep || n != 0 }).deliverMsg k m len
      if t.mod.stall then s else State.handOn k fuel t

/-! ### Entering Active (R440, R448) -/

/-- The port is Active: with link state held on both sides each transmitter resumes from the partner's NEXTRX, else both clear it;
returned messages go out again. -/
def State.toActive (s : State) (k : Fin 10) : State :=
  let p := s.port k
  let keep := p.heldL && p.peerHeld
  let s := if keep then
      s.setPort k { p with replay := p.replay.filter fun x => decide ((x.seq - p.peerNext).toNat < 32768) }
    else (s.clearLink k).rxPanic k
  let s := s.modPort k fun p => { p with state := 5, heldL := false, widthAct := p.width8, protAct := p.robust, retries := 0,
                                         lastNak := p.replayFrom, gather := [], peerRx := p.peerRx }
  let s := s.satRf (portAt k 0x20) 48 16 1
  let s := if keep && !(s.port k).replay.isEmpty then (s.satRf (portAt k 0x90) 32 32 1).modPort k fun p =>
      { p with sentBlk := p.sentBlk ++ p.replay.map fun x => parcelBytes p true p.nakOut x.seq x.body }
    else s
  let s := if k.val < 8 then s.resendCompletions k else s.tieResend
  s.pump k

/-- A command at a port: what it sends leaves on the lanes in its blocks. -/
def State.atPort (s : State) (k : Fin 10) (f : State → State) : State :=
  (f (s.modPort k fun p => { p with sentBlk := [] })).modPort k PortSt.coded

/-- CAP_BLOCK (R440). -/
def capGo (s : State) (k : Fin 10) (c : CapMsg) : State :=
  let p := s.port k
  if p.state != 4 then s
  else if c.cls != decide (8 ≤ k.val) || c.version != 1 then (s.niuriErr k 6).toDetect k
  else
    let p := { p with capGot := true, peerPort := BitVec.ofNat 4 c.port.toNat, peerHeld := c.held, peerNext := c.nextrx,
                      peerRx := c.rxcred, width8 := p.width8 || c.width8, robust := p.robust || c.robust,
                      lanes := if c.width8 then p.lanes.filter fun l => decide (l.1 < 8) else p.lanes }
    let s := s.setPort k p
    if p.capSent && c.seen then s.toActive k else s

/-- The CAP block that a port sends (Table 10.7). -/
def capBytes (k : Fin 10) (p : PortSt) (askWidth8 askRobust : Bool) : List Byte :=
  let b (x : Bool) (n : Nat) : Nat := if x then 2 ^ n else 0
  leBytes 1 0x2D ++ leBytes 1 (b (decide (8 ≤ k.val)) 0 + b askWidth8 1 + b askRobust 2 + b p.capGot 3 + b p.heldL 4)
    ++ leBytes 2 (if p.heldL then p.rxExp.toNat else 0) ++ leBytes 2 4096 ++ leBytes 2 1 ++ leBytes 8 Config.mid.toNat
    ++ leBytes 1 k.val ++ leBytes 15 0

/-- CAP_SEND (Table 10.6): one CAP per 64 blocks in Exchange. -/
def capSend (s : State) (k : Fin 10) : State :=
  let p := s.port k
  if p.state == 4 then s.setPort k { p with capSent := p.capSent || p.capGot, sentBlk := p.sentBlk ++ [capBytes k p p.width8 p.robust] } else s

/-- A CAP block from its payload bytes. -/
def capOf (b : List Byte) : CapMsg :=
  let f := leAt b 1 1
  { cls := f.testBit 0, width8 := f.testBit 1, robust := f.testBit 2, seen := f.testBit 3, held := f.testBit 4,
    nextrx := BitVec.ofNat 16 (leAt b 2 2), rxcred := BitVec.ofNat 16 (leAt b 4 2), version := BitVec.ofNat 16 (leAt b 6 2),
    mid := BitVec.ofNat 64 (leAt b 8 8), port := BitVec.ofNat 8 (leAt b 16 1) }

/-! ### Parcels in (R447) -/

/-- A discarded parcel asks for a replay, unless a NAK is outstanding (R447). -/
def State.askReplay (s : State) (k : Fin 10) : State :=
  let p := s.port k
  if p.nakOut then s
  else (s.satRf (portAt k 0x90) 0 32 1).setPort k
    { p with nakOut := true, unrep := false, sentBlk := p.sentBlk ++ [parcelBytes p false true 0 []] }

/-- A parcel that fails its CRC. -/
def State.badParcel (s : State) (k : Fin 10) : State := (s.niuriErr k 4).askReplay k

/-- The partner's ACK, CREDIT and NAK (R447). -/
def State.takeAck (s : State) (k : Fin 10) (ack cred : BitVec 16) (nak : Bool) : State :=
  let p := s.port k
  let old (x : BitVec 16) : Bool := decide (1 ≤ (ack - x).toNat ∧ (ack - x).toNat ≤ 32768)
  let moved := p.replay.any fun x => old x.seq
  let s := s.setPort k { p with replay := p.replay.filter (fun x => !old x.seq), peerCred := cred,
                                msgs := p.msgs.filter fun x => !(old x.2 && !(p.toSend.any fun y => y.seq == x.2)),
                                retries := if moved then 0 else p.retries, lastNak := if moved then none else p.lastNak }
  let s := if 8 ≤ k.val ∧ !s.pair.back.isEmpty then s.tieResend else s
  if nak && (s.port k).lastNak != some ack then (s.modPort k fun p => { p with lastNak := some ack }).replayAll k else s

/-- A parcel arrives at an Active port. -/
def parcelIn (s : State) (k : Fin 10) (b : List Byte) : State :=
  let kind := leAt b 0 1 % 16
  if leAt b 252 4 != (crc32c (slice b 0 252)).toNat || decide (2 ≤ kind) then s.badParcel k
  else
    let s := s.takeAck k (BitVec.ofNat 16 (leAt b 4 2)) (BitVec.ofNat 16 (leAt b 6 2)) (leAt b 1 1 % 2 == 1)
    let p := s.port k
    let seq := BitVec.ofNat 16 (leAt b 2 2)
    if p.state != 5 then s
    else if kind == 0 then (State.handOn k 16 s).rxPanic k
    else if seq == p.rxExp then
      let n := min 240 (leAt b 8 1)
      let s := s.setPort k { p with rxExp := p.rxExp + 1, nakOut := false, unrep := true, rxBytes := p.rxBytes ++ slice b 12 n,
                                    rxHold := p.rxHold ++ [n] }
      (State.handOn k 16 (s.tel 0x0402 (2 * k.val + 1) n)).rxPanic k
    else if (p.rxExp - seq).toNat ≤ 32768 then s
    else s.askReplay k

/-- PARCEL_RECEIVE: the first parcel of an Exchange that has sent SEEN enters Active (R440). -/
def parcelGo (s : State) (k : Fin 10) (b : List Byte) : State :=
  let p := s.port k
  let s := if p.state == 4 && p.capSent then s.toActive k else s
  if (s.port k).state == 5 then (parcelIn s k b).pump k else s

/-! ### Blocks (R424–R437, R443–R445) -/

/-- A lane loses lock: the search starts again, the run of equal symbols goes on, and an Active port retrains (R431, R433, R441). -/
def State.loseLock (s : State) (k : Fin 10) (l : Nat) : State :=
  ((s.modPort k fun p => p.setLane l { run := (p.lane l).run, level := (p.lane l).level }).niuriErr k 0).retrain k

/-- An invalid header on a locked lane (R433). -/
def State.headerSeen (s : State) (k : Fin 10) (l : Nat) (ok : Bool) : State :=
  let x := (s.port k).lane l
  let bad := (x.bad ++ [!ok]).drop (x.bad.length + 1 - 64)
  let s := if ok then s else s.satRf (portAt k (0x100 + 8 * l)) 48 16 1
  let s := s.modPort k fun p => p.setLane l { x with bad }
  if 16 ≤ (bad.filter id).length then s.loseLock k l else s

/-- A deskew failure (R435): from Lock, Exchange or Active the port returns to Train. -/
def State.deskewFail (s : State) (k : Fin 10) : State :=
  let s := s.niuriErr k 1
  if (s.port k).state == 5 then s.retrain k else if 3 ≤ (s.port k).state.toNat then s.toTrain k else s

/-- The lane of the width whose logical number is `n`. -/
def PortSt.laneAt (p : PortSt) (n : Nat) : Option Nat := (List.range p.width).find? fun l => (p.lane l).logical.toNat == n

/-- A block of the port stream: eight data blocks are a parcel, a control block stands between parcels (R437). -/
def State.streamBlock (s : State) (k : Fin 10) (b : BitVec 258) : State :=
  let p := s.port k
  if blkHdr b = 3 then
    let s := s.setPort k { p with gather := [] }
    if payByte (blkPay b) 0 = 0x2D then capGo s k (capOf (payBytes (blkPay b))) else s
  else
    let s := if p.state == 4 && p.capSent && blkHdr b == 1 then s.toActive k else s
    let p := s.port k
    if p.state != 5 then s
    else
      let g := p.gather ++ [if blkHdr b = 1 then some (blkPay b) else none]
      if g.length < 8 then s.setPort k { p with gather := g }
      else
        let s := s.setPort k { p with gather := [] }
        if g.any (·.isNone) then s.badParcel k
        else (parcelIn s k (g.flatMap fun x => payBytes (x.getD 0))).pump k

/-- Rows of the port stream, while every lane of the width has a block (R435, R436). -/
def State.rows (k : Fin 10) : Nat → State → State
  | 0, s => s
  | fuel + 1, s =>
    let p := s.port k
    let ls := List.range p.width
    if (ls.all fun l => (p.lane l).seeded) && ls.any fun l => 49 < (p.lane l).blocks.length then s.deskewFail k
    else if ls.any fun l => (p.lane l).blocks.isEmpty then s
    else
      let heads := ls.map fun l => nth 0 (p.lane l).blocks 0
      let am (b : BitVec 258) : Bool := blkHdr b == 3 && isAm (blkPay b)
      let pop (q : PortSt) (l : Nat) : PortSt := q.setLane l { q.lane l with blocks := (q.lane l).blocks.drop 1, desk := true }
      if heads.any am then
        if heads.all am && heads.all fun b => fld (blkPay b).toNat 64 32 == fld (blkPay (nth 0 heads 0)).toNat 64 32 then
          let s := s.setPort k { ls.foldl pop p with gather := [] }
          let s := if (s.port k).state == 3 then s.modPort k fun p => { p with state := 4 } else s
          State.rows k fuel s
        else s.deskewFail k
      else
        let q := ls.foldl pop p
        let row := (List.range p.width).filterMap fun n => (p.laneAt n).map fun l => nth 0 heads l
        State.rows k fuel (row.foldl (fun s b => s.streamBlock k b) (s.setPort k q))

/-- A block passes on to deskew; before an AM has given its lane a place it has none. -/
def State.passOn (s : State) (k : Fin 10) (l : Nat) (b : BitVec 258) : State :=
  let x := (s.port k).lane l
  if !x.seeded || (!x.desk && x.blocks.isEmpty && !(blkHdr b == 3 && isAm (blkPay b))) then s
  else
    let s := s.modPort k fun p => p.setLane l { p.lane l with blocks := (p.lane l).blocks ++ [b] }
    State.rows k 64 s

/-- Lanes that are not aligned yet start from equal AMCOUNT values (R435): a lane starts again at each AM, and one that started at an
older AM than another waits for its next. -/
def PortSt.realign (p : PortSt) (l : Nat) (am : BitVec 32) : PortSt :=
  if (p.lane l).desk then p
  else (List.range p.width).foldl (fun (p : PortSt) m =>
    let x := p.lane m
    if m == l || (x.seeded && !x.desk && x.amcount != am && decide ((am - x.amcount).toNat < 2 ^ 31)) then
      p.setLane m { x with blocks := [] }
    else p) p

/-- AM_BLOCK: the descrambler is seeded or checked, the lane is placed, and the four IDLE blocks of the marker row follow; in Robust mode
codewords are counted from its end (R429, R435, R443). -/
def amGo (s : State) (k : Fin 10) (l : Nat) (p : BitVec 256) : State :=
  let port := s.port k
  let x := port.lane l
  if port.state.toNat < 3 ∨ port.width ≤ l ∨ !x.lock then s
  else
    let seed : BitVec 31 := BitVec.ofNat 31 (fld p.toNat 32 31)
    let n := payByte p 1
    let am := BitVec.ofNat 32 (fld p.toNat 64 32)
    let s := if x.seeded && x.prbs != seed then s.niuriErr k 2 else s
    let clash := (List.range port.width).any fun m => m != l && (port.lane m).seeded && (port.lane m).logical.toNat == n
    let x := { x with seeded := true, prbs := seed, logical := BitVec.ofNat 4 n, amcount := am, after := 4,
                      fecOn := port.state == 5 && port.protAct, fec := [] }
    let s := s.modPort k fun q => (q.setLane l x).realign l am
    if port.width ≤ n || clash then s.deskewFail k else s.passOn k l (mkBlk 3 p)

/-- A block whose payload is no longer coded: its header is counted, and it is descrambled and typed; a control block of an unassigned
TYPE is discarded and counts as an invalid header (R426, R427, R433).  `ok` says whether the header arrived valid. -/
def State.plainBlock (s : State) (k : Fin 10) (l : Nat) (ok : Bool) (b : BitVec 258) : State :=
  let x := (s.port k).lane l
  if !x.seeded then s.headerSeen k l ok
  else
    let (bits, st) := prbsBits 256 x.prbs
    let pay := blkPay b ^^^ BitVec.ofNat 256 bits
    let s := s.modPort k fun p => p.setLane l { x with prbs := st }
    let typed := blkHdr b != 3 || payByte pay 0 == 0x1E || payByte pay 0 == 0x2D
    (s.headerSeen k l (ok && typed)).passOn k l (mkBlk (if typed then blkHdr b else 0) pay)

/-- Whether a block's header is valid (R424). -/
def blkOk (b : BitVec 258) : Bool := blkHdr b == 1 || blkHdr b == 3

/-- The blocks of a Robust codeword, once its parity block is there (R443–R445); their headers are counted then (assumption 130). -/
def State.codeword (s : State) (k : Fin 10) (l : Nat) (par : BitVec 258) : State :=
  let x := (s.port k).lane l
  let s := s.modPort k fun p => p.setLane l { x with fec := [] }
  let hdr (n : Nat) (b : BitVec 258) : Nat :=
    if blkOk b then blkHdr b
    else
      let c := fld (blkPay par).toNat (160 + 2 * n) 2
      if c = 2 then 1 else if c = 1 then 3 else 0
  let (ps, s) : List (BitVec 256) × State := match codewordOf x.fec par with
    | some (ps, n) => (ps, s.satRf (portAt k (0x100 + 8 * l)) 16 16 n)
    | none => (x.fec.map blkPay, s.niuriErr k 8)
  let s := x.fec.zipIdx.foldl (fun (s : State) b =>
    if ((s.port k).lane l).lock then s.plainBlock k l (blkOk b.1) (mkBlk (hdr b.2 b.1) (nth (blkPay b.1) ps b.2)) else s) s
  if ((s.port k).lane l).lock then s.headerSeen k l (blkOk par) else s

/-- A whole block of a locked lane: an AM, an IDLE block of the marker row, a block of a codeword, or a plain one. -/
def State.laneBlock (s : State) (k : Fin 10) (l : Nat) (b : BitVec 258) : State :=
  let x := (s.port k).lane l
  if blkHdr b = 3 && isAm (blkPay b) then amGo (s.headerSeen k l true) k l (blkPay b)
  else if x.after ≠ 0 then
    (s.modPort k fun p => p.setLane l { x with after := x.after - 1 }).plainBlock k l (blkOk b) b
  else if x.fecOn then
    if x.fec.length < 10 then s.modPort k fun p => p.setLane l { x with fec := x.fec ++ [b] } else s.codeword k l b
  else s.plainBlock k l (blkOk b) b

/-- One de-stuffed symbol: the search for block lock, or the block under way (R432). -/
def State.laneSymbol (s : State) (k : Fin 10) (l : Nat) (v : Fin 4) : State :=
  let x := (s.port k).lane l
  let ok := v.val == 1 || v.val == 3
  if x.buf.isEmpty && !x.lock then
    if ok then
      s.modPort k fun p => p.setLane l { x with buf := [v], good := x.good + 1, lock := decide (64 ≤ x.good + 1) }
    else s.modPort k fun p => p.setLane l { x with good := 0, cand := (x.cand + 1) % 129 }
  else if x.buf.length < 128 then s.modPort k fun p => p.setLane l { x with buf := x.buf ++ [v] }
  else
    let s := s.modPort k fun p => p.setLane l { x with buf := [] }
    if x.lock then s.laneBlock k l (blockOf (x.buf ++ [v])) else s

/-- One received symbol: stuff symbols are removed (R431). -/
def State.rxSymbol (s : State) (k : Fin 10) (l : Nat) (v : Fin 4) : State :=
  let x := (s.port k).lane l
  if x.run = 24 then
    let s := s.modPort k fun p => p.setLane l { x with run := 1, level := v }
    if v.val + x.level.val = 3 then s else (s.satRf (portAt k (0x100 + 8 * l)) 32 16 1).niuriErr k 3
  else
    let run := if x.run ≠ 0 ∧ v = x.level then x.run + 1 else 1
    (s.modPort k fun p => p.setLane l { x with run, level := v }).laneSymbol k l v

/-- BLOCK_RECEIVE: a lane of the width receives symbols in Lock, Exchange or Active. -/
def blockGo (s : State) (k : Fin 10) (l : Fin 16) (symbols : List (Fin 4)) : State :=
  symbols.foldl (fun (s : State) v =>
    if 3 ≤ (s.port k).state.toNat ∧ l.val < (s.port k).width then s.rxSymbol k l.val v else s) s

/-- MARKER_ROW_SEND: on every lane of the width an AM with its SEED and four IDLE blocks, behind the IDLE blocks that fill the lane
since the last row (R428, R434; assumption 123). -/
def markerRow (s : State) (k : Fin 10) : State :=
  let p := s.port k
  if p.state.toNat < 3 ∨ 5 < p.state.toNat then s
  else
    let n := p.amSent + 1
    let ls := List.range p.width
    let q := ls.foldl (fun (q : PortSt) l => q.markLane k.val n.toNat l) p.quiet
    let am (l : Nat) : List Byte := amBytes k.val l (sget 0 (PortSt.fillLane l 16379 p).txPrbs l).toNat n.toNat
    s.setPort k { q with amSent := n, txNext := 0,
                         sentBlk := ls.map am ++ List.replicate (4 * p.width) (payBytes idlePay) }

/-! ### Registers, reset and the steward's poll -/

/-- NIURI_RETRAIN (R441). -/
def retrainGo (s : State) (k : Fin 10) : State := s.retrain k

/-- A write of NIURI_CFG: ENABLE 0 holds the port in Idle and clears its link state (R448, Table 10.13). -/
def niuriCfgWrite (s : State) (k : Fin 10) (v : Word) : State :=
  let a := portAt k 0
  let s := ((s.setRf a 8 3 (bitsOf v 8 3)).setRf a 0 3 (bitsOf v 0 3))
  let s := if k = 0 ∧ !s.mod.locked then s.setRf a 4 1 (bitsOf v 4 1) else s
  if bitOf v 0 || (s.port k).state == 0 then s
  else ((s.modPort k fun p => { p with state := 0, lanes := [], present := 0, sentBlk := [], tx := [], txNext := 0 }).clearLink k).rxPanic k

/-- The per-function reset of a port (R457). -/
def portReset (s : State) (k : Fin 10) : State :=
  let s := ((s.toIdleOrDetect k).clearLink k).rxPanic k
  let s := ((s.setReg (portAt k 0x30) 0).setReg (portAt k 0x90) 0).setReg (portAt k 0x98) 0
  let s := (List.range 16).foldl (fun (s : State) l => s.setRf (portAt k (0x100 + 8 * l)) 16 48 0) s
  let s := if (s.port k).panic then (s.modPort k fun p => { p with panic := false }).panicLanes k else s
  (s.setRf (portAt k 0x20) 48 16 0).setBusy (0x300 + k.val)

/-- NIURI_LANE_POLL, once a second (§10.8): a noisy port moves to Robust by a per-function reset, a quiet one returns to
Low-latency, and a port of which a lane in 8–15 cannot lock comes up at width 8. -/
def lanePoll (s : State) (k : Fin 10) : State :=
  let p := s.port k
  let inv := (List.range 16).map fun l => s.rf (portAt k (0x100 + 8 * l)) 48 16
  let fec := ((List.range 16).map fun l => s.rf (portAt k (0x100 + 8 * l)) 16 16).sum
  let crc := (s.reg (portAt k 0x58)).toNat
  let noisy := (inv.zipIdx.any fun x => decide (s.policy 6 + nth 0 p.pollInv x.2 ≤ x.1)) || decide (s.policy 7 + p.pollCrc ≤ crc)
  let event := noisy || (p.protAct && decide (s.policy 8 + p.pollFec ≤ fec))
  let quiet := if event then 0 else p.quietS + 1
  let s := s.setPort k { p with pollInv := inv, pollFec := fec, pollCrc := crc, quietS := quiet }
  let robust := bitOf (s.reg (portAt k 0)) 2
  let again (s : State) : State := (portReset s k).modPort k fun q => { q with quietS := 0, pollInv := [], pollFec := 0 }
  if noisy && !robust then again (s.setRf (portAt k 0) 2 1 1)
  else if robust && s.policy 9 != 0 && decide (3600 * s.policy 9 ≤ quiet) then again (s.setRf (portAt k 0) 2 1 0)
  else if s.policy 0xA == 1 && p.state == 3 && !p.width8 && ((List.range 8).all fun l => (p.lane l).lock)
      && (List.range 8).any fun l => !(p.lane (8 + l)).lock then again (s.setRf (portAt k 0) 1 1 1)
  else s

end Sys2Proof.Machine
end

