-- ==== Sys2Proof/Machine/Frames.lean ====
section
/-! DEFINITION. Configuration frames (§12.4): addresses, the golden copy, golden signatures; and the scrubbers (§12.7). -/
namespace Sys2Proof.Machine

/-! ### Frame addresses (Table 12.7, R491) -/

def fKind (a : Nat) : Nat := fld a 18 1
def fRegion (a : Nat) : Nat := fld a 15 3
def fCol (a : Nat) : Nat := fld a 4 11
def fBlock (a : Nat) : Nat := fld a 5 8

/-- Whether every field of a frame address lies in its range. -/
def frameValid (a : Nat) : Bool :=
  decide (a < 2 ^ 19) && if fKind a = 0 then decide (fCol a < 1250) else fld a 13 2 == 0

/-- Whether a run of `n` frames from `a` is valid: KIND and region stay, the column or block range is not passed. -/
def runValid (a n : Nat) : Bool :=
  frameValid a && decide (1 ≤ n) && frameValid (a + n - 1) && a / 2 ^ 15 == (a + n - 1) / 2 ^ 15

/-- The number of a logic frame on its plate, as SCRUB_STAT.POS counts, and its address. -/
def frameNo (a : Nat) : Nat := fRegion a * 20000 + fld a 0 15
def frameOfNo (n : Nat) : Nat := n / 20000 * 2 ^ 15 + n % 20000

/-- The 128 bytes of a frame. -/
def frameBytes (d : BitVec 1024) : List Byte := leBytes 128 d.toNat
def frameOf (bs : List Byte) : BitVec 1024 := BitVec.ofNat 1024 (leNat (slice bs 0 128))

/-- The golden signature of a logic frame (§12.4.1). -/
def signature (a : Nat) (d : BitVec 1024) : BitVec 32 := crc32c (leBytes 8 a ++ frameBytes d)

/-! ### Frames, golden copy and signature table -/

/-- A logic frame as it reads back. -/
def State.frame (s : State) (p : Fin 8) (a : Nat) : BitVec 1024 :=
  sget 0 (s.plate p).frames a ^^^ sget 0 (s.plate p).stuck a

/-- Write a frame or a margin RAM line. -/
def State.writeFrame (s : State) (p : Fin 8) (a : Nat) (d : BitVec 1024) : State :=
  if fKind a = 0 then s.modPlate p fun x => { x with frames := sset 0 x.frames a d }
  else
    let o := fBlock a * 4096 + fld a 0 5 * 128
    s.modRegion ⟨p, fin 8 (fRegion a)⟩ fun x =>
      { x with ram := writeMem x.ram o (frameBytes d), ramMarks := sclear x.ramMarks (o / 8) 16 }

/-- The place of a region's golden partition in plate store. -/
def goldenBase (r : Nat) : Nat := r * 0x300000

/-- Plate store read for the golden copy: an uncorrectable word reads as zeros and is reported (R351). -/
def State.goldenRead (s : State) (p : Fin 8) (a n : Nat) : List Byte × State :=
  let (bs, bad, s) := psRead s p a n
  (bs, if bad then s.pstoreUe p 0 else s)

/-- A slot that no index entry names; there are more slots than frames. -/
def State.freeSlot (s : State) (p : Fin 8) (r : Nat) : Nat × State :=
  let (bs, s) := s.goldenRead p (goldenBase r) 80000
  let used := ((List.range 20000).map fun k => leAt bs (4 * k) 4).filter fun e => e.testBit 31
  ((firstIdx 23936 fun k => !(used.any fun e => e % 2 ^ 15 == k)).getD 0, s)

/-- Write a frame into the golden copy: it keeps its slot, or takes the lowest free one. -/
def State.writeGolden (s : State) (p : Fin 8) (a : Nat) (d : BitVec 1024) : State :=
  let r := fRegion a
  let idx := fld a 0 15
  if d = 0 then psWrite s p (goldenBase r + 4 * idx) (leBytes 4 0)
  else
    let (bs, s) := s.goldenRead p (goldenBase r + 4 * idx) 4
    let e := leNat bs
    let (k, s) := if e.testBit 31 then (e % 2 ^ 15, s) else s.freeSlot p r
    psWrite (psWrite s p (goldenBase r + 4 * idx) (leBytes 4 (2 ^ 31 + k))) p (goldenBase r + 0x14000 + 128 * k) (frameBytes d)

/-- The golden copy of a frame, and whether plate store could not be read. -/
def readGolden (s : State) (p : Fin 8) (a : Nat) : BitVec 1024 × Bool × State :=
  let r := fRegion a
  let (e, bad, s) := psRead s p (goldenBase r + 4 * fld a 0 15) 4
  if bad then (0, true, s)
  else if !(leNat e).testBit 31 then (0, false, s)
  else
    let (d, bad, s) := psRead s p (goldenBase r + 0x14000 + 128 * (leNat e % 2 ^ 15)) 128
    (frameOf d, bad, s)

/-- The scrubber reports a golden copy that it could not read (R351). -/
def goldenUe (s : State) (p : Fin 8) : State :=
  s.report (memRec s { cause := cPstoreUe, suspect := pstoreUnit p } 7 0 p.val (scrubUnit p) false false 0 0)

/-- Write the signature of a frame. -/
def State.setSig (s : State) (p : Fin 8) (n : Nat) (v : BitVec 32) : State :=
  s.modPlate p fun x => { x with sigs := sset 0 x.sigs n v, sigMarks := sdel x.sigMarks n }

/-- A logic frame goes to the margin, the golden copy and the signature table from the same data (R498); a margin RAM line only to
the margin. -/
def State.loadFrame (s : State) (p : Fin 8) (a : Nat) (d : BitVec 1024) : State :=
  let s := s.writeFrame p a d
  if fKind a = 0 then (s.writeGolden p a d).setSig p (frameNo a) (signature a d) else s

/-! ### Checking a frame (R517–R521) -/

/-- SCRUB_LOG takes a frame; a repair never replaces an unrepairable frame whose flag stands (Table 12.28). -/
def State.scrubLog (s : State) (p : Fin 8) (a : Nat) (bad : Bool) : State :=
  let l := scrubAt p 0x38
  if !bad && bitOf (s.reg l) 1 && bitOf (s.reg (scrubAt p 0x10)) 1 then s
  else s.setReg l (BitVec.ofNat 64 (a * 2 ^ 16 + (if bad then 2 else 0) + 1))

/-- A flag of a scrubber with its record. -/
def State.scrubFlag (s : State) (p : Fin 8) (b : Nat) : State :=
  (s.flag (scrubAt p 0x10) b).reportFlag (scrubUnit p) (scrubUnit p) 0x08 b 0 0 0 (s.reg (scrubAt p 0x38)).toNat

/-- A frame has been repaired (R518); after a repair in an OPEN region the steward aborts its commission (§12.7). -/
def State.frameRepaired (s : State) (p : Fin 8) (a : Nat) : State :=
  let r := fRegion a
  let i : RegionId := ⟨p, fin 8 r⟩
  let s := ((((s.scrubLog p a false).scrubFlag p 0)).satRf (scrubAt p 0x40) (8 * r) 8 1).tel 0x0601 p.val
  if (s.region i).state = .opened ∧ s.policy 0x0F = 1 then s.abortRegion i else s

/-- A frame cannot be repaired (R519); the steward reports the region to management (§12.7). -/
def State.frameLost (s : State) (p : Fin 8) (a : Nat) : State :=
  let i : RegionId := ⟨p, fin 8 (fRegion a)⟩
  let s := (s.scrubLog p a true).scrubFlag p 1
  (((s.shut i).modRegion i fun x => { x with state := .incoherent }).abortRegion i).event 0x05 (regionUnit i) a

/-- Compare a frame with its signature, and repair it (R517, R521). -/
def State.checkFrame (s : State) (p : Fin 8) (n : Nat) : State :=
  let a := frameOfNo n
  let mark : Option Mark := ((s.plate p).sigMarks.find? fun m => m.1 == n).map (·.2)
  let (lost, s) : Bool × State := match mark with
    | none => (false, s)
    | some (.corrected _) => (false, s.modPlate p fun x => { x with sigMarks := sdel x.sigMarks n })
    | some _ =>
      let (g, bad, s) := readGolden s p a
      if bad then (true, goldenUe s p) else (false, (s.setSig p n (signature a g)).flag (scrubAt p 0x10) 3)
  let sig := sget 0 (s.plate p).sigs n
  if lost then s.frameLost p a
  else if signature a (s.frame p a) = sig then s
  else
    let (g, bad, s) := readGolden s p a
    let s := if bad then goldenUe s p else s
    if bad || signature a g != sig then s.frameLost p a
    else
      let s := s.writeFrame p a g
      if signature a (s.frame p a) = sig then s.frameRepaired p a else s.frameLost p a

/-! ### The sweep (R516, R520, R522) -/

/-- The voted value of three copies. -/
def vote3 (l : List ScrubSeq) : ScrubSeq :=
  let a := nth {} l 0
  let b := nth {} l 1
  let c := nth {} l 2
  if a = b then a else if a = c then a else b

/-- The sequencing state of a scrubber, as it is voted. -/
def State.scrubSeq (s : State) (p : Fin 8) : ScrubSeq := vote3 (s.plate p).scrub.copies

/-- All three copies take a value. -/
def State.setScrub (s : State) (p : Fin 8) (x : ScrubSeq) : State :=
  s.modPlate p fun z => { z with scrub := { z.scrub with copies := [x, x, x] } }

/-- The vote of a cycle: a copy that differs is rewritten, and SCRUB_ERR.VOTE is set; `minority` is a copy in which an upset has
struck (R520). -/
def State.scrubVote (s : State) (p : Fin 8) (minority : Option (Fin 3)) : State :=
  let x := s.scrubSeq p
  if minority.isSome || (s.plate p).scrub.copies != [x, x, x] then (s.setScrub p x).flag (scrubAt p 0x10) 2 else s

/-- The scrubber moves to position `n`; the end of the sweep is counted. -/
def State.scrubTo (s : State) (p : Fin 8) (n : Nat) : State :=
  let s := s.setScrub p { s.scrubSeq p with pos := if 160000 ≤ n then 0 else n }
  if 160000 ≤ n then s.addRf (scrubAt p 8) 32 32 1 else s

/-- SCRUB_FRAME_CHECK: the copies are voted, and a scrubber that sweeps, which one reported as failed does not, reads the next frame. -/
def scrubCheck (s : State) (p : Fin 8) (minority : Option (Fin 3)) : State :=
  if s.mod.busy.contains (0x118 + p.val * 0x20) then s
  else
    let s := s.scrubVote p minority
    let n := (s.scrubSeq p).pos
    let i : RegionId := ⟨p, fin 8 (n / 20000)⟩
    if !(s.scrubSeq p).ctl.toNat.testBit 0 || (s.plate p).scrub.failed then s
    else if (s.region i).state = .loading ∨ (s.region i).state = .incoherent then s.scrubTo p ((n / 20000 + 1) * 20000)
    else (s.checkFrame p n).scrubTo p (n + 1)

/-- SCRUBBER_RESET (R522). -/
def scrubReset (s : State) (p : Fin 8) : State :=
  let s := s.setScrub p { s.scrubSeq p with pos := 0 }
  let s := (s.setReg (scrubAt p 0x10) 0).setReg (scrubAt p 0x38) 0
  s.setBusy (0x118 + p.val * 0x20)

/-- The time in ns without progress after which the steward resets a scrubber: SCRUB_STALL sweeps of 160,000 × PACE network-clock cycles of
0.5 ns, and at least 20 ms (§12.7, Table 14.14). -/
def State.sweepLimit (s : State) (p : Fin 8) : Nat :=
  max 20000000 (s.policy 0x0C * (160000 * max 8 ((s.scrubSeq p).ctl.toNat / 256)) / 2)

/-- SWEEP_WATCH: the steward finds whether SWEEPS has advanced within the watch's limit; a scrubber that has not is reset, and after
SCRUB_RESETS such resets within SCRUB_FAIL_MS it is reported as failed (§12.7). -/
def sweepCheck (s : State) (p : Fin 8) : State :=
  let n := BitVec.ofNat 32 (s.rf (scrubAt p 8) 32 32)
  let x := (s.plate p).scrub
  let now := s.mod.time
  let set (y : ScrubSt) : State := s.modPlate p fun z => { z with scrub := y }
  let resets := x.resets.filter fun t => decide ((now - t).toNat ≤ s.policy 0x0E * 1000000)
  if n ≠ x.lastSeen then set { x with lastSeen := n, since := now, resets := [] }
  else if x.failed ∨ (now - x.since).toNat < s.sweepLimit p then s
  else if s.policy 0x0D ≤ resets.length then (set { x with failed := true }).event 0x06 (scrubUnit p) 0
  else scrubReset (set { x with since := now, resets := resets ++ [now] }) p

end Sys2Proof.Machine
end

