-- ==== Sys2Proof/Machine/Icp.lean ====
section
/-! DEFINITION. The internal configuration port (§12.6): the channel of a region, its manifest checks and its load. -/
namespace Sys2Proof.Machine

/-- STATUS of a channel. -/
def State.icpStatus (s : State) (i : RegionId) : Nat := s.rf (channelAt i 0x10) 0 3

/-- A load starts (R507): a start while one is under way, or before Ready, is discarded and counted. -/
def icpBegin (s : State) (i : RegionId) (user : Option (BitVec 39)) : State :=
  let st := s.icpStatus i
  if st = 1 ∨ st = 2 ∨ !s.engine.ready then s.discard
  else
    let s := match user with
      | some a => s.setReg (channelAt i 0) (a.setWidth 64)
      | none => s
    let s := s.setReg (channelAt i 0x10) (if user.isSome then 1 else 0x101)
    (s.modRegion i fun x => { x with entries := [], recNo := 0, written := [], data := [], digest := [] }).modPlate i.p
      fun x => { x with icpQ := x.icpQ.filter (· != i.r) ++ [i.r] }

/-- The channel leaves the queue of the signature engine. -/
def State.leaveQ (s : State) (i : RegionId) : State :=
  s.modPlate i.p fun x => { x with icpQ := x.icpQ.filter (· != i.r) }

/-- The stream is rejected (R508). -/
def State.icpReject (s : State) (i : RegionId) (reason : Nat) : State :=
  let a := channelAt i 0x10
  ((((s.leaveQ i).setRf a 0 3 4).setRf a 16 8 reason).flag (channelAt i 0x20) 0).reportFlag (regionUnit i) (regionUnit i) 0x0B 0

/-- The load is aborted (R510). -/
def State.icpAbort (s : State) (i : RegionId) (reason : Nat) : State :=
  let a := channelAt i 0x10
  let s := (((s.setRf a 0 3 5).setRf a 16 8 reason).flag (channelAt i 0x20) 1).reportFlag (regionUnit i) (regionUnit i) 0x0B 1
  s.modRegion i fun x => { x with state := .incoherent, entries := [], recNo := 0, written := [], data := [] }

/-- Conditions 1 to 3 of R485 over a key block, a message digest and two signatures: which fails first (0 none). -/
def authentic (key digest rsa slh : List Byte) : Nat :=
  let hash (n : Nat) : List Byte := (List.range 6).flatMap fun k => leBytes 8 (Config.keyHash (fin 12 (n + k))).toNat
  if sha384 (slice key 0 388) ≠ hash 0 ∨ sha384 (slice key 388 48) ≠ hash 6 then 1
  else if slice key 384 4 ≠ [0, 1, 0, 1] ∨ !rsaPss (slice key 0 384) digest rsa then 2
  else if !slhDsa (slice key 388 48) digest slh then 3
  else 0

/-- Whether two runs of frames meet. -/
def runsMeet (a b : Nat × Nat) : Bool := decide (a.1 < b.1 + b.2 ∧ b.1 < a.1 + a.2)

/-- Whether no two runs of a list meet. -/
def runsApart : List (Nat × Nat) → Bool
  | [] => true
  | x :: r => (r.all fun y => !runsMeet x y) && runsApart r

/-- Whether a run lies inside a region's window (R505). -/
def inRegionWindow (w : Word) (r : Nat) (e : Nat × Nat) : Bool :=
  let last := e.1 + e.2 - 1
  fRegion e.1 == r && if fKind e.1 = 0 then decide (bitsOf w 0 11 ≤ fCol e.1 ∧ fCol last ≤ bitsOf w 16 11)
    else decide (bitsOf w 32 8 ≤ fBlock e.1 ∧ fBlock last ≤ bitsOf w 40 8)

/-- The frames of a window. -/
def windowFrames (w : Word) : Nat := (bitsOf w 16 11 + 1 - bitsOf w 0 11) * 16 + (bitsOf w 40 8 + 1 - bitsOf w 32 8) * 32

/-- The checks of Table 12.13 on a manifest that has been read: the first reason, or 0, and the entries. -/
def manifestReason (s : State) (i : RegionId) (m : List Byte) (n : Nat) : Nat × List (Nat × Nat) :=
  let w := s.reg (channelAt i 0x18)
  let es := (List.range n).map fun k => leAt m (0x4400 + 8 * k) 8
  let runs := es.map fun e => (fld e 0 24, fld e 32 16 + 1)
  let whole := leAt m 12 4 == 1
  let form := leAt m 0 4 == 0x4D505653 && leAt m 4 2 == 1 && decide (1 ≤ n ∧ n ≤ 4096) && decide (leAt m 6 1 < 8)
    && decide (leAt m 7 1 < 8) && decide (leAt m 12 4 < 2) && (slice m 0x4320 0xE0).all (· == 0) && (slice m 0x1F4 76).all (· == 0)
    && (es.all fun e => fld e 24 8 == 0 && fld e 48 16 == 0) && (runs.all fun e => runValid e.1 e.2) && runsApart runs
  let d := sha384 (slice m 0 0x240 ++ slice m 0x4400 (8 * n))
  let r :=
    if !form then 0x11
    else if leAt m 6 1 ≠ i.p.val ∨ leAt m 7 1 ≠ i.r.val then 0x12
    else
      let a := authentic (slice m 0x40 512) d (slice m 0x240 384) (slice m 0x3C0 16224)
      if a ≠ 0 then 0x12 + a
      else if !bitOf w 49 || !(runs.all (inRegionWindow w i.r.val)) then 0x16
      else if (s.region i).state = .incoherent ∧ !whole then 0x17
      else if whole && (runs.map (·.2)).sum != windowFrames w then 0x18
      else 0
  (r, runs)

/-- MANIFEST_CHECK: the channel at the head of the signature engine's queue checks its manifest, and its load starts (R508,
R509). -/
def manifestGo (s : State) (i : RegionId) : State :=
  if s.icpStatus i ≠ 1 ∨ (s.plate i.p).icpQ.head? ≠ some i.r then s
  else
    let src := s.rf (channelAt i 0) 0 39
    if src % 128 ≠ 0 then s.icpReject i 0x10
    else
      let (h, f, s) := devRead s i.p none none src 0x4400 (agentEp i.p)
      let n := leAt h 8 4
      let (es, g, s) := if f.isNone && decide (n ≤ 4096) then devRead s i.p none none (src + 0x4400) (8 * n) (agentEp i.p) else ([], none, s)
      if f.isSome || g.isSome then s.icpReject i 0x10
      else
        let (r, runs) := manifestReason s i (h ++ es) n
        if r ≠ 0 then s.icpReject i r
        else
          let s := ((s.leaveQ i).abortRegion i).shut i
          (s.setRf (channelAt i 0x10) 0 3 2).modRegion i fun x =>
            { x with state := .loading, entries := runs, recNo := 0, written := [], data := [], digest := slice h 16 48 }

/-- The address of record `k` of a list of runs. -/
def recordAddr : List (Nat × Nat) → Nat → Option Nat
  | [], _ => none
  | (a, n) :: r, k => if k < n then some (a + k) else recordAddr r (k - n)

/-- The channel whose turn it is at the frame writer of a plate: the channels that load take turns, in the order of their numbers (R514). -/
def State.nextWriter (s : State) (p : Fin 8) : Option (Fin 8) :=
  let last := (s.plate p).writer
  ((List.range 8).map fun k => fin 8 ((last.val + 1 + k) % 8)).find? fun r =>
    s.icpStatus ⟨p, r⟩ == 2 && (recordAddr (s.region ⟨p, r⟩).entries (s.region ⟨p, r⟩).recNo).isSome

/-- PARTIAL_RECORD_FETCH: the channel whose turn it is reads its next record and writes the frame (R509, R510, R514). -/
def recordFetch (s : State) (i : RegionId) : State :=
  let x := s.region i
  if s.icpStatus i ≠ 2 ∨ s.nextWriter i.p ≠ some i.r then s
  else match recordAddr x.entries x.recNo with
    | none => s
    | some a =>
      let base := s.rf (channelAt i 0) 0 39 + (0x4400 + 8 * x.entries.length + 127) / 128 * 128
      let (b, f, s) := devRead s i.p none none (base + 132 * x.recNo) 132 (agentEp i.p)
      if f.isSome then s.icpAbort i 0x21
      else if leAt b 0 4 ≠ a then s.icpAbort i 0x20
      else
        let d := frameOf (b.drop 4)
        let s := (s.writeFrame i.p a d).modPlate i.p fun z => { z with writer := i.r }
        let s := (s.satRf (channelAt i 0x10) 32 32 1).satRf (channelAt i 0x38) 0 32 1
        s.modRegion i fun x =>
          { x with recNo := x.recNo + 1, data := x.data ++ b, written := if fKind a = 0 then x.written ++ [(a, d)] else x.written }

/-- PARTIAL_LOAD_COMPLETE: every listed frame is written and the digest is checked (R511). -/
def loadComplete (s : State) (i : RegionId) : State :=
  let x := s.region i
  if s.icpStatus i ≠ 2 ∨ (recordAddr x.entries x.recNo).isSome then s
  else if sha384 x.data ≠ x.digest then s.icpAbort i 0x22
  else
    let w := s.reg (channelAt i 0x18)
    let lo := bitsOf w 0 11
    let s := x.written.foldl (fun (s : State) f => (s.writeGolden i.p f.1 f.2).setSig i.p (frameNo f.1) (signature f.1 f.2)) s
    let s := s.modRegion i fun x =>
      { x with state := .closed, ffs := sclear x.ffs (lo * 65536) ((bitsOf w 16 11 + 1 - lo) * 65536), entries := [], recNo := 0,
               written := [], data := [] }
    let a := channelAt i 0x10
    (((s.setRf a 0 3 3).setRf a 16 8 0).satRf (channelAt i 0x38) 32 32 1).tryOpen i

end Sys2Proof.Machine
end

