-- ==== Sys2Proof/Machine/Power.lean ====
section
/-! DEFINITION. Clock modes, power cap and thermal limits (§15.3), the steward's clock policy (R599), and the watchdog (R577). -/
namespace Sys2Proof.Machine

/-! ### The mode in force (R611–R614) -/

/-- A mode code; 0b11 acts as 0b10 (Tables 14.10, 15.8). -/
def modeCode (n : Nat) : Nat := min n 2

/-- HWLIM of a plate (R615). -/
def State.hwlim (s : State) (p : Fin 8) : Nat :=
  max (max (s.plate p).capC.toNat (s.plate p).thermC.toNat) s.mod.inputC.toNat

/-- The slowest of the three requests for a plate (R611). -/
def State.clkWant (s : State) (p : Fin 8) : Nat :=
  max (max (modeCode (s.rf 0x108 (2 * p.val) 2)) (modeCode (s.rf 0x118 (2 * p.val) 2))) (s.hwlim p)

/-- A switch of a plate's clock starts when its slowest request has changed and none is under way (R612, R614). -/
def State.clkStart (s : State) (p : Fin 8) : State :=
  let x := s.plate p
  if x.switch.isNone ∧ s.clkWant p ≠ x.act.toNat ∧ !s.mod.inReset then
    s.setPlate p { x with switch := some (BitVec.ofNat 2 (s.clkWant p)) }
  else s
def State.clkStartAll (s : State) : State := plateIds.foldl (fun (s : State) p => s.clkStart p) s

/-- CLOCK_SWITCH: the switch under way completes; a request that changed meanwhile starts a further one (R612, R614). -/
def clockSwitchGo (s : State) (p : Fin 8) : State :=
  let x := s.plate p
  match x.switch with
  | none => s
  | some m => (((s.setPlate p { x with act := m, switch := none }).event 0x09 0 m.toNat).gauge 0x0105 p.val m.toNat).clkStart p

/-- A plate's clock restarts after TRIP_PLATE (Table 15.4). -/
def State.restartPlate (s : State) (p : Fin 8) : State :=
  ((((s.modPlate p fun x => { x with stopped := false, thermC := 2 }).setRf 0x118 (32 + p.val) 1 0).clkStart p).topo)

/-- RESTART(p): with TRIP(p) set and TJ below 95.0 °C the plate restarts; else the write is discarded and counted (Table 15.8).  After
TRIP_MODULE only a module reset restarts it (R615). -/
def State.tryRestart (s : State) (p : Fin 8) : State :=
  if s.rf 0x118 (32 + p.val) 1 = 1 ∧ (s.plate p).tj.toNat < 950 ∧ s.mod.tripped = false then s.restartPlate p else s.discard

/-- CLKMODE_WRITE: a write of GLB_CLKMODE, or of GLB_CLKLIM. -/
def clkmodeSet (s : State) (lim : Bool) (v : Word) : State :=
  if lim then
    let s := (s.setRf 0x118 0 16 (bitsOf v 0 16)).clkStartAll
    plateIds.foldl (fun (s : State) p => if bitOf v (40 + p.val) then s.tryRestart p else s) s
  else (s.setRf 0x108 0 16 (bitsOf v 0 16)).clkStartAll

/-! ### Hardware limits (R615) -/

/-- CAP as it acts (Table 14.11). -/
def State.capW (s : State) : Nat := min 6000 (max 3000 (s.rf 0x110 0 16))

/-- A sample of the input power. -/
def State.power (s : State) (w : BitVec 16) : State := (s.setRf 0x110 32 16 w.toNat).gauge 0x0101 0 w.toNat
/-- A sample of a plate's junction temperature, in units of 0.1 °C. -/
def State.heat (s : State) (p : Fin 8) (tj : BitVec 16) : State :=
  (s.modPlate p fun x => { x with tj }).gauge 0x0103 p.val tj.toNat

/-- POWER_CAP_STEP. -/
def capStep (s : State) (w : BitVec 16) : State :=
  let s := s.power w
  let ps := plateIds.filter fun p => (s.plate p).act != 2 && decide ((s.plate p).capC.toNat < 2)
  if s.capW < w.toNat ∧ !ps.isEmpty then
    (ps.foldl (fun (s : State) p => s.modPlate p fun x => { x with capC := x.capC + 1 }) (s.flag 0x120 0)).clkStartAll
  else s

/-- POWER_CAP_RELEASE. -/
def capRelease (s : State) (w : BitVec 16) : State :=
  let s := s.power w
  if w.toNat * 100 < 95 * s.capW then
    (plateIds.foldl (fun (s : State) p =>
      if (s.plate p).capC = 0 then s else s.modPlate p fun x => { x with capC := x.capC - 1 }) s).clkStartAll
  else s

/-- THERMAL_HOT. -/
def hotGo (s : State) (p : Fin 8) (tj : BitVec 16) : State :=
  let s := s.heat p tj
  if 1000 ≤ tj.toNat ∧ (s.plate p).thermC.toNat < 2 then
    ((s.modPlate p fun x => { x with thermC := x.thermC + 1 }).flag 0x120 1).clkStart p
  else s

/-- THERMAL_RELEASE. -/
def hotRelease (s : State) (p : Fin 8) (tj : BitVec 16) : State :=
  let s := s.heat p tj
  if tj.toNat < 970 ∧ (s.plate p).thermC ≠ 0 then (s.modPlate p fun x => { x with thermC := x.thermC - 1 }).clkStart p else s

/-- TRIP_PLATE: the plate's core clock stops, and its commissions are aborted for re-run. -/
def tripPlateGo (s : State) (p : Fin 8) (tj : BitVec 16) : State :=
  let s := s.heat p tj
  if 1050 ≤ tj.toNat ∧ !(s.plate p).stopped then
    let s := ((s.modPlate p fun x => { x with stopped := true }).setRf 0x118 (32 + p.val) 1 1).flag 0x120 2
    ((List.finRange 4).foldl (fun (s : State) h => s.quietHatch ⟨p, h⟩) s).topo
  else s

/-- TRIP_MODULE: a sensor of plate `p` at 110.0 °C or above. -/
def tripModuleGo (s : State) : State :=
  let s := (s.fenceModule true).flag 0x120 3
  let s := plateIds.foldl (fun (s : State) p => s.modPlate p fun x => { x with stopped := true }) s
  (s.modMod fun m => { m with tripped := true }).topo

/-- PLATE_RESTART: the steward writes RESTART(p). -/
def plateRestartGo (s : State) (p : Fin 8) (tj : BitVec 16) : State := (s.heat p tj).tryRestart p

/-- LOWIN_ENTER (R640). -/
def lowinGo (s : State) : State := ((s.modMod fun m => { m with inputC := 2 }).flag 0x120 4).clkStartAll
/-- LOWIN_RELEASE. -/
def lowinEnd (s : State) : State := (s.modMod fun m => { m with inputC := 0 }).clkStartAll

/-- CLOCK_POLICY: one decision of the steward for a plate; STW moves by one mode, no slower than CLK_FLOOR (R599). -/
def clockPolicyGo (s : State) (p : Fin 8) (above : Bool) : State :=
  let m := modeCode (s.rf 0x118 (2 * p.val) 2)
  let m := if above then (if m < s.policy 0x14 then m + 1 else m) else m - 1
  (s.setRf 0x118 (2 * p.val) 2 m).clkStart p

/-! ### Watchdog (R577, R601) -/

/-- WDOG_KICK. -/
def kick (s : State) : State := s.modMod fun m => { m with half := false }
/-- WDOG_HALF_TIMEOUT. -/
def wdogHalf (s : State) : State := if s.mod.inReset then s else s.modMod fun m => { m with half := true }
/-- WATCHDOG_EXPIRE: the module is FENCED, and the control complex restarts in the watchdog server. -/
def wdogExpire (s : State) : State :=
  if s.mod.inReset then s
  else (((s.setRf 0x18 1 1 1).fenceModule true).modMod fun m => { m with server := 3 }).modBoot fun b => { b with firmware := false }

/-- The application cores that run once core `n` has left service: a reserve core that is usable takes over its work (R575). -/
def takeWork (run down : List Nat) (n : Nat) : List Nat :=
  if !run.contains n then run
  else match (List.range 16).find? fun k => !run.contains k && !down.contains k with
    | some k => run.map fun x => if x = n then k else x
    | none => run.filter (· != n)

/-- APP_CORE_ERROR: an application core leaves service, and a reserve core takes over its work; with fewer than eight usable the module is
FENCED (R575). -/
def appCoreGo (s : State) (n : Fin 16) : State :=
  if s.mod.appDown.contains n.val then s
  else
    let l := s.mod.appDown ++ [n.val]
    let s := s.modMod fun m => { m with appDown := l, appRun := takeWork m.appRun l n.val }
    if 16 - l.length < 8 ∧ s.pair.state ≠ .fenced then s.fenceModule true else s

/-! ### The steward's idle adaptation (R598) -/

/-- IDLE_ADAPT: below IDLE_LO_HIT the idle timer is halved, above IDLE_HI_HIT doubled and increased by 1. -/
def idleGo (s : State) (i : StackId) (hit : Fin 101) : State :=
  let a := stackAt i 0
  let n := s.rf a 0 10
  if s.policy 0x10 = 0 then s
  else if hit.val < s.policy 0x12 then s.setRf a 0 10 (n / 2)
  else if s.policy 0x13 < hit.val then s.setRf a 0 10 (min 1023 (2 * n + 1))
  else s

end Sys2Proof.Machine
end

