-- ==== Sys2Proof/Machine/Svapin.lean ====
section
/-! DEFINITION. Svapin images (§12.2–12.5): the boot ROM's verify pass, the commands of the stream, and the build sweep. -/
namespace Sys2Proof.Machine

/-! ### Images tried, and the end of an attempt (R481, R500, R501) -/

/-- The images that BOOTSEL allows, in order (Table 12.1). -/
def bootOrder (bootsel : BitVec 2) : List (Fin 2) :=
  match bootsel.toNat with
  | 0 => [0, 1]
  | 1 => [1, 0]
  | 2 => [0]
  | _ => []

/-- The next image to try. -/
def State.nextImage (s : State) : Option (Fin 2) :=
  (bootOrder s.pins.bootsel).find? fun n => !s.boot.tried.toNat.testBit n.val

/-- CFG_STAT.STATE (Table 12.14). -/
def State.cfgState (s : State) : Nat := s.rf (confAt 0) 8 4
def State.setCfgState (s : State) (n : Nat) : State := (s.setRf (confAt 0) 8 4 n).edge 5

/-- Step 1 of R499: frames, margin RAM, golden copies and signature tables are zero, regions EMPTY, and nothing is staged
(assumption 45). -/
def State.clearConfig (s : State) : State :=
  let s := plateIds.foldl (fun (s : State) p => s.modPlate p fun x =>
    { x with frames := [], sigs := [], sigMarks := [], store := sclear x.store 0 0x1800000,
             psMarks := sclear x.psMarks 0 0x300000 }) s
  let s := regionIds.foldl (fun (s : State) i =>
    (s.setReg (channelAt i 0x18) 0).modRegion i fun x => { x with state := .empty, ram := [], ramMarks := [], ffs := [] }) s
  s.modBoot fun b => { b with loading := false, plate := 0, offset := 0, bodyLen := 0, key := [], staged := [] }

/-- The CONFIG_ERR state (R501). -/
def State.configError (s : State) : State :=
  ((s.setCfgState 8).modPins fun x => { x with cfgErr := true }).modMod fun m => { m with server := 2 }

/-- An image fails (R500): its reason is recorded, the module is cleared, and the other image is next if one is allowed. -/
def State.bootFail (s : State) (n : Fin 2) (reason offset : Nat) : State :=
  let a := confAt (8 + 8 * n.val)
  let s := s.setRf a 0 32 (reason + offset / 16 % 2 ^ 24 * 256)
  let s := s.clearConfig.modBoot fun b => { b with tried := b.tried ||| BitVec.ofNat 2 (2 ^ n.val) }
  match s.nextImage with
  | some m => s.setCfgState (if m = 0 then 1 else 3)
  | none => s.configError

/-! ### The verify pass (R484, R485, R499) -/

def State.flash (s : State) (n : Fin 2) : SMap Byte := if n = 0 then s.nv.flash0 else s.nv.flash1

/-- Segments of a body. -/
def segments (bodyLen : Nat) : Nat := (bodyLen + 2 ^ 26 - 1) / 2 ^ 26

/-- The key of segment `i + 1` from that of segment `i` (R488). -/
def nextKey (nonce key : List Byte) (i : Nat) : List Byte := (hmac384 nonce (key ++ beBytes 4 (i + 1))).take 32

/-- The IV of segment `i` of an image with header `h` (R487). -/
def segmentIv (h : List Byte) (i : Nat) : List Byte := slice h 32 8 ++ beBytes 4 i

/-- Whether the tag of segment `i` of an image passes under its key (R487, R489); `b` reads the image's bytes. -/
def segmentOk (b : Nat → Nat → List Byte) (key : List Byte) (i : Nat) : Bool :=
  let h := b 0 256
  let body := leAt h 24 8
  gcmTag key (segmentIv h i) h (b (0x8000 + i * 2 ^ 26) (min (2 ^ 26) (body - i * 2 ^ 26))) == b (0x8000 + body + 16 * i) 16

/-- Whether the tags of `n` segments from segment `i` pass, the first under `key`. -/
def segmentsOk (b : Nat → Nat → List Byte) : Nat → List Byte → Nat → Bool
  | 0, _, _ => true
  | n + 1, key, i => segmentOk b key i && segmentsOk b n (nextKey (slice (b 0 256) 32 12) key i) (i + 1)

/-- What is wrong with an image header for a device of `size` bytes (R483, Table 12.3): 0, FORMAT or TARGET. -/
def headerReason (s : State) (size : Nat) (h : List Byte) : Nat :=
  let body := leAt h 24 8
  let zero (o n : Nat) : Bool := (slice h o n).all (· == 0)
  if leAt h 4 2 ≠ 1 ∨ !zero 6 2 ∨ !zero 12 4 ∨ !zero 20 4 ∨ !zero 44 4 ∨ !zero 88 168 ∨ body % 16 ≠ 0 ∨ body < 16 ∨ 0x0FFF0000 < body
      ∨ 2 ^ 28 < 0x8000 + body + 16 * segments body ∨ size < 0x8000 + body + 16 * segments body then 0x12
  else if leAt h 8 2 ≠ 0x384 ∨ leAt h 10 1 ≠ 8 ∨ bitsOf (s.reg 0) 16 8 < leAt h 11 1 then 0x13
  else 0

/-- Why an image in bytes `b` (a reader of its bytes), for a device of `size` bytes, fails the verify pass, or 0. -/
def imageReason (s : State) (size : Nat) (b : Nat → Nat → List Byte) : Nat :=
  let h := b 0 256
  let r := headerReason s size h
  if r ≠ 0 then r
  else
    let body := leAt h 24 8
    let d := sha384 (b 0 0x300 ++ b 0x8000 (body + 16 * segments body))
    let a := authentic (b 0x100 512) d (b 0x300 384) (b 0x480 16224)
    if a ≠ 0 then 0x13 + a else 0

/-- The image key of a header, or none where the unwrap's integrity check fails (R486). -/
def imageKey (h : List Byte) : Option (List Byte) := unwrapKey (beBytes 32 Config.kek.toNat) (slice h 48 40)

/-- BOOT_ROM_START: an image attempt, at whose start FL_RST_N is low for 10 µs (R653); `answers` says whether the flash device answers, `flashOk` whether its reads succeed. -/
def bootStart (s : State) (answers flashOk : Bool) : State :=
  if s.mod.inReset || s.boot.loading || !(s.cfgState == 0 || s.cfgState == 1 || s.cfgState == 3) then s
  else if s.pins.bootsel = 3 then (s.setCfgState 9).modMod fun m => { m with server := 2 }
  else match s.nextImage with
    | none => s
    | some n =>
      let s := (((s.clearConfig).setCfgState (if n = 0 then 1 else 3)).setRf 0x300 0 4 4).modPins fun x => { x with flResets := x.flResets + 1 }
      let b (o k : Nat) : List Byte := readMem (s.flash n) o k
      let h := b 0 256
      if !answers || leAt h 0 4 != 0x49505653 then s.bootFail n 0x10 0
      else if !flashOk then s.bootFail n 0x11 0
      else
        let s := s.setRf (confAt (8 + 8 * n.val)) 32 32 (leAt h 16 4)
        let r := imageReason s (Config.flashSize n) b
        if r ≠ 0 then s.bootFail n r 0
        else match imageKey h with
          | none => s.bootFail n 0x17 0
          | some key => (s.setCfgState (if n = 0 then 2 else 4)).modBoot fun x =>
            { x with loading := true, plate := 0, offset := 0, bodyLen := leAt h 24 8, key, image := n }

/-! ### The command stream (R487–R497) -/

/-- `n` bytes of the key stream of a body from byte `o` of segment `i`, whose key is `key`, on through at most `k` segments after it. -/
def bodyStream (h : List Byte) : Nat → List Byte → Nat → Nat → Nat → List Byte
  | 0, key, i, o, n => gcmStream key (segmentIv h i) o n
  | k + 1, key, i, o, n =>
    let m := min n (2 ^ 26 - o)
    gcmStream key (segmentIv h i) o m ++ bodyStream h k (nextKey (slice h 32 12) key i) (i + 1) 0 (n - m)

/-- `n` bytes of the plaintext of the body from where the stream stands, `o` bytes on (R487); the key that is held is that of the segment
where it stands. -/
def State.plain (s : State) (o n : Nat) : List Byte :=
  let b := s.boot
  let rd (a k : Nat) : List Byte := readMem (s.flash b.image) a k
  let x := b.offset % 2 ^ 26
  (xorBytes (rd (0x8000 + b.offset) (o + n)) (bodyStream (rd 0 256) ((x + o + n) / 2 ^ 26) b.key (b.offset / 2 ^ 26) x (o + n))).drop o

/-- The segments from `i` to `j` end: each tag passes and the key rolls, or the image fails with TAG (R488, R489). -/
def State.rollKey (s : State) (i j : Nat) : State :=
  (List.range (j - i)).foldl (fun (s : State) k =>
    let b := s.boot
    let rd (o n : Nat) : List Byte := readMem (s.flash b.image) o n
    if !b.loading then s
    else if segmentOk rd b.key (i + k) then s.modBoot fun x => { x with key := nextKey (slice (rd 0 256) 32 12) x.key (i + k) }
    else s.bootFail b.image 0x18 ((i + k) * 2 ^ 26)) s

/-- Whether a command word has an opcode of Table 12.6 and no reserved bit of its argument set (R490). -/
def wordOk (w : Nat) : Bool :=
  let a := w % 2 ^ 24
  match w / 2 ^ 24 with
  | 0x01 => decide (a < 8)
  | 0x02 => true
  | 0x03 => decide (a < 2 ^ 16)
  | 0x04 => decide (a < 2 ^ 16)
  | 0x05 => decide (a < 2 ^ 16)
  | 0x10 => decide (a < 8)
  | 0x20 => decide (a < 2)
  | 0x30 => a == 0
  | 0x3F => a == 0
  | _ => false

/-- The command word where the stream stands. -/
def State.cmdWord (s : State) : Nat := leAt (s.plain 0 4) 0 4

/-- The four bytes of a command word. -/
def cmdBytes (op arg : Nat) : List Byte := leBytes 4 (op * 2 ^ 24 + arg)

/-- Whether the body spells a string `o` bytes on from where the stream stands, as far as the body goes. -/
def State.spells (s : State) (o : Nat) (bs : List Byte) : Bool :=
  let bs := bs.take (s.boot.bodyLen - s.boot.offset - o)
  s.plain o bs.length == bs

/-- The segments that end at byte `e` of the body or before it, after where the stream stands. -/
def State.endSegments (s : State) (e : Nat) : State := s.rollKey (s.boot.offset / 2 ^ 26) (e / 2 ^ 26)

/-- The stream goes on at byte `e`: a segment that ends there is checked, and a stream at its end has no END (R489, R497). -/
def State.advance (s : State) (e : Nat) : State :=
  let b := s.boot
  let last := if e = b.bodyLen then segments e else e / 2 ^ 26
  let s := s.rollKey ((e - 1) / 2 ^ 26) last
  if !s.boot.loading then s
  else if e = b.bodyLen then s.bootFail b.image 0x1C b.offset
  else s.modBoot fun x => { x with offset := e }

/-- A command of `len` bytes, spelt by the body where the stream stands: `fits` says so, and where it spells another the command is not
the next one, and nothing happens (assumption 91).  A word of Table 12.6's none fails the image with COMMAND, and so does a command that
runs past BODY_LEN; then, once the segments that end before its last byte have passed (R489), with operands in range it takes effect. -/
def State.stream (s : State) (fits : Bool) (len : Nat) (ok : Bool) (f : State → State) : State :=
  let b := s.boot
  if !b.loading then s
  else if !wordOk s.cmdWord then s.bootFail b.image 0x19 b.offset
  else if !fits then s
  else if b.bodyLen < b.offset + len then s.bootFail b.image 0x19 b.offset
  else
    let s := s.endSegments (b.offset + len - 1)
    if !s.boot.loading then s
    else if !ok then s.bootFail b.image 0x19 b.offset
    else
      let s := f s
      if !s.boot.loading then s else s.advance (b.offset + len)

def streamPlate (s : State) (p : Fin 8) : State :=
  s.stream (s.spells 0 (cmdBytes 0x01 p.val)) 4 true fun s => s.modBoot fun b => { b with plate := p }

def streamFrame (s : State) (a : BitVec 24) (d : BitVec 1024) : State :=
  s.stream (s.spells 0 (cmdBytes 0x02 a.toNat ++ leBytes 128 d.toNat)) 132 (frameValid a.toNat) fun s => s.loadFrame s.boot.plate a.toNat d

/-- Frames at rising addresses. -/
def State.loadRun (s : State) (p : Fin 8) (a : Nat) (ds : List (BitVec 1024)) : State :=
  ds.zipIdx.foldl (fun (s : State) x => s.loadFrame p (a + x.2) x.1) s

/-- A run is `1` to 65,536 frames: its argument is one less (Table 12.6). -/
def runLength (n : Nat) : Bool := decide (1 ≤ n ∧ n ≤ 65536)

def streamFrames (s : State) (first : BitVec 32) (ds : List (BitVec 1024)) : State :=
  s.stream (runLength ds.length && s.spells 0 (cmdBytes 0x03 (ds.length - 1) ++ leBytes 4 first.toNat ++
      ds.flatMap fun d => leBytes 128 d.toNat)) (8 + 128 * ds.length) (runValid first.toNat ds.length) fun s =>
    s.loadRun s.boot.plate first.toNat ds

def streamRepeat (s : State) (d : BitVec 1024) (as : List (BitVec 32)) : State :=
  s.stream (runLength as.length && s.spells 0 (cmdBytes 0x04 (as.length - 1) ++ leBytes 128 d.toNat ++
      as.flatMap fun a => leBytes 4 a.toNat)) (132 + 4 * as.length) (as.all fun a => frameValid a.toNat) fun s =>
    as.foldl (fun (s : State) a => s.loadFrame s.boot.plate a.toNat d) s

def streamZero (s : State) (n : Nat) (first : BitVec 32) : State :=
  s.stream (runLength n && s.spells 0 (cmdBytes 0x05 (n - 1) ++ leBytes 4 first.toNat)) 8 (runValid first.toNat n) fun s =>
    s.loadRun s.boot.plate first.toNat (List.replicate n 0)

/-- REGION: the window and flags of a region (R493, R495). -/
def streamRegion (s : State) (r : Fin 8) (w : Word) : State :=
  let i : RegionId := ⟨s.boot.plate, r⟩
  let ok := w &&& ~~~0x3FFFF07FF07FF#64 == 0 && decide (bitsOf w 0 11 ≤ bitsOf w 16 11 ∧ bitsOf w 16 11 < 1250)
    && decide (bitsOf w 32 8 ≤ bitsOf w 40 8) && !bitOf (s.reg (channelAt i 0x18)) 49
  s.stream (s.spells 0 (cmdBytes 0x10 r.val ++ leBytes 8 w.toNat)) 12 ok fun s =>
    (s.setReg (channelAt i 0x18) w).setRf (regionAt i 8) 0 1 (bitsOf w 48 1)

/-- BLOB (R496); its four bytes of 0 are reserved bits (R490), and what its padding holds is not stated. -/
def streamBlob (s : State) (dram : Bool) (dest : Word) (data : List Byte) : State :=
  let n := data.length
  let d := dest.toNat
  let ok := (if dram then decide (d < 2 ^ 36 ∧ d % 2 ^ 34 + n ≤ 0x300000000)
      else decide (0xA800000 ≤ d ∧ d + n ≤ 0xB000000 ∨ 0xB000000 ≤ d ∧ d + n ≤ 0x10000000))
    && (s.plain 16 4).all (· == 0)
  s.stream (decide (n < 2 ^ 32) && s.spells 0 (cmdBytes 0x20 dram.toNat ++ leBytes 8 d ++ leBytes 4 n) && s.spells 20 data)
      (20 + (n + 15) / 16 * 16) ok fun s =>
    let p := s.boot.plate
    if !dram then psWrite s p d data
    else
      let used := ((s.boot.staged.filter fun x => x.1 == p).map fun x => x.2.2.1).sum
      if 80 * 2 ^ 20 < used + n then s.bootFail s.boot.image 0x1A s.boot.offset
      else (psWrite s p (0xB000000 + used) data).modBoot fun b => { b with staged := b.staged ++ [(p, used, n, dest)] }

/-- Whether a region holds a frame that is not zero: a logic frame, or a line of margin RAM (R499). -/
def State.holdsFrame (s : State) (i : RegionId) : Bool :=
  ((s.plate i.p).frames.any fun f => fRegion f.1 == i.r.val) || (s.region i).ram.any fun x => x.2 != 0

/-- The rest of the body behind END, segment by segment: each byte must be 0 (else NO_END), and each tag must pass (R489, R497). -/
def State.tailGo : Nat → State → State
  | 0, s => s
  | n + 1, s =>
    let b := s.boot
    let i := b.offset / 2 ^ 26
    let e := min b.bodyLen ((i + 1) * 2 ^ 26)
    if !b.loading then s
    else if !(s.plain 0 (e - b.offset)).all (· == 0) then s.bootFail b.image 0x1C b.offset
    else State.tailGo n ((s.rollKey i (i + 1)).modBoot fun x => { x with offset := if x.loading then e else x.offset })

/-- SVAPIN_END, when the body spells it and the bytes that it names behind it (assumption 91): nothing but zeros may follow, and the
segments that are left must pass; then the regions are CLOSED (R497, R499). -/
def streamEnd (s : State) (arg : BitVec 24) (rest : List Byte) : State :=
  let b := s.boot
  if !b.loading then s
  else if !wordOk s.cmdWord then s.bootFail b.image 0x19 b.offset
  else if !s.spells 0 (cmdBytes 0x3F arg.toNat ++ rest) then s
  else
    let s := s.endSegments (b.offset + 4)
    let s := s.modBoot fun x => { x with offset := if x.loading then b.offset + 4 else x.offset }
    let s := s.tailGo (segments b.bodyLen - (b.offset + 4) / 2 ^ 26)
    if !s.boot.loading then s
    else
      let s := s.setRf (confAt (8 + 8 * b.image.val)) 0 32 1
      let s := regionIds.foldl (fun (s : State) i =>
        if s.holdsFrame i then s.modRegion i fun x => { x with state := .closed } else s) s
      let s := (s.setCfgState 5).setRf (confAt 0) 2 1 b.image.val
      (s.setRf 0x300 0 4 5).modBoot fun x => { x with loading := false, offset := b.bodyLen, key := [] }

/-- BUILD_SWEEP: every logic frame is compared with its signature; VCCO has been measured, CONFIG_DONE is asserted, and the
test port goes to Test-Logic-Reset unless TESTKEEP is high (R499, R503, R643, R648). -/
def buildSweepGo (s : State) : State :=
  if s.cfgState ≠ 5 then s
  else
    let s := plateIds.foldl (fun (s : State) p => (List.range 160000).foldl (fun (s : State) n => s.checkFrame p n) s) s
    let banks : List BankId := plateIds.flatMap fun p => (List.finRange 2).map fun j => ⟨p, j⟩
    let s := banks.foldl (fun (s : State) i => s.setBank i { s.bank i with measured := if (s.bank i).ok then (s.bank i).level else 0 }) s
    let s := if s.pins.testkeep then s else { s with test := {} }
    ((s.modPins fun x => { x with cfgDone := true }).setCfgState 6).setRf 0x300 0 4 6

end Sys2Proof.Machine
end

