-- ==== Sys2Proof/Machine/ConfigRows.lean ====
section
/-! DEFINITION. The rows of configuration: the channels of the internal configuration port, the scrubbers, the boot ROM and its
command stream (REG is with the register writes). -/
namespace Sys2Proof.Machine

/-- ICP_START (R507). -/
def execIcpStart (i : RegionId) (s : State) : Host.Outcome State Fault Refusal :=
  done (edgeIf (channelAt i 0x10) s (icpBegin s i none))

/-- ICP_USER_START (R507). -/
def execIcpUserStart (i : RegionId) (addr : BitVec 39) (s : State) : Host.Outcome State Fault Refusal :=
  done (edgeIf (channelAt i 0x10) s (icpBegin s i (some addr)))

/-- MANIFEST_CHECK (R508). -/
def execManifestCheck (i : RegionId) (s : State) : Host.Outcome State Fault Refusal :=
  doneWhenServed s (edgeIf (channelAt i 0x10) s (manifestGo s i))

/-- PARTIAL_RECORD_FETCH (R510). -/
def execPartialRecordFetch (i : RegionId) (s : State) : Host.Outcome State Fault Refusal :=
  doneWhenServed s (edgeIf (channelAt i 0x10) s (recordFetch s i))

/-- PARTIAL_LOAD_COMPLETE (R511). -/
def execPartialLoadComplete (i : RegionId) (s : State) : Host.Outcome State Fault Refusal :=
  done (edgeIf (channelAt i 0x10) s (loadComplete s i))

/-- SCRUB_FRAME_CHECK (R517). -/
def execScrubFrameCheck (p : Fin 8) (minority : Option (Fin 3)) (s : State) : Host.Outcome State Fault Refusal :=
  done (scrubCheck s p minority)

/-- SWEEP_WATCH (R522). -/
def execSweepWatch (p : Fin 8) (s : State) : Host.Outcome State Fault Refusal :=
  done (sweepCheck s p)

/-- SCRUBBER_RESET (R522). -/
def execScrubberReset (p : Fin 8) (s : State) : Host.Outcome State Fault Refusal :=
  done (if s.mod.busy.contains (0x118 + p.val * 0x20) then s.discard else scrubReset s p)

/-- BOOT_ROM_START (R499). -/
def execBootRomStart (answers : Bool) (flashOk : Bool) (s : State) : Host.Outcome State Fault Refusal :=
  done (bootStart s answers flashOk)

/-- PLATE (R490). -/
def execPlateCmd (p : Fin 8) (s : State) : Host.Outcome State Fault Refusal :=
  done (streamPlate s p)

/-- FRAME (R492). -/
def execFrame (addr : BitVec 24) (data : BitVec 1024) (s : State) : Host.Outcome State Fault Refusal :=
  done (streamFrame s addr data)

/-- FRAMES (R491). -/
def execFrames (first : BitVec 32) (data : List (BitVec 1024)) (s : State) : Host.Outcome State Fault Refusal :=
  done (streamFrames s first data)

/-- REPEAT (R492). -/
def execRepeatCmd (data : BitVec 1024) (addrs : List (BitVec 32)) (s : State) : Host.Outcome State Fault Refusal :=
  done (streamRepeat s data addrs)

/-- ZERO (R491). -/
def execZero (n : Nat) (first : BitVec 32) (s : State) : Host.Outcome State Fault Refusal :=
  done (streamZero s n first)

/-- REGION (R495). -/
def execRegion (r : Fin 8) (win : Word) (s : State) : Host.Outcome State Fault Refusal :=
  done (streamRegion s r win)

/-- BLOB (R496). -/
def execBlob (dram : Bool) (dest : Word) (data : List Byte) (s : State) : Host.Outcome State Fault Refusal :=
  done (streamBlob s dram dest data)

/-- SVAPIN_END (R497). -/
def execSvapinEnd (arg : BitVec 24) (rest : List Byte) (s : State) : Host.Outcome State Fault Refusal :=
  done (streamEnd s arg rest)

/-- BUILD_SWEEP (R499). -/
def execBuildSweep (s : State) : Host.Outcome State Fault Refusal :=
  done (buildSweepGo s)

end Sys2Proof.Machine
end

