-- ==== Sys2Proof/Machine/Fetch.lean ====
section
/-! DEFINITION. The fetch engine (§7.1–§7.4): requests, credits, responses, ring tiles, held faults and the epoch. -/
namespace Sys2Proof.Machine

/-- The legs of a transfer: its descriptor and, with PAIR, the paired one (R309). -/
def Xfer.leg (x : Xfer) : XDesc := if x.leg2 then x.d2.getD x.d else x.d

/-- Whether a transfer must take a credit before its next tile (R310, R316). -/
def Xfer.wantsCredit (x : Xfer) : Bool :=
  x.d.cen && !x.credit && decide ((if x.kind = .ring then 1 else x.d.depth.toNat) ≤ x.tile) && decide (x.tile < x.d.tiles.toNat)

/-- Whether a transfer can issue a request: tiles are left and no credit is missing. -/
def Xfer.ready (x : Xfer) : Bool := decide (x.tile < x.d.tiles.toNat) && !x.wantsCredit

/-- Replace a transfer of the queue. -/
def CoreSt.setX (c : CoreSt) (x : Xfer) : CoreSt := { c with tq := c.tq.map fun y => if y.id == x.id then x else y }

/-- The first request slot that is free (R312). -/
def freeTag (c : CoreSt) : Option Nat := firstIdx 1024 fun t => !(c.outst.any fun r => r.tag.toNat == t)

/-- The device line of a transfer's next request: its line number and the range of it in extent (R306, R307). -/
def Xfer.line (x : Xfer) : Nat × Nat × Nat :=
  let d := x.leg
  let a := (d.dev x.tile x.row).toNat
  let n := d.bytesOf x.tile
  let l := a / 128 + x.seg
  let lo := max a (128 * l)
  (l, lo, min (a + n) (128 * l + 128) - lo)

/-- The place in core store of byte `lo` of the row. -/
def Xfer.place (x : Xfer) (lo : Nat) : Nat :=
  let d := x.leg
  d.slot x.tile x.row + (lo - (d.dev x.tile x.row).toNat)

/-- The transfer after its request has been issued: the next line, row, leg or tile. -/
def Xfer.next (x : Xfer) : Xfer :=
  let d := x.leg
  let a := (d.dev x.tile x.row).toNat
  if x.seg + 1 ≤ (a + d.bytesOf x.tile - 1) / 128 - a / 128 then { x with seg := x.seg + 1 }
  else if x.row + 1 < d.rowsOf x.tile then { x with seg := 0, row := x.row + 1 }
  else if x.d2.isSome && !x.leg2 then { x with seg := 0, row := 0, leg2 := true }
  else { x with seg := 0, row := 0, leg2 := false, tile := x.tile + 1, credit := false }

/-- The zeros that an FGET writes beyond the extent of its last tile (R308). -/
def CoreSt.fillTile (c : CoreSt) (d : XDesc) (t : Nat) : CoreSt :=
  if d.rowsOf t = d.rows.toNat ∧ d.bytesOf t = d.rbytes.toNat then c
  else (List.range d.rows.toNat).foldl (fun c r =>
    let from_ := if r < d.rowsOf t then d.bytesOf t else 0
    c.wr (d.slot t r + from_) (List.replicate (d.rbytes.toNat - from_) 0)) c

/-! ### Signals (R309, R311, R313) -/

/-- Whether the next tile of a transfer to be signalled has all been moved: no request of it is out (R309, R313), or it has arrived
over the ring (R316). -/
def CoreSt.tileDone (c : CoreSt) (x : Xfer) : Bool :=
  decide (x.sig < x.d.tiles.toNat) &&
    if x.kind = .ring then decide ((if x.d2.isSome then 2 else 1) * (x.sig + 1) ≤ x.arrived)
    else x.sig < x.tile && !(c.outst.any fun r => r.xid == x.id && r.tile == x.sig)

/-- Signal the finished tiles of a transfer in order, and take a transfer that has moved and signalled every tile off the queue. -/
def State.signalTiles (s : State) (i : CoreId) (id : Nat) : Nat → State
  | 0 => s
  | fuel + 1 =>
    let c := s.core i
    match c.tq.find? fun x => x.id == id with
    | none => s
    | some x =>
      if x.sig = x.d.tiles.toNat ∧ x.tile = x.d.tiles.toNat then s.setCore i { c with tq := c.tq.filter fun y => y.id != id }
      else if !c.tileDone x then s
      else
        let s := s.setCore i (c.setX { x with sig := x.sig + 1 })
        let s := if x.d.even then s.signal i x.d.ev x.bundle.toNat 3 else s
        s.signalTiles i id fuel

/-- Signal what has finished of a transfer. -/
def State.signalX (s : State) (i : CoreId) (id : Nat) : State :=
  match (s.core i).tq.find? fun x => x.id == id with
  | some x => s.signalTiles i id (x.d.tiles.toNat - x.sig + 1)
  | none => s

/-! ### Faults (R322–R326) -/

/-- Whether a cause sets CORE_FETCHERR.DATA rather than XLATE. -/
def isData (cause : Nat) : Bool := cause == cDataUe || cause == cPoison || cause == cStackdown

/-- A fault on a request: held for an FGET (R322), with the oldest reported when the table is full (R325); reported at once
otherwise, with an abort (R326). -/
def State.fetchFault (s : State) (i : CoreId) (f : MFault) (kind : XKind) (bundle cs n : Nat) : State :=
  let src := match kind with
    | .get => 0 | .put => 1 | .ring => 2
  let rcd := memRec s f src i.c.val i.p.val (coreUnit i) (kind == .put) false (s.tagOf i) bundle
  if kind = .get then
    let s := s.sweepHeld i
    let c := s.core i
    let left := (List.range ((cs + n - 1) / 128 - cs / 128 + 1)).flatMap fun k =>
      (List.range 128).map fun j => (cs / 128 + k) * 128 + j
    let h : Held := { epoch := c.epoch, left, rcd, data := isData f.cause }
    match c.held with
    | o :: r =>
      if 16 ≤ c.held.length then
        ((s.setCore i { c with held := r ++ [h] }).reportHeld i o bundle).abortCore i
          (some (bitsOf (nth 0 o.rcd.body 1) 14 25))
      else s.setCore i { c with held := c.held ++ [h] }
    | [] => s.setCore i { c with held := [h] }
  else ((s.flag (coreAt i 0xB08) (if isData f.cause then 1 else 0)).report rcd).abortCore i
    (f.daddr.map fun a => a / 16384)

/-! ### Issue -/

/-- Whether a granule is in the caches that a core's lookups use (R356). -/
def cached (s : State) (i : CoreId) (g : Nat) : Bool :=
  sget 0 (s.core i).l1 g != 0 || sget 0 (s.plate i.p).l2 g != 0

/-- The walk for a granule that a core asks for. -/
def coreWalk (i : CoreId) (g : Nat) : Walk := { granule := BitVec.ofNat 25 g, core := some i.c }

/-- Whether a transfer waits for a walk under way: its next request's granule is in no cache (§8.3). -/
def State.walking (s : State) (i : CoreId) (x : Xfer) : Bool :=
  x.kind != .ring && !cached s i (x.line.2.1 / 16384) && (s.plate i.p).walks.contains (coreWalk i (x.line.2.1 / 16384))

/-- The oldest transfer that can proceed (R312): one that waits for a walk holds no younger one back, and with an epoch advance
pending the transfers queued after it wait (R321). -/
def State.pickX (s : State) (i : CoreId) : Option Xfer :=
  let c := s.core i
  c.tq.find? fun x => x.ready && (c.advance == 0 || decide (x.id < nth c.nextX c.newX 0)) && !s.walking i x

/-- The zeros beyond the extent of a tile are written as its first request is made (R308). -/
def State.openTile (s : State) (i : CoreId) (x : Xfer) : State :=
  if x.kind = .get ∧ x.row = 0 ∧ x.seg = 0 then (s.modCore i fun c => c.fillTile x.leg x.tile).sweepHeld i else s

/-- A request whose translation has faulted counts as answered (R322, R326). -/
def State.faultIssue (s : State) (i : CoreId) (x : Xfer) (cause : Nat) (suspect : BitVec 16) : State :=
  let (_, lo, n) := x.line
  let s := s.modCore i fun c => c.setX x.next
  let f : MFault := { cause, daddr := some lo, suspect }
  (s.fetchFault i f x.kind x.bundle.toNat (x.place lo) n).signalX i x.id

/-- Issue the next request of an FGET or FPUT whose granule is cached. -/
def State.issueLine (s : State) (i : CoreId) (x : Xfer) (tag : Nat) : State :=
  let (l, lo, n) := x.line
  let put := x.kind == .put
  let (t, s) := translate s i.p (some i.c) (s.hatchOwner i.hatch) put lo
  match t with
  | .error e => s.faultIssue i x e.1 e.2
  | .ok (w, fr) =>
    let st := frameStack fr
    let a := frameAddr fr (128 * l % 16384)
    let cs := x.place lo
    let c := s.core i
    let data := c.rd cs n
    let r : Req :=
      { tag := BitVec.ofNat 10 tag, xid := x.id, bundle := x.bundle, epoch := c.epoch, write := put, tile := x.tile,
        daddr := BitVec.ofNat 39 lo, place := st.key * 2 ^ 34 + a, cs, off := lo - 128 * l, n }
    let c := { c.setX x.next with outst := c.outst ++ [r] }
    let c := if put then c.log cs n else c
    let en : BitVec 128 := predOf fun j => decide (lo - 128 * l ≤ j ∧ j < lo - 128 * l + n)
    let port := (locOf (s.order st) a).ch / 2
    let load : Payload :=
      if put then
        let mir := if meDur w then
            let proof := mePend w && fr == meFB w
            some (BitVec.ofNat 25 (128 * l / 16384), proof, (if proof then BitVec.ofNat 8 (meSlot w) else 0),
              BitVec.ofNat 14 (128 * l % 16384))
          else none
        .wreq (BitVec.ofNat 34 a) (BitVec.ofNat 10 tag) 0 en mir
      else .rreq (BitVec.ofNat 34 a) (BitVec.ofNat 10 tag) 0 en
    let (s, ab) := (s.setCore i c).checkReads i x.bundle.toNat
    let s := s.inject (coreEp i) (stackEp st port) load (if put then some (List.replicate (lo - 128 * l) 0 ++ data) else none)
    match ab with
    | some g => s.abortCore i g
    | none => s

/-- An FRING sends a tile to the next core of the ring (R316). -/
def State.issueRing (s : State) (i : CoreId) (x : Xfer) : State :=
  let send (d : XDesc) : RingTile × Nat × Nat :=
    let src := d.slot x.tile 0
    ({ dst := d.slot (x.tile + 1) 0, bytes := (s.core i).rd src d.tsize.toNat, tile := x.tile }, src, d.tsize.toNat)
  let ts := [send x.d] ++ match x.d2 with
    | some d => [send d]
    | none => []
  let nx := s.ringNext i
  let c := (s.core i).setX { x with tile := x.tile + 1, credit := false }
  let c := ts.foldl (fun c t => c.log t.2.1 t.2.2) c
  let (s, ab) := (s.setCore i c).checkReads i x.bundle.toNat
  let s := s.modCore nx fun c => { c with ringIn := c.ringIn ++ ts.map (·.1) }
  match ab with
  | some g => s.abortCore i g
  | none => s.signalX i x.id

/-- FETCH_REQUEST_ISSUE: one request of the oldest transfer that can proceed (R312); a granule that no cache holds starts a
walk, and the request waits for it (§8.3). -/
def fetchIssue (s : State) (i : CoreId) : State :=
  if !s.clocked i || (s.hatch i.hatch).pre then s
  else match s.pickX i with
  | none => s
  | some x =>
    if x.kind = .ring then s.issueRing i x
    else
      let g := x.line.2.1 / 16384
      if !cached s i g then s.modPlate i.p fun p => { p with walks := p.walks ++ [coreWalk i g] }
      else match freeTag (s.core i) with
      | none => s
      | some tag => (s.openTile i x).issueLine i x tag

/-- WALK_COMPLETE: the oldest walk of a plate returns an entry to the caches, or its fault to the request that waits for it
(R353–R356). -/
def walkDone (s : State) (p : Fin 8) : State :=
  match (s.plate p).walks with
  | [] => s
  | w :: rest =>
    let g := w.granule.toNat
    let s := s.modPlate p fun x => { x with walks := rest }
    let (e, s) := walkEntry s p g
    match e with
    | .ok e =>
      let s := s.modPlate p fun x => { x with l2 := sput x.l2 g e }
      match w.core with
      | some c => s.modCore ⟨p, c⟩ fun x => { x with l1 := sput x.l1 g e }
      | none => s
    | .error (cause, sus) => match w.core with
      | some c =>
        let i : CoreId := ⟨p, c⟩
        match (s.core i).tq.find? fun x => x.kind != .ring && x.ready && x.line.2.1 / 16384 == g with
        | some x => (s.openTile i x).faultIssue i x cause sus
        | none => s
      | none => s

/-- TRANSFER_CREDIT_TAKE: a transfer takes its credit (R310); an FRING takes one in every active core at once (R316). -/
def creditTake (s : State) (i : CoreId) : State :=
  let c := s.core i
  let can (c : CoreSt) (x : Xfer) : Bool := x.wantsCredit && decide (0 < c.ev x.d.cev)
  let take (s : State) (i : CoreId) (x : Xfer) : State :=
    let c := s.core i
    s.setCore i ((c.setEv x.d.cev (c.ev x.d.cev - 1)).setX { x with credit := true })
  let ringOf (j : CoreId) (x : Xfer) : Option Xfer :=
    (s.core j).tq.find? fun y => y.kind == .ring && y.bundle == x.bundle && y.tile == x.tile
  let ringOk (x : Xfer) : Bool := (s.activeCores i.hatch).all fun j => match ringOf j x with
    | some y => can (s.core j) y
    | none => false
  match c.tq.find? fun x => can c x && (x.kind != .ring || ringOk x) with
  | none => s
  | some x =>
    if x.kind = .ring then (s.activeCores i.hatch).foldl (fun s j => match ringOf j x with
      | some y => take s j y
      | none => s) s
    else take s i x

/-! ### Responses (R320, R322, R412) -/

/-- A request completes with a status and data.  Its response is discarded when its transfer has ended and its epoch is no longer the
current one (R320). -/
def State.complete (s : State) (i : CoreId) (r : Req) (status : Nat) (data : List Byte) (bad : Option (BitVec 34)) : State :=
  let c := s.core i
  let s := s.setCore i { c with outst := c.outst.erase r }
  if !(c.tq.any fun x => x.id == r.xid) && r.epoch != c.epoch then s.satRf (coreAt i 0xB20) 32 32 1
  else
    let st : StackId := ⟨fin 8 (r.place / 2 ^ 36), fin 4 (r.place / 2 ^ 34)⟩
    let s := if status = 0 then
        (if r.write then s else (s.modCore i fun c => c.wr r.cs (slice data r.off r.n)).sweepHeld i)
      else
        let cause := if status = 1 then cDataUe else if status = 2 then cPoison else cStackdown
        s.fetchFault i { cause, daddr := some r.daddr.toNat, 
                         phys := some (st, errUnit r.place bad, errSym (BitVec.ofNat 2 status)), suspect := stackUnit st } (if r.write then .put else .get) r.bundle.toNat r.cs r.n
    s.signalX i r.xid

/-- FETCH_RESPONSE: the oldest response for a core is taken; one of a discarded epoch is dropped (R320). -/
def fetchResponse (s : State) (i : CoreId) : State :=
  let a := coreEp i
  match (s.inboxOf a).find? fun pk => pk.kind == 4 || pk.kind == 5 with
  | none => s
  | some pk =>
    let s := s.setInbox a ((s.inboxOf a).eraseP fun pk => pk.kind == 4 || pk.kind == 5)
    let go (tag : BitVec 10) (st : BitVec 2) (d : List Byte) (bad : Option (BitVec 34)) : State :=
      match (s.core i).outst.find? fun r => r.tag == tag with
      | some r => s.complete i r st.toNat d bad
      | none => s
    match pk.load with
    | .rdata t st d u => go t st d u
    | .wack t st => go t st [] none
    | _ => s

/-- RESPONSE_TIMEOUT: the request of an endpoint with a tag completes with UNREACH (R412).  Cores and regions have requests that wait;
those of other requesters complete in the step that makes them (assumption 13). -/
def responseTimeout (s : State) (a tag : BitVec 10) : State :=
  match epOf a.toNat with
  | .core i => match (s.core i).outst.find? fun r => r.tag == tag with
    | some r => s.complete i r 3 [] none
    | none => s
  | .region i =>
    if (s.region i).reads.any fun y => y.1 == tag.toNat then s.regionAnswer i (.rdata tag 3 (List.replicate 128 0))
    else s.regionAnswer i (.wack tag 3)
  | _ => s

/-- FRING_TILE_ARRIVE: a ring tile is written and its event signalled in order (R316). -/
def ringArrive (s : State) (i : CoreId) : State :=
  let c := s.core i
  match c.ringIn with
  | [] => s
  | t :: rest =>
    let c := { c with ringIn := rest }.wr t.dst t.bytes
    match c.tq.find? fun x => x.kind == .ring && decide (x.arrived < (if x.d2.isSome then 2 else 1) * x.d.tiles.toNat) with
    | none => (s.setCore i c).sweepHeld i
    | some x => ((s.setCore i (c.setX { x with arrived := x.arrived + 1 })).sweepHeld i).signalX i x.id

/-- EPOCH_ADVANCE: a pending advance completes once no request in flight carries the next value (R321); the held faults of the epoch
that ends are discarded and counted (R324). -/
def epochGo (s : State) (i : CoreId) : State :=
  let c := s.core i
  if 0 < c.advance ∧ !(c.outst.any fun r => r.epoch == c.epoch + 1) then
    let s := s.setCore i { c.nextEpoch with advance := c.advance - 1, newX := c.newX.drop 1 }
    if c.epochHeld = 0 then s else s.satRf (coreAt i 0xB20) 0 32 c.epochHeld
  else s

end Sys2Proof.Machine
end

