-- ==== Sys2Proof/Machine/Start.lean ====
section
/-! DEFINITION. Module reset and the power sequence (§15.4, §15.6, §16.3), start-up (§15.5), the repair record (R629), and
per-function resets of hatches (R631–R633). -/
namespace Sys2Proof.Machine

/-! ### Module reset (R620–R622, R626–R628) -/

/-- A module reset with the bit of its cause in GLB_RSTCAUSE: everything returns to its reset value but what R628 names; the levels
at the pins and supplies, and what the management server has sent, are outside the module. -/
def State.moduleReset (s : State) (cause : Nat) : State :=
  let t : State :=
    { pending := s.pending, freeCtr := s.freeCtr, nv := s.nv,
      banks := s.banks.map (fun (x : Nat × IoBankSt) => (x.1, { x.2 with measured := 0 })),
      pins := { s.pins with cfgDone := false, cfgErr := false, faultN := true, flRstN := false, flResets := s.pins.flResets + 1 },
      mgmt := { sent := s.mgmt.sent } }
  t.setReg 0x308 (BitVec.ofNat 64 (2 ^ cause))

/-- PWR_OK low: a module reset with the cause PWRFAIL (R621, R641, R659). -/
def State.powerFail (s : State) : State := (s.modPins fun x => { x with v48 := false, pwrOk := false }).moduleReset 3

/-- RESET_N_LOW. -/
def resetPin (s : State) : State := (s.modPins fun x => { x with resetN := false }).moduleReset 1
/-- V48_RISE: PWR_OK is driven high when every internal rail is in regulation (R617); power-up sets GLB_RESERVE.NEXT to 16 (R578). -/
def v48Go (s : State) (railsOk : Bool) : State :=
  let s : State := if s.pins.v48 then s else { s with nv := { s.nv with next := 0x10 } }
  s.modPins fun x => { x with v48 := true, pwrOk := x.pwrOk || railsOk, cold := x.cold && !railsOk }
/-- INPUT_FAIL (R621). -/
def inputLost (s : State) : State := if s.pins.v48 then s.powerFail else s
/-- VAUX33_FAIL (R641). -/
def vaux33Lost (s : State) : State := if s.pins.v48 then s.powerFail else s
/-- COLD_HOLD (R659). -/
def coldGo (s : State) : State := s.powerFail.modPins fun x => { x with cold := true }
/-- SREF_LOSS (R622). -/
def srefLost (s : State) : State := (s.modPins fun x => { x with sref := false }).moduleReset 4

/-- The links of every mesh port that has them come up (R409). -/
def State.linksUp (s : State) : State :=
  routerIds.foldl (fun (s : State) i => s.modRouter i fun r =>
    { r with up := (List.range 4).foldl (fun m k => if (meshNext i k).isSome then sset 0 m k 0xFF else m) r.up }) s

/-- LEAVE_RESET: the straps are sampled, and start-up goes on with the boot ROM (R619, Table 15.5). -/
def leaveResetGo (s : State) (bootsel : BitVec 2) (testkeep : Bool) : State :=
  if s.mod.inReset && s.pins.pwrOk then
    let s := s.modPins fun x => { x with resetN := true, sref := true, bootsel, testkeep, flRstN := true }
    ((s.modMod fun m => { m with inReset := false }).linksUp).setRf 0x300 0 4 3
  else s

/-! ### References and bank supplies (R622, R644, R649) -/

/-- LREF_LOSS: the ports of a lane reference go to Idle. -/
def lrefLost (s : State) (g : Fin 5) : State :=
  let s := s.modPins fun x => { x with lref := x.lref &&& ~~~(BitVec.ofNat 5 (2 ^ g.val)) }
  [2 * g.val, 2 * g.val + 1].foldl (fun (s : State) k => ((s.toIdleOrDetect (fin 10 k)).clearLink (fin 10 k)).rxPanic (fin 10 k)) s
/-- LREF_RETURN. -/
def lrefBack (s : State) (g : Fin 5) : State := s.modPins fun x => { x with lref := x.lref ||| BitVec.ofNat 5 (2 ^ g.val) }
/-- MREF_LOSS: both management links are down. -/
def mrefLost (s : State) : State := (s.modPins fun x => { x with mref := false }).modMgmt fun m => { m with link := 0 }

/-- Whether a level in units of 10 mV lies within 5% of a VCCO setting (Table 11.16). -/
def vccoOk (level : Nat) : Bool := [100, 120, 150, 180].any fun v => decide (95 * v ≤ 100 * level ∧ 100 * level ≤ 105 * v)
/-- VCCO_LOSS. -/
def vccoLost (s : State) (i : BankId) : State := s.setBank i { s.bank i with ok := false }
/-- VCCO_RETURN. -/
def vccoBack (s : State) (i : BankId) (level : Byte) : State := s.setBank i { s.bank i with ok := vccoOk level.toNat, level }

/-! ### Repairs (§3.8.2, R26–R29, R629) -/

/-- Eight entries of the skew table with physical row `f` bypassed (R156). -/
def skewWord (f n : Nat) : Word :=
  BitVec.ofNat 64 (leNat ((List.range 8).map fun e => BitVec.ofNat 8 (if 8 * n + e < f then 8 * n + e else 8 * n + e + 1)))

/-- Bypass physical row `f` of a core: the row map and the skew table; the writes are discarded outside stand-alone mode (R160). -/
def State.bypassRow (s : State) (i : CoreId) (f : Nat) : State :=
  if !s.standAlone i then (List.range 17).foldl (fun (s : State) _ => s.discard) s
  else (List.range 16).foldl (fun (s : State) n => s.setReg (coreAt i (0x810 + 8 * n)) (skewWord f n)) (s.setRf (coreAt i 0x800) 0 8 f)

/-- The core at position `j` takes role `r` in a word of HATCH_CORES.  One that was active gives its logical index to a spare that may
take it (R27), or the survivors take contiguous indices in ascending order of position (R28); the answer is the index that a spare has
taken. -/
def rolesWith (w : Word) (j r : Nat) (sub : Bool) : Option Nat × Word :=
  let put (w : Word) (k role idx : Nat) : Word := withBits (withBits w (5 * k + 3) 2 role) (5 * k) 3 idx
  let role (k : Nat) : Nat := bitsOf w (5 * k + 3) 2
  let v := withBits w (5 * j + 3) 2 r
  if role j ≠ 0 then (none, v)
  else match (if sub then (List.range 9).find? fun k => role k == 1 else none) with
    | some k => (some (bitsOf w (5 * j) 3), put v k 0 (bitsOf w (5 * j) 3))
    | none => (none, (((List.range 9).filter fun k => k != j && role k == 0).zipIdx).foldl (fun v x => put v x.1 0 x.2) v)

/-- A core leaves service: the steward writes HATCH_CORES, from the roles `w` that its hatch had (R29, R299). -/
def State.removeCore (s : State) (i : CoreId) (w : Word) : Option Nat × State :=
  let x := rolesWith w i.pos 3 true
  (x.1, coresWrite s i.hatch x.2)

/-- The repair procedure of §3.8.2 for physical row `f` of a core: the core goes to the stand-alone role, its row map and skew table are
written, and the known-pattern test runs, with further faults of the array when `sound` is false.  When it passes, the core is
re-admitted at its former index and the answer is true; else it stays fenced.  Where the write of HATCH_CORES is discarded (R300) the
repair is not made (assumption 133). -/
def State.repairRow (s : State) (i : CoreId) (f : Nat) (sound : Bool) : Bool × State :=
  let w := s.reg (hatchAt i.hatch 0x50)
  let s := coresWrite s i.hatch (rolesWith w i.pos 2 false).2
  let put := s.standAlone i
  let s := mxDone (mxStart (s.bypassRow i f) i) i [BitVec.ofNat 8 f] (!sound)
  if put && s.rf (coreAt i 0x8B8) 2 1 = 1 then (true, coresWrite s i.hatch w) else (false, s)

/-- Whether an entry of the repair record is accepted (Tables 15.16, 15.18). -/
def repairOk (v : Word) : Bool :=
  let t := bitsOf v 56 8
  decide (bitsOf v 47 6 < 36) && bitsOf v 0 40 == 0 && (t == 1 || (t == 2 && bitsOf v 40 7 == 0))

/-- The core of an entry. -/
def repairCore (v : Word) : CoreId := ⟨fin 8 (bitsOf v 53 3), fin 36 (bitsOf v 47 6)⟩

/-- An entry of the repair record for a core; no row means that the core has failed. -/
def repairEntry (i : CoreId) (row : Option Nat) : Word :=
  BitVec.ofNat 64 ((match row with | some _ => 1 | none => 2) * 2 ^ 56 + i.p.val * 2 ^ 53 + i.c.val * 2 ^ 47 + row.getD 0 * 2 ^ 40)

/-- CFG_REPAIRW: one entry is appended, or the write is discarded and counted (R629). -/
def repairWrite (s : State) (v : Word) : State :=
  if s.mod.repairW.isSome || decide (1024 ≤ s.nv.repair.length) || !repairOk v then s.discard
  else s.modMod fun m => { m with repairW := some v }

/-- REPAIR_RECORD_WRITTEN. -/
def repairDone (s : State) : State :=
  match s.mod.repairW with
  | none => s
  | some v => { (s.modMod fun m => { m with repairW := none }) with nv := { s.nv with repair := s.nv.repair ++ [v] } }

/-- A core leaves service, from the roles `w` that its hatch had: it is declared failed, with its hatch when no core of it is left, and a
spare's substitution is an event (R27, R29, R568). -/
def State.coreOut (s : State) (i : CoreId) (w : Word) : State :=
  let (idx, s) := s.removeCore i w
  let s := s.unitDown (coreUnit i)
  let s := match idx with
    | some n => s.event 0x03 (coreUnit i) n
    | none => s
  if (s.activeCores i.hatch).isEmpty then s.unitDown (hatchUnit i.hatch) else s

/-- The stored repairs are applied in order before any core is admitted (R163, R629); a core of `bad` fails the test of its repair, and
its spare takes over. -/
def State.applyRepairs (s : State) (bad : List CoreId) : State :=
  s.nv.repair.foldl (fun (s : State) v =>
    let i := repairCore v
    let w := s.reg (hatchAt i.hatch 0x50)
    if s.role i = 3 then s
    else if bitsOf v 56 8 = 1 then
      let (ok, s) := s.repairRow i (bitsOf v 40 7) (!bad.contains i)
      if ok then s else s.coreOut i w
    else s.coreOut i w) s

/-! ### Start-up (R623–R625) -/

/-- The management server of normal operation starts; only a module reset ends the watchdog server (R577). -/
def State.serveNormally (s : State) : State := s.modMod fun m => { m with server := if m.server = 3 then 3 else 1 }

/-- Start-up fails in stage 6 (R625); FAULT_N follows GLB_START.FAIL. -/
def State.startFail (s : State) : State := ((s.setRf 0x300 4 1 1).setRf 0x300 12 4 (s.rf 0x300 0 4)).serveNormally

/-- STAGE6_TIMEOUT. -/
def stage6Late (s : State) : State := if s.rf 0x300 0 4 = 6 ∧ s.rf 0x300 4 1 = 0 then s.startFail else s

/-- GLB_RESERVE.NEXT as it acts (Table 14.19). -/
def State.reserveGiB (s : State) : Nat := min 64 (max 4 s.nv.next.toNat)

/-- The map segment copies of a plate are placed on trained stacks (R623). -/
def State.placeMap (s : State) (p : Fin 8) : State :=
  let a := plateAt p 0x2000
  match (List.finRange 4).filter fun q => (s.stack ⟨p, q⟩).state == 1 with
  | [] => s
  | [x] => (s.setRf a 20 2 x.val).setRf a 52 2 x.val
  | x :: y :: _ => (s.setRf a 20 2 x.val).setRf a 52 2 y.val

/-- Staged blobs go to their destinations, and the general region is cleared (R496). -/
def State.copyStaged (s : State) : State :=
  let ps := (s.boot.staged.map (·.1)).eraseDups
  let s := s.boot.staged.foldl (fun (s : State) x =>
    let (bs, ue, s) := psRead s x.1 (0xB000000 + x.2.1) x.2.2.1
    let s := if ue then s.pstoreUe x.1 0 else s
    let d := x.2.2.2.toNat
    (pieces 128 (d % 2 ^ 34) bs.length).foldl (fun (s : State) q =>
      (netWrite s s.complexEnd ⟨x.1, fin 4 (d / 2 ^ 34)⟩ ((List.range q.2).map fun j =>
        (q.1 + j, nth 0 bs (q.1 + j - d % 2 ^ 34)))).2.2) s) s
  let s := ps.foldl (fun (s : State) p => s.modPlate p fun x =>
    { x with store := sclear x.store 0xB000000 0x5000000, psMarks := sclear x.psMarks 0x1600000 0xA00000 }) s
  s.modBoot fun b => { b with staged := [] }

/-- Whether ranges of frames, as first frame and count, can hold the reserve of `gib` GiB: they lie apart, on frames of stacks in
service, and add up to it (R40, R623). -/
def State.reserveOk (s : State) (gib : Nat) (l : List (Nat × Nat)) : Bool :=
  (l.map (·.2)).sum == gib * 65536
    && (l.all fun r => r.2 != 0 && frameOk r.1 && frameOk (r.1 + r.2 - 1) && r.1 / 2 ^ 20 == (r.1 + r.2 - 1) / 2 ^ 20
      && (s.stack (frameStack r.1)).state == 1)
    && (l.zipIdx.all fun x => l.zipIdx.all fun y =>
      x.2 == y.2 || decide (x.1.1 + x.1.2 ≤ y.1.1 ∨ y.1.1 + y.1.2 ≤ x.1.1))

/-- DRAM_STAGE: what stage 6 does (Table 15.5): the stacks that train hold zeros, the others have failed; the reserve is placed on the
ranges of frames that firmware chose; staged blobs are copied, firmware starts, and repairs are applied, of which the cores `bad` fail
the test.  The watchdog server does none of it (R577). -/
def dramStageGo (s : State) (trained : BitVec 32) (controllersOk : Byte) (reserve : List (BitVec 25 × BitVec 25)) (bad : List CoreId) :
    State :=
  if s.rf 0x300 0 4 ≠ 6 ∨ s.rf 0x300 4 1 = 1 ∨ s.mod.server = 3 then s
  else
    let s := stackIds.foldl (fun (s : State) i => s.modStack i fun x =>
      if trained.toNat.testBit i.key then { x with state := 1, mem := [], marks := [] } else { x with state := 3, fails := 3 }) s
    let s := plateIds.foldl (fun (s : State) p =>
      (if controllersOk.toNat.testBit p.val then s
        else ((s.modPlate p fun x => { x with ctlDown := 3 }).unitDown (unitId 7 p.val 0)).unitDown (unitId 7 p.val 1)).placeMap p) s
    let placed := reserve.map fun r => (r.1.toNat, r.2.toNat)
    if !(plateIds.any s.plateUp) || !s.reserveOk s.reserveGiB placed then s.startFail
    else
      let s := s.setRf 0x20 8 8 s.reserveGiB
      let s := (s.modMod fun m => { m with mapUsed := placed }).serveNormally.copyStaged
      let s := ((s.modBoot fun b => { b with firmware := true }).applyRepairs bad).setCfgState 7
      (stackIds.filter fun i => !trained.toNat.testBit i.key).foldl (fun (s : State) i => s.unitDown (stackUnit i)) (s.setRf 0x300 0 4 7)

/-- Stage 8: pairing runs when TWIN_PRESENT is high and PAIR_CFG.AUTO is 1 (R552). -/
def State.pairStage (s : State) : State :=
  let s := s.setRf 0x300 0 4 8
  if s.pins.twin && s.rf (engineAt 0x100) 0 1 == 1 then s.pairStart true else s

/-- LANES_STAGE_TIMEOUT: 100 ms after the ports entered Detect. -/
def lanesLate (s : State) : State := if s.rf 0x300 0 4 = 7 then s.pairStage else s

/-- READY: once stages 7 and 8 are complete, firmware performs the steps of R624. -/
def startReady (s : State) (elapsed : BitVec 32) : State :=
  let up := (List.finRange 10).all fun k => !bitOf (s.reg (portAt k 0)) 0 || s.portUp k
  let s := if s.rf 0x300 0 4 = 7 ∧ up ∧ s.mod.server ≠ 3 then s.pairStage else s
  if s.rf 0x300 0 4 ≠ 8 ∨ s.mod.server = 3 then s
  else
    let s := (s.modEngine fun e => { e with ready := true }).topo
    let s := s.modMod fun m => { m with locked := true }
    let s := regionIds.foldl (fun (s : State) i => s.tryOpen i) s
    (s.setRf 0x300 0 4 9).setRf 0x300 32 32 elapsed.toNat

/-! ### Per-function resets of a hatch, and their end (R631–R633) -/

/-- Registers at their reset values. -/
def State.resetRegs (s : State) (as : List Nat) : State := as.foldl (fun (s : State) a => s.setReg a (resetOf a)) s

/-- The registers of a core that a per-function reset of its hatch clears: those that the rules of R633 name, and CORE_CVTCNT (§2.6);
such a reset changes no other state (R632). -/
def coreFnRegs : List Nat := [0x300, 0x340, 0x350, 0x358, 0x400, 0x428, 0x8B0, 0xB08, 0xB20]

/-- What the reset of a hatch does to one of its cores; a core in stand-alone mode is not affected (R223, R633). -/
def State.coreReset (s : State) (i : CoreId) : State :=
  let s := s.stopCore i
  let run := (s.core i).cvRun.isSome
  let s := s.modCore i fun c =>
    { c with sregs := [], vregs := [], preds := [], cbs := [], events := [], acc := [], rows := [], active := {}, staged := {},
             stagedNew := false, wload := false, mq := [], mrun := [], lastBand := 0, dq := [], fast := none, vec := none,
             recvWait := false, fastWait := false, vecWait := false, tables := [], actBank := 0, tloads := [], stats := [],
             accMarks := [], wpar := [], spar := [], residue := [], vpar := [], evs := [], chainWay := [], chainIn := [], chainBuf := [], vregWait := [], vres := none, cvRun := none }
  let s := if run then s.setRf (coreAt i 0xC20) 8 3 4 else s
  (s.resetRegs (coreFnRegs.map (coreAt i))).setRf (coreAt i 0x900) 32 32 0

/-- HATCH_RESET: the reset starts; FUNC_RESET_COMPLETE ends it. -/
def hatchResetGo (s : State) (h : HatchId) : State :=
  let s := (s.quietHatch h).hqGiveBack (hatchEp h)
  let s := ((hatchCores h).filter fun i => !s.standAlone i).foldl (fun (s : State) i => s.coreReset i) s
  let s := s.modHatch h fun x => { x with run := none, seq := {}, pre := false, saved := none, lq := [], ended := none, bcpar := false }
  let s := s.setOwner h 0
  let s := s.resetRegs (((List.range 16).map fun k => hatchAt h (0x1000 + 8 * k)) ++ (List.range 5).map fun k => hatchAt h (0x10 + 8 * k))
  let d := s.dom h.p (.hatch h.h)
  let s := (s.setRf (netAt h.p 8) h.h.val 1 0).setDom h.p (.hatch h.h) { d with asleep := false, waking := false, entering := false, reset := true }
  s.setBusy (0x100 + h.p.val * 0x20 + h.h.val)

/-- The reset of a management port (§14.7): its link drops and its queued datagrams are discarded; the PCS restarts with FEC. -/
def mgmtReset (s : State) (m : Fin 2) : State :=
  let b := BitVec.ofNat 2 (2 ^ m.val)
  let fec := bitOf (s.reg (mgmtAt (0x100 + 64 * m.val))) 48
  (s.modMgmt fun x =>
    { x with link := x.link &&& ~~~b, fecInUse := if fec then x.fecInUse ||| b else x.fecInUse &&& ~~~b }).setBusy (0x380 + m.val)

/-- FUNC_RESET_COMPLETE: the reset of a function ends, and its busy bit is 0 again. -/
def resetComplete (s : State) (index : BitVec 12) : State :=
  let k := index.toNat
  if !s.mod.busy.contains k then s
  else
    let s := s.modMod fun m => { m with busy := m.busy.filter (· != k) }
    let p : Fin 8 := fin 8 ((k - 0x100) / 0x20)
    let j := (k - 0x100) % 0x20
    if k = 0x3A0 then engineResetEnd s
    else if 0x300 ≤ k then s
    else if j < 4 then
      let d := s.dom p (.hatch (fin 4 j))
      (s.setDom p (.hatch (fin 4 j)) { d with reset := false }).drainEntry p (.hatch (fin 4 j))
    else if 0x10 ≤ j ∧ j < 0x18 then regionResetEnd s ⟨p, fin 8 (j - 0x10)⟩
    else s

/-- A write of FUNC_RESET (R631). -/
def funcReset (s : State) (v : Word) : State :=
  let k := bitsOf v 0 12
  let p : Fin 8 := fin 8 ((k - 0x100) / 0x20)
  let j := (k - 0x100) % 0x20
  if s.mod.busy.contains k then s.discard
  else if 0x100 ≤ k ∧ k < 0x200 then
    if j < 4 then hatchResetGo s ⟨p, fin 4 j⟩
    else if 8 ≤ j ∧ j < 12 then
      if (s.stack ⟨p, fin 4 (j - 8)⟩).resetting then s.discard else stackResetGo s ⟨p, fin 4 (j - 8)⟩
    else if 0x10 ≤ j ∧ j < 0x18 then regionResetGo s ⟨p, fin 8 (j - 0x10)⟩
    else if j = 0x18 then scrubReset s p
    else s.discard
  else if 0x300 ≤ k ∧ k < 0x30A then portReset s (fin 10 (k - 0x300))
  else if 0x380 ≤ k ∧ k < 0x382 then mgmtReset s (fin 2 (k - 0x380))
  else if k = 0x3A0 then (engineReset s).drained
  else s.discard

end Sys2Proof.Machine
end

