-- ==== Sys2Proof/Machine/Steward.lean ====
section
/-! DEFINITION. The steward's recovery policy (Table 13.15, R567–R569). -/
namespace Sys2Proof.Machine

/-- A suspect core whose test failed: repaired when one row is at fault, none is bypassed yet (R159) and the test of the repair passes,
else removed from service; the repair or the failure goes to the repair record (R629). -/
def State.coreFailed (s : State) (i : CoreId) (row : Option (BitVec 7)) (sound : Bool) (since : Word) : State :=
  let w := s.reg (hatchAt i.hatch 0x50)
  let (ok, s) := match row, s.rf (coreAt i 0x800) 0 8 == 128 with
    | some r, true => s.repairRow i r.toNat sound
    | _, _ => (false, s)
  if ok then
    let r := (row.getD 0).toNat
    (repairWrite (s.event 0x04 (coreUnit i) r) (repairEntry i (some r))).recovered 0 since
  else
    (repairWrite (s.coreOut i w) (repairEntry i none)).topo.recovered 0 since

/-- A hatch is fenced: no core of it is active (R29). -/
def State.fenceHatch (s : State) (h : HatchId) : State :=
  let s := hatchResetGo s h
  let s := coresWrite s h ((List.range 9).foldl (fun w j => withBits w (5 * j + 3) 2 3) (s.reg (hatchAt h 0x50)))
  let s := s.modGfc fun g => { g with fencedUnits := g.fencedUnits ++ [hatchUnit h] }
  (s.unitDown (hatchUnit h)).topo

/-- A plate controller has failed: the other runs alone; two failed ones fence the plate, whose commissions are aborted (R576). -/
def State.controllerFailed (s : State) (p : Fin 8) (n : Nat) : State :=
  let s := (s.modPlate p fun x => { x with ctlDown := x.ctlDown ||| BitVec.ofNat 2 (2 ^ (n % 2)) }).unitDown (unitId 7 p.val (n % 2))
  if (s.plate p).ctlDown = 3 then ((List.finRange 4).foldl (fun (s : State) h => s.abortHatch ⟨p, h⟩) s).topo else s

/-- The controller that runs the planner of a plate. -/
def State.controller (s : State) (p : Fin 8) : Nat := if (s.plate p).ctlDown.toNat.testBit 0 then 1 else 0

/-- Whether a record is that of a plate-store word that a plate controller could not read (R351, Table 8.7). -/
def controllerRead (r : FRec) : Bool :=
  r.cls == 2 && bitsOf (nth 0 r.body 0) 0 8 == cPstoreUe && bitsOf (nth 0 r.body 0) 8 4 == 14

/-- The test of a suspect by Table 13.15, and what follows when it fails; `sound` says that the array has no fault besides the row repaired.
A link group has no test: the recovery from one that is down ends once every route is rewritten (§9.4).  A core or hatch is tested, and
taken off its hatch, only with no commission on the hatch: what it has is aborted (R569). -/
def State.testSuspect (s : State) (e : GEntry) (testPass : Bool) (row : Option (BitVec 7)) (sound : Bool) : State :=
  let type := fld e.key.toNat 12 4
  let p : Fin 8 := fin 8 (fld e.key.toNat 9 3)
  let n := fld e.key.toNat 0 9
  let since := e.rcd.time
  match type with
  | 1 =>
    let i : CoreId := ⟨p, fin 36 n⟩
    let s := s.quietHatch i.hatch
    if testPass then s else s.coreFailed i row sound since
  | 2 => if testPass then hatchResetGo s ⟨p, fin 4 n⟩ else s.fenceHatch ⟨p, fin 4 n⟩
  | 3 =>
    let i : StackId := ⟨p, fin 4 n⟩
    let s := stackResetGo s i
    if testPass then (stackResetEnd s i true).topo else (s.failStack i since).topo
  | 4 =>
    let i : RegionId := ⟨p, fin 8 n⟩
    let s := regionResetGo s i
    if testPass then s else ((s.setRf (regionAt i 8) 0 1 0).unitDown (regionUnit i)).recovered 4 since
  | 6 => if sget 0 (s.router ⟨p, fin 4 (n / 4)⟩).up (n % 4) == 0 && s.routesClear then s.recovered 3 since else s
  | 7 => if testPass then s else s.controllerFailed p n
  | 8 =>
    let k : Fin 10 := fin 10 n
    if testPass then portReset s k else (niuriCfgWrite s k (withBits (s.reg (portAt k 0)) 0 1 0)).unitDown (portUnit k)
  | 11 =>
    if controllerRead e.rcd && (!testPass || s.policy 1 == 1) then s.controllerFailed p (s.controller p) else s
  | _ => s

/-- How far the steward goes in the closed bank after it has handled entry `n`: to the next entry when its test passed, and no further when
it failed (R567).  A link group that is up has nothing to rewrite; one that is down is the suspect until every route is rewritten. -/
def State.afterTest (s : State) (e : GEntry) (n : Nat) (testPass : Bool) : Nat :=
  if fld e.key.toNat 12 4 = 6 then
    let k := fld e.key.toNat 0 9
    if sget 0 (s.router ⟨fin 8 (fld e.key.toNat 9 3), fin 4 (k / 4)⟩).up (k % 4) ≠ 0 then n + 1
    else if s.routesClear then 256 else n
  else if testPass then n + 1 else 256

/-- The entry of the closed bank that the steward takes next as the suspect: the highest-ranked that is not INFO, of those behind the
entries whose tests have passed (R567). -/
def State.nextSuspect (s : State) : Option Nat :=
  if !s.gfc.held then none
  else ((List.range s.gfc.closed.length).filter fun k => decide (s.gfc.tested ≤ k)).find? fun k =>
    match s.gfc.closed[k]? with
    | some e => !e.info
    | none => false

/-- STEWARD_INCIDENT: the steward tests the suspect that is next, and acts when the test fails (R567). -/
def incident (s : State) (entry : Fin 256) (testPass : Bool) (row : Option (BitVec 7)) (sound : Bool) : State :=
  match (if s.nextSuspect = some entry.val then s.gfc.closed[entry.val]? else none) with
  | none => s
  | some e =>
    let n := s.afterTest e entry.val testPass
    (s.testSuspect e testPass row sound).modGfc fun g => { g with tested := n }

end Sys2Proof.Machine
end

