-- ==== Sys2Proof/Machine/Control.lean ====
section
/-! DEFINITION. Control-space reads and writes (§0.6, R9–R18, R580, R585): what a write of each register does, what a read of it
gives, and the clears of W1C flags. -/
namespace Sys2Proof.Machine

/-! ### User I/O pins (R477, R478) -/

/-- The nominal VCCO, in units of 10 mV, of a level within 5% of one; 0 when there is none. -/
def vccoNominal (level : Nat) : Nat :=
  (([100, 120, 150, 180].find? fun v => decide (95 * v ≤ 100 * level ∧ 100 * level ≤ 105 * v))).getD 0

/-- Whether the settings of a pin break Table 11.5 or Table 11.6: its IOB_PIN word, the even pin's for an odd pin, and the measured
nominal VCCO. -/
def pinBad (v : Word) (even : Option Word) (vcco : Nat) : Bool :=
  let std (w : Word) : Nat := if 12 < bitsOf w 0 4 then 0 else bitsOf w 0 4
  let n := std v
  let out := bitsOf v 4 2 == 1 || bitsOf v 4 2 == 2
  let drive := bitsOf v 6 3
  let term := bitsOf v 10 3
  let diff (k : Nat) : Bool := k == 11 || k == 12
  let supply : Bool :=
    if n = 1 ∨ n = 8 then vcco == 120
    else if n = 2 ∨ n = 4 ∨ n = 5 ∨ n = 9 then vcco == 150
    else if n = 3 ∨ n = 6 ∨ n = 7 ∨ n = 10 then vcco == 180
    else if n = 11 then vcco != 0 && (!out || vcco == 180)
    else vcco != 0 && (!out || vcco == 100 || vcco == 120)
  let driveOk := decide (drive < 5) && (drive != 4 || decide (3 < n) || n == 2 || n == 3)
  let termOk := term == 0 || (if n ≤ 3 then false else if diff n then term == 5 else decide (term ≤ 4))
  let pairOk : Bool := match even with
    | some w => std w == n
    | none => true
  !pairOk || (n != 0 && !(supply && driveOk && termOk))

/-- IOB_STAT.BADPIN; before VCCO has been measured it reads 0. -/
def State.badPins (s : State) (i : BankId) : Nat :=
  let w (n : Nat) : Word := s.reg (bankAt i (0x100 + 8 * n))
  let vcco := vccoNominal (s.bank i).measured.toNat
  if !s.pins.cfgDone then 0
  else ((List.range 24).map fun n => if pinBad (w n) (if n % 2 = 1 then some (w (n - 1)) else none) vcco then 2 ^ n else 0).sum

/-- The region that owns a pin (R476). -/
def pinRegion (i : BankId) (n : Fin 24) : RegionId := ⟨i.p, fin 8 (4 * i.j.val + n.val / 6)⟩

/-- What the module does at a user pin: it drives a level, or is tri-stated with a PULL code of Table 11.7. -/
inductive PinDrive where
  | drive (level : Bool)
  | tri (pull : BitVec 2)
  deriving DecidableEq, Repr

/-- What the module does at pin `n` of a bank (R476, R478, R479, R644): without VCCO it is tri-stated; EXTEST drives it; an unused pin, and
any pin before configuration completes or with CONFIG_ERR, is tri-stated with the weak pull-up; a region that is not OPEN, or sleeps, leaves
the pin in its SAFE state; else the owning region's user logic drives it as DIR admits. -/
def State.pinOut (s : State) (i : BankId) (n : Fin 24) : PinDrive :=
  let w := s.reg (bankAt i (0x100 + 8 * n.val))
  let r := pinRegion i n
  let k := n.val % 6
  let pull : PinDrive := .tri (BitVec.ofNat 2 (bitsOf w 13 2))
  let user (u : BitVec 12) : PinDrive := match bitsOf w 4 2 with
    | 1 => .drive (u.toNat.testBit k)
    | 2 => if u.toNat.testBit (6 + k) then .drive (u.toNat.testBit k) else pull
    | _ => pull
  let std := bitsOf w 0 4
  if !(s.bank i).ok || s.mod.inReset then .tri 1
  else if s.test.instr == 0 && !s.test.tlr then .drive (s.test.driven.toNat.testBit (24 * (2 * i.p.val + i.j.val) + n.val))
  else if !s.pins.cfgDone || s.pins.cfgErr || std == 0 || decide (12 < std) || s.badPins i / 2 ^ n.val % 2 == 1 then .tri 1
  else if (s.region r).state != .opened || !s.awake r.p (.region r.r) then
    match bitsOf w 15 2 with
    | 0 => .tri 1
    | 1 => .drive false
    | 2 => .drive true
    | _ => user (s.region r).pinHeld
  else user (Config.userPins r.p r.r s.mod.time)

/-- The inputs of a region's six pins: those of other regions do not reach it, and a bank without VCCO gives 0 (R476, R479, R644). -/
def State.pinIn (s : State) (r : RegionId) : BitVec 6 :=
  let b := s.bank ⟨r.p, fin 2 (r.r.val / 4)⟩
  if b.ok then BitVec.ofNat 6 (b.levels.toNat / 2 ^ (r.r.val % 4 * 6)) else 0

/-! ### Registers that show other state -/

/-- A word from fields at their lowest bits. -/
def pack (l : List (Nat × Nat)) : Nat := (l.map fun x => x.2 * 2 ^ x.1).sum

/-- A truth value as a bit. -/
def bit1 (b : Bool) : Nat := if b then 1 else 0

/-- The bits `k < n` for which `p` holds. -/
def bitMap (n : Nat) (p : Nat → Bool) : Nat := ((List.range n).map fun k => if p k then 2 ^ k else 0).sum

/-- What a device-global register shows of other state. -/
def globShow (s : State) (o : Nat) : Nat :=
  if o = 0x10 then s.mod.time.toNat
  else if o = 0x20 then s.nv.next.toNat
  else if o = 0x108 then (plateIds.map fun p => (s.plate p).act.toNat * 2 ^ (16 + 2 * p.val)).sum
  else if o = 0x118 then (plateIds.map fun p => s.hwlim p * 2 ^ (16 + 2 * p.val)).sum
  else if o = 0x310 then
    pack [(9, bit1 s.pins.testkeep), (7, s.pins.bootsel.toNat), (6, bit1 s.pins.twin), (5, bit1 s.pins.faultN), (4, bit1 s.pins.cfgErr),
      (3, bit1 s.pins.cfgDone), (2, bit1 s.pins.resetN), (1, bit1 s.pins.pwrOk)]
  else if o = 0x1008 then pack [(18, bit1 s.gfc.held), (9, if s.gfc.held then s.gfc.closed.length else 0)]
  else if inArr 0x208 8 11 o then
    bitMap 64 fun b =>
      let k := 0x100 + 64 * ((o - 0x208) / 8) + b
      s.mod.busy.contains k || stackIds.any fun i => k == 0x100 + 0x20 * i.p.val + 8 + i.s.val && (s.stack i).resetting
  else if inArr 0x2000 8 256 o then
    match (if s.gfc.held then s.gfc.closed[(o - 0x2000) / 8]? else none) with
    | some e => pack [(34, 1), (33, bit1 e.info), (32, bit1 e.own), (16, e.wit.toNat), (0, e.key.toNat)]
    | none => 0
  else if inArr 0x10000 8 2048 o then
    let w := (o - 0x10000) / 8 % 8
    match (if s.gfc.held then s.gfc.closed[(o - 0x10000) / 64]? else none) with
    | some e =>
      let r := e.rcd
      if w = 0 then r.time.toNat
      else if w = 1 then
        pack [(0, r.suspect.toNat), (16, r.reporter.toNat), (32, bit1 r.witness), (40, r.cls.toNat), (48, 8 * r.body.length)]
      else (nth 0 r.body (w - 2)).toNat
    | none => 0
  else 0

/-- What a hatch register shows of other state. -/
def hatchShow (s : State) (h : HatchId) (o : Nat) : Option Nat :=
  let x := s.hatch h
  if o = 0 then
    some (pack [(32, match x.run with | some l => l.tag.toNat | none => 0), (16, x.seq.pc % 65536),
      (12, x.seq.hold.toNat), (9, x.lq.length),
      (8, match x.run with | some l => bit1 l.modes.checked | none => 0), (5, ((s.activeCores h).length - 1) % 8), (0, s.seqState h)])
  else if o = 0x10 then
    some ((List.range 4).map fun n => (match nth none x.seq.loops n with | some l => l.last % 65536 | none => 0xFFFF) * 2 ^ (16 * n)).sum
  else if inArr 0x18 8 4 o then
    some (match nth none x.seq.loops ((o - 0x18) / 8) with
      | some l => l.index % 2 ^ 32 * 2 ^ 32 + l.remain % 2 ^ 32
      | none => 0)
  else none

/-- What a core register shows of other state, over its stored fields. -/
def coreShow (s : State) (i : CoreId) (o : Nat) (w : Word) : Word :=
  let c := s.core i
  let add (l : List (Nat × Nat)) : Word := w ||| BitVec.ofNat 64 (pack l)
  if o = 0x890 then
    add [(11, bit1 (s.standAlone i)), (10, bit1 (decide (s.rf (coreAt i 0x800) 0 8 < 128))), (9, bit1 c.stagedNew),
      (8, bit1 (!c.mrun.isEmpty || c.wload || c.mxRun)), (6, c.lastBand.toNat), (0, c.mq.length)]
  else if o = 0x8C0 then mxGold.setWidth 64
  else if o = 0x900 then
    add [(16, c.dq.length), (15, bit1 c.fast.isSome), (14, bit1 c.vec.isSome), (13, bit1 c.recvWait)]
  else if o = 0xA00 then
    add [(8, bitMap 4 fun t => hdrLut (sget {} c.tables (2 * t + bit1 (c.actBank.toNat.testBit t))).hdr),
      (4, bitMap 4 fun t => c.tloads.any fun l => l.t.toNat == t), (0, c.actBank.toNat)]
  else if o = 0xA40 then withBits w 32 8 c.sa.pc
  else if inArr 0x350 8 2 o then
    BitVec.ofNat 64 (leNat ((List.range 8).map fun e => sget 0 c.events (o - 0x350 + e)))
  else if o = 0xB00 then
    add [(48, c.epoch.toNat), (43, c.held.length), (32, c.outst.length), (28, c.tq.length),
      (27, bit1 (c.tq.any fun x => x.wantsCredit)), (26, bit1 (decide (0 < c.advance)))]
  else w

/-- What a port register shows of other state. -/
def portShow (s : State) (k : Fin 10) (o : Nat) : Nat :=
  let p := s.port k
  if o = 0x18 then pack [(48, bit1 p.panic), (32, p.rxHold.length)]
  else if o = 0x20 then
    pack [(32, bitMap 16 fun l => (p.lane l).lock), (16, p.peerPort.toNat), (10, bit1 p.heldL), (9, bit1 p.protAct),
      (8, bit1 p.widthAct), (0, p.state.toNat)]
  else if inArr 0x100 8 16 o then
    let l := (o - 0x100) / 8
    let x := p.lane l
    pack [(8, (Config.eye k l s.mod.time).toNat), (4, x.logical.toNat), (3, bit1 (p.present.toNat.testBit l)), (2, bit1 x.seeded),
      (1, bit1 x.desk), (0, bit1 x.lock)]
  else 0

/-- The code of a region state (Table 11.2). -/
def regionCode : RegState → Nat
  | .empty => 0 | .closed => 1 | .opened => 2 | .loading => 3 | .incoherent => 4

/-- What a configuration register shows of other state. -/
def confShow (s : State) (o : Nat) : Nat :=
  if o = 0 then
    pack [(4, s.pins.bootsel.toNat), (3, bit1 s.pins.testkeep), (1, bit1 s.pins.cfgErr), (0, bit1 s.pins.cfgDone)]
  else if o = 0x200 then
    pack [(12, bit1 s.mod.repairW.isSome), (11, bit1 (decide (1024 ≤ s.nv.repair.length))), (0, min 1024 s.nv.repair.length)]
  else if inArr 0x1000 8 1024 o then (nth 0 s.nv.repair ((o - 0x1000) / 8)).toNat
  else 0

/-- What a register of the engine window shows of other state. -/
def engineShow (s : State) (o : Nat) : Option Nat :=
  if o = 0x10 then
    some (pack [(48, 255 - s.engine.slots.length), (31, s.engine.own.length), (14, s.engine.partner.length),
      (0, if s.pair.state = .fenced then 3 else if s.engine.inReset then 2 else bit1 s.engine.ready)])
  else if o = 0x108 then some (pack [(32, s.pair.epoch.toNat), (8, s.rf (engineAt o) 8 16), (0, pcode s.pair.state)])
  else none

/-- A register as a read returns it: its stored fields, and the fields that show other state (Table 0.3). -/
def State.readReg (s : State) (b : Blk) (o : Nat) (r : RegInfo) : Word :=
  let w := s.reg (b.base + o) &&& ~~~(r.wo ||| r.w1p)
  let add (n : Nat) : Word := w ||| BitVec.ofNat 64 n
  match b with
  | .glob => add (globShow s o)
  | .hatch h => (hatchShow s h o).elim w (BitVec.ofNat 64 ·)
  | .core i => coreShow s i o w
  | .queue p q =>
    let x := s.hq p q.val
    if o = 0x10 then BitVec.ofNat 64 (pack [(32, x.tag.toNat), (16, x.free.length), (7, x.held.length), (0, x.pub.length)]) else w
  | .stack i =>
    let x := s.stack i
    if o = 0x10 then
      BitVec.ofNat 64 (pack [(24, (List.range 16).countP fun k => x.panic.toNat.testBit k), (12, (retEntries s i).countP fun e => bitOf e 0),
        (10, x.state.toNat), (8, x.refrate.toNat), (0, x.temp.toNat)])
    else if inArr 0x1000 8 256 o then sget 0 s.nv.ret (256 * i.key + (o - 0x1000) / 8)
    else w
  | .router i =>
    if o = 0 then
      BitVec.ofNat 64 (pack ((List.range 4).map fun m => (24 - 8 * m, (sget 0 (s.router i).up m).toNat)))
    else w
  | .netPlate p =>
    if o = 8 then
      add (pack [(20, bitMap 8 fun k => (s.dom p (.region (fin 8 k))).asleep), (16, bitMap 4 fun k => (s.dom p (.hatch (fin 4 k))).asleep)])
    else w
  | .region i =>
    let x := s.region i
    if o = 0 then
      BitVec.ofNat 64 (pack [(55, bit1 (s.regionPanics i)), (48, wbuf x), (32, x.writes.length), (16, x.reads.length),
        (4, bitMap 4 fun n => x.clkLock.toNat.testBit n && bitOf (s.reg (regionAt i (0x60 + 8 * n))) 0),
        (3, bit1 (s.dom i.p (.region i.r)).asleep), (0, regionCode x.state)])
    else w
  | .bank i =>
    if o = 0 then BitVec.ofNat 64 (pack [(40, bit1 (s.bank i).ok), (32, (s.bank i).measured.toNat), (0, s.badPins i)]) else w
  | .scrub p =>
    let x := s.scrubSeq p
    if o = 0 then x.ctl.setWidth 64
    else if o = 8 then
      add (pack [(31, bit1 (x.ctl.toNat.testBit 0 && s.engine.ready && !(s.plate p).scrub.failed)), (0, x.pos)])
    else w
  | .port k => add (portShow s k o)
  | .conf => add (confShow s o)
  | .engine => (engineShow s o).elim w (BitVec.ofNat 64 ·)
  | .mgmt =>
    if o = 8 then add s.mod.server.toNat
    else if o = 0x100 ∨ o = 0x140 then add (pack [(49, bit1 (s.mgmt.link.toNat.testBit ((o - 0x100) / 0x40)))])
    else w
  | _ => w

/-! ### Reads -/

/-- Whether an address lies in the user control window of a region (§11.8). -/
def userWindow (b : Blk) (o : Nat) : Option RegionId :=
  match b with
  | .region i => if 0x8000 ≤ o then some i else none
  | _ => none

/-- The plate of a plate window. -/
def Blk.plateOf : Blk → Option (Fin 8)
  | .plate p | .netPlate p | .scrub p | .queue p _ => some p
  | .hatch i => some i.p
  | .core i => some i.p
  | .stack i => some i.p
  | .router i => some i.p
  | .region i | .channel i => some i.p
  | .bank i => some i.p
  | .glob | .port _ | .conf | .engine | .mgmt => none

/-- The endpoint that serves a control-space window (R397, Table 9.2); the device-global window belongs to the control complex. -/
def State.windowEp (s : State) (b : Blk) : Nat :=
  match b.plateOf, b with
  | some p, _ => agentEp p
  | none, .port k => portEp k
  | none, .conf => 312
  | none, .engine => engineEp s.enginePlate
  | none, .mgmt => 696
  | none, _ => complexEp s.complexPlate

/-- The endpoint from which a source accesses control space: a management port, the test port in the configuration block, or the control
complex. -/
def State.sourceEp (s : State) : PortClass → Nat
  | .management => 696
  | .testPort => 312
  | _ => complexEp s.complexPlate

/-- A control-space access from a source to a window (R397): with no route, or at a fenced endpoint, it returns 0 at once, and when it or
its answer is lost it times out and returns 0 with an access fault (R405, R412, R417; assumption 129). -/
def State.overNet (s : State) (src : PortClass) (b : Blk) (write : Bool) (a : Nat) (f : State → Word × State) : Word × State :=
  let e := s.sourceEp src
  let d := s.windowEp b
  match s.carry e d with
  | (.refused, s) => (0, s)
  | (.lost, s) => (0, s.accessFault src write a)
  | (.taken x, s) =>
    if x ≠ d then (0, s.accessFault src write a)
    else
      let (w, s) := f s
      let (b, s) := s.carry d e
      if b = .taken e then (w, s) else (0, s.accessFault src write a)

/-- A read that is forwarded to the user logic behind an open window: whether it answers within CTL_TO, and what, is free (R475,
assumption 46). -/
def State.windowRead (s : State) (i : RegionId) : Word × State :=
  let (late, s) := s.fresh
  if bitOf late 0 then (0, s.ctlLate i) else s.fresh

/-- A 64-bit read of control space (R9–R12). -/
def State.csRead (s : State) (src : PortClass) (a : Nat) : Word × State :=
  if a % 8 ≠ 0 then (0, s.accessFault src false a)
  else match locate a with
    | none => (0, s.accessFault src false a)
    | some (b, o) => s.overNet src b false a fun s => match userWindow b o with
      | some i => if s.regionOpen i then s.windowRead i else (0, s)
      | none => match regIn b o with
        | some r => (s.readReg b o r, s)
        | none => (0, s.accessFault src false a)

/-! ### Writes -/

/-- Store the bits of a write that fields accept; software clears of W1C flags set out for the flag's owner (R18); a write that no
field accepts is discarded and counted (R13). -/
def State.store (s : State) (a : Nat) (r : RegInfo) (v : Word) : State :=
  let mask := r.rw ||| (if s.mod.locked then 0 else r.rwl)
  if r.w1c ≠ 0 then
    if v &&& r.w1c = 0 then s else { s with crossing := s.crossing ++ [(a, v &&& r.w1c)] }
  else if mask ||| r.w1p = 0 then s.discard
  else s.setReg a ((s.reg a &&& ~~~mask) ||| (v &&& mask))

/-- A write of a device-global register. -/
def globWrite (s : State) (o : Nat) (r : RegInfo) (v : Word) : State :=
  if o = 0x18 then
    let s := s.store o r v
    if bitOf v 0 then kick s else s
  else if o = 0x20 then { s with nv := { s.nv with next := BitVec.ofNat 8 (bitsOf v 0 8) } }
  else if o = 0x108 then clkmodeSet s false v
  else if o = 0x118 then clkmodeSet s true v
  else if o = 0x200 then funcReset s v
  else if o = 0x1000 then (if bitOf v 0 then gfcFree s else s)
  else s.store o r v

/-- A write of a core register (R160, R254, Table 3.19, R392). -/
def coreWrite (s : State) (i : CoreId) (o : Nat) (r : RegInfo) (v : Word) : State :=
  if o = 0x800 then rowmapWrite s i 0 v
  else if inArr 0x810 8 16 o then rowmapWrite s i (fin 17 ((o - 0x808) / 8)) v
  else if o = 0x8B8 then (if bitOf v 0 then mxStart s i else s)
  else if o = 0xA40 then saWrite s i v
  else if o = 0xC20 then cvWrite s i v
  else if (o = 0xA48 ∨ inArr 0x1000 8 512 o) ∧ (!s.standAlone i ∨ s.saStatus i = 1) then s.discard
  else s.store (coreAt i o) r v

/-- A write of a hatch register. -/
def hatchWrite (s : State) (h : HatchId) (o : Nat) (r : RegInfo) (v : Word) : State :=
  if o = 8 then s.queueLaunch h v none
  else if o = 0x48 then tracebaseWrite s h v
  else if o = 0x50 then coresWrite s h v
  else if o = 0x1080 then encClear s h (BitVec.ofNat 16 (bitsOf v 0 16)) []
  else s.store (hatchAt h o) r v

/-- A write of a plate controller's register. -/
def plateWrite (s : State) (p : Fin 8) (o : Nat) (r : RegInfo) (v : Word) : State :=
  if o = 0x1000 then planBaseSet s p v
  else if o = 0x1010 then planKregSet s p v
  else if o = 0x2008 then xltGo s p v
  else s.store (plateAt p o) r v

/-- A write of a margin region's register. -/
def regionWrite (s : State) (i : RegionId) (o : Nat) (r : RegInfo) (v : Word) : State :=
  if o = 8 then gateWrite s i v
  else if o = 0x10 then (s.store (regionAt i o) r v).regionPanic i
  else if o = 0x18 then qbindWrite s i v
  else if inArr 0x60 8 4 o then clkWrite s i (fin 4 ((o - 0x60) / 8)) v
  else s.store (regionAt i o) r v

/-- A write of a Niuri port's register. -/
def portWrite (s : State) (k : Fin 10) (o : Nat) (r : RegInfo) (v : Word) : State :=
  if o = 0 then niuriCfgWrite s k v
  else if o = 0x18 then (s.store (portAt k o) r v).rxPanic k
  else if o = 0x28 then (if bitOf v 0 then retrainGo s k else s)
  else s.store (portAt k o) r v

/-- A write of SCRUB_CTL: the three copies of a scrubber's sequencing state take it (R520). -/
def scrubWrite (s : State) (p : Fin 8) (r : RegInfo) (v : Word) : State :=
  let s := s.store (scrubAt p 0) r v
  s.setScrub p { s.scrubSeq p with ctl := (s.reg (scrubAt p 0)).setWidth 16 }

/-- A write of the register at an offset of a block. -/
def State.writeReg (s : State) (b : Blk) (o : Nat) (r : RegInfo) (v : Word) : State :=
  match b with
  | .glob => globWrite s o r v
  | .plate p => plateWrite s p o r v
  | .hatch h => hatchWrite s h o r v
  | .core i => coreWrite s i o r v
  | .stack i => if o = 0x48 then retireGo s i v else s.store (b.base + o) r v
  | .router i => if inArr 0x800 8 256 o then rteWrite s i (fin 256 ((o - 0x800) / 8)) v else s.store (b.base + o) r v
  | .netPlate p => if o = 8 then pwrWrite s p v else s.store (b.base + o) r v
  | .region i => regionWrite s i o r v
  | .channel i => if o = 8 then (if bitOf v 0 then edgeIf (channelAt i 0x10) s (icpBegin s i none) else s) else s.store (b.base + o) r v
  | .queue p q =>
    if o = 0 then hqPoolWrite s p q.val v
    else if o = 8 then hqCfgSet s p q.val v
    else if o = 0x18 then (if bitOf v 0 then hqResetAll s p q.val else s)
    else s.store (b.base + o) r v
  | .port k => portWrite s k o r v
  | .conf => if o = 0x208 then repairWrite s v else s.store (b.base + o) r v
  | .scrub p => if o = 0 then scrubWrite s p r v else s.store (b.base + o) r v
  | .engine => if o = 0x18 then cancelWrite s v else s.store (b.base + o) r v
  | _ => s.store (b.base + o) r v

/-- A write access of control space (R9–R14): a narrow or misaligned one, or one to no register, changes nothing and is recorded as an
access fault. -/
def State.csWrite (s : State) (src : PortClass) (a size : Nat) (v : Word) : State :=
  if size ≠ 8 ∨ a % 8 ≠ 0 then s.accessFault src true a
  else match locate a with
    | none => s.accessFault src true a
    | some (b, o) => (s.overNet src b true a fun s => (0, match userWindow b o with
      | some i => ctlAccess s i (BitVec.ofNat 15 (o - 0x8000)) true v
      | none => match regIn b o with
        | some r => s.writeReg b o r v
        | none => s.accessFault src true a)).2

/-- Whether a source may write control space (Table 14.2): the control complex, and a management port in normal operation. -/
def State.mayWrite (s : State) : PortClass → Bool
  | .complex => true
  | .management => s.mod.server == 1
  | _ => false

/-- REGISTER_WRITE. -/
def registerGo (s : State) (src : PortClass) (a size : Nat) (v : Word) : State :=
  if s.mayWrite src then s.csWrite src a size v else s

/-- W1C_CLEAR: the oldest clear on its way to the register takes effect; the flags that hardware sets in the same cycle stay set, and
their counters count (R15, R17, R18). -/
def clearGo (s : State) (a : Nat) (hwSet : Word) : State :=
  match s.crossing.find? fun x => x.1 == a, regAt a with
  | some x, some r =>
    let s := { s with crossing := s.crossing.erase x }
    let s := s.setReg a (s.reg a &&& ~~~x.2)
    (List.range 64).foldl (fun (s : State) b => if bitOf (hwSet &&& r.w1c) b then s.flag a b else s) s
  | _, _ => s

/-- The clears on their way to a register take effect, before the write that sent them is answered (R610). -/
def State.landClears (s : State) (a : Nat) : State :=
  (s.crossing.filter fun x => x.1 == a).foldl (fun s _ => clearGo s a 0) s

/-- Whether an aligned address is a register's, or lies in a user control window. -/
def occupied (a : Nat) : Bool :=
  a % 8 == 0 && match locate a with
    | some (b, o) => (userWindow b o).isSome || (regIn b o).isSome
    | none => false

/-- REG: a stream command that writes one register as the control complex does; an access fault or a discarded write fails the image
(R497, Table 12.9). -/
def streamReg (s : State) (a v : Word) : State :=
  s.stream (s.spells 0 (cmdBytes 0x30 0 ++ leBytes 8 a.toNat ++ leBytes 8 v.toNat)) 20 true fun s =>
    let t := s.csWrite .complex a.toNat 8 v
    if occupied a.toNat ∧ t.reg 0x1020 = s.reg 0x1020 then t
    else t.bootFail t.boot.image 0x1B t.boot.offset

end Sys2Proof.Machine
end

