-- ==== Sys2Proof/Machine/ControlRows.lean ====
section
/-! DEFINITION. The rows of control-space writes that have no row of their own, of clears of W1C flags, and of the stream command REG. -/
namespace Sys2Proof.Machine

/-- REGISTER_WRITE (R9). -/
def execRegisterWrite (src : PortClass) (addr : BitVec 40) (size : Nat) (v : Word) (s : State) : Host.Outcome State Fault Refusal :=
  done (registerGo s src addr.toNat size v)

/-- W1C_CLEAR (R18). -/
def execW1cClear (addr : BitVec 40) (hwSet : Word) (s : State) : Host.Outcome State Fault Refusal :=
  done (clearGo s addr.toNat hwSet)

/-- REG (R497). -/
def execReg (addr : Word) (v : Word) (s : State) : Host.Outcome State Fault Refusal :=
  done (streamReg s addr v)

end Sys2Proof.Machine
end

