-- ==== Sys2Proof/Machine/CoreRegRows.lean ====
section
/-! DEFINITION. The rows of register writes to cores and hatches with an effect of their own, the known-pattern test and the
check-value unit. -/
namespace Sys2Proof.Machine

/-- HATCH_ENCCLR (R89). -/
def execHatchEncclr (i : HatchId) (clr : BitVec 16) (arriving : List (BitVec 4 × BitVec 32 × BitVec 32)) (s : State) : Host.Outcome State Fault Refusal :=
  done (encClear s i clr arriving)

/-- CORE_ROWMAP_WRITE (R160). -/
def execCoreRowmapWrite (i : CoreId) (reg : Fin 17) (v : Word) (s : State) : Host.Outcome State Fault Refusal :=
  done (rowmapWrite s i reg v)

/-- MXTEST_START (R161). -/
def execMxtestStart (i : CoreId) (s : State) : Host.Outcome State Fault Refusal :=
  done (mxStart s i)

/-- MXTEST_DONE (R162). -/
def execMxtestDone (i : CoreId) (faulty : List (BitVec 8)) (otherFault : Bool) (s : State) : Host.Outcome State Fault Refusal :=
  done (mxDone s i faulty otherFault)

/-- SACTL_START (R219). -/
def execSactlStart (i : CoreId) (entry : BitVec 8) (keep kx4 : Bool) (s : State) : Host.Outcome State Fault Refusal :=
  done (saWrite s i (saStartWord entry keep kx4))

/-- SACTL_HALT (R222). -/
def execSactlHalt (i : CoreId) (s : State) : Host.Outcome State Fault Refusal :=
  done (saWrite s i ((s.reg (coreAt i 0xA40) &&& 0xFF000000000C#64) ||| 2))

/-- HATCH_LAUNCH_WRITE (R346). -/
def execHatchLaunchWrite (i : HatchId) (v : Word) (s : State) : Host.Outcome State Fault Refusal :=
  done (s.queueLaunch i v none)

/-- HATCH_CORES_WRITE (R300). -/
def execHatchCoresWrite (i : HatchId) (v : Word) (s : State) : Host.Outcome State Fault Refusal :=
  done (coresWrite s i v)

/-- HATCH_TRACEBASE_WRITE (R298). -/
def execHatchTracebaseWrite (i : HatchId) (v : Word) (s : State) : Host.Outcome State Fault Refusal :=
  done (tracebaseWrite s i v)

/-- CORE_CVCTL_START (R392). -/
def execCoreCvctlStart (i : CoreId) (v : Word) (s : State) : Host.Outcome State Fault Refusal :=
  done (cvWrite s i (v ||| 1))

/-- CV_RUN_COMPLETE (R391). -/
def execCvRunComplete (i : CoreId) (s : State) : Host.Outcome State Fault Refusal :=
  doneWhenServed s (cvDone s i)

end Sys2Proof.Machine
end

