-- ==== Sys2Proof/Machine/CoreRows.lean ====
section
/-! DEFINITION. The rows of what happens inside a core: its matrix and drain queues, table loads, events and fetch engine.  A
kernel that has ended leaves its hatch when the last of its work completes. -/
namespace Sys2Proof.Machine

/-- MATRIX_OP_START (R135). -/
def execMatrixOpStart (i : CoreId) (s : State) : Host.Outcome State Fault Refusal :=
  done ((matrixStart s i).finishEnded i.hatch)

/-- WEIGHT_LOAD_COMPLETE (R141). -/
def execWeightLoadComplete (i : CoreId) (s : State) : Host.Outcome State Fault Refusal :=
  done ((weightLoadDone s i).finishEnded i.hatch)

/-- MPASS_COMPLETE (R139). -/
def execMpassComplete (i : CoreId) (s : State) : Host.Outcome State Fault Refusal :=
  done ((passDone s i).finishEnded i.hatch)

/-- DRAIN_OP_START (R663). -/
def execDrainOpStart (i : CoreId) (s : State) : Host.Outcome State Fault Refusal :=
  done ((drainStart s i).finishEnded i.hatch)

/-- DRAIN_OP_COMPLETE (R194). -/
def execDrainOpComplete (i : CoreId) (u : DrainUnit) (s : State) : Host.Outcome State Fault Refusal :=
  done ((drainDone s i u).finishEnded i.hatch)

/-- CHAIN_BLOCK_ARRIVE (R201). -/
def execChainBlockArrive (i : CoreId) (s : State) : Host.Outcome State Fault Refusal :=
  done ((chainArrive s i).finishEnded i.hatch)

/-- CHAIN_TIMEOUT (R180). -/
def execChainTimeout (i : CoreId) (s : State) : Host.Outcome State Fault Refusal :=
  done ((chainTimedOut s i).finishEnded i.hatch)

/-- TLOAD_COMPLETE (R230). -/
def execTloadComplete (i : CoreId) (s : State) : Host.Outcome State Fault Refusal :=
  done ((tloadDone s i).finishEnded i.hatch)

/-- EVSIG_DELIVER (R283). -/
def execEvsigDeliver (i : CoreId) (s : State) : Host.Outcome State Fault Refusal :=
  done ((evsigArrive s i).finishEnded i.hatch)

/-- FETCH_REQUEST_ISSUE (R312). -/
def execFetchRequestIssue (i : CoreId) (s : State) : Host.Outcome State Fault Refusal :=
  done ((fetchIssue s i).finishEnded i.hatch)

/-- TRANSFER_CREDIT_TAKE (R310). -/
def execTransferCreditTake (i : CoreId) (s : State) : Host.Outcome State Fault Refusal :=
  done ((creditTake s i).finishEnded i.hatch)

/-- FETCH_RESPONSE (R320). -/
def execFetchResponse (i : CoreId) (s : State) : Host.Outcome State Fault Refusal :=
  done ((fetchResponse s i).finishEnded i.hatch)

/-- FRING_TILE_ARRIVE (R316). -/
def execFringTileArrive (i : CoreId) (s : State) : Host.Outcome State Fault Refusal :=
  done ((ringArrive s i).finishEnded i.hatch)

/-- EPOCH_ADVANCE (R321). -/
def execEpochAdvance (i : CoreId) (s : State) : Host.Outcome State Fault Refusal :=
  done ((epochGo s i).finishEnded i.hatch)

/-- RESPONSE_TIMEOUT (R412). -/
def execResponseTimeout (a tag : BitVec 10) (s : State) : Host.Outcome State Fault Refusal :=
  done (match epOf a.toNat with
    | .core i => (responseTimeout s a tag).finishEnded i.hatch
    | _ => responseTimeout s a tag)

end Sys2Proof.Machine
end

