-- ==== Sys2Proof/Machine/DramRows.lean ====
section
/-! DEFINITION. The rows of the stack controllers. -/
namespace Sys2Proof.Machine

/-- DRAM_SCHEDULE (R377). -/
def execDramSchedule (i : StackId) (ch : Fin 16) (s : State) : Host.Outcome State Fault Refusal :=
  done (schedule s i ch)

/-- PANIC_DEADLINE_MISS (R378). -/
def execPanicDeadlineMiss (i : StackId) (port : Fin 16) (cycles : BitVec 32) (s : State) : Host.Outcome State Fault Refusal :=
  done (deadlineMiss s i port cycles)

/-- PAGE_IDLE_CLOSE (R375). -/
def execPageIdleClose (i : StackId) (ch : Fin 16) (sid : Fin 3) (bank : Fin 16) (s : State) : Host.Outcome State Fault Refusal :=
  done (pageClose s i ch sid bank)

/-- REFRESH (R388). -/
def execRefresh (i : StackId) (temp : BitVec 8) (s : State) : Host.Outcome State Fault Refusal :=
  done (refresh s i temp)

/-- PATROL_READ (R385). -/
def execPatrolRead (i : StackId) (s : State) : Host.Outcome State Fault Refusal :=
  doneWhenServed s (patrol s i)

/-- STACK_RETIRE_GO (R386). -/
def execStackRetireGo (i : StackId) (v : Word) (s : State) : Host.Outcome State Fault Refusal :=
  done (retireGo s i v)

/-- ROW_RETIRE_COMPLETE (R386). -/
def execRowRetireComplete (i : StackId) (s : State) : Host.Outcome State Fault Refusal :=
  done (retireEnd s i)

/-- STACK_RESET (R389). -/
def execStackReset (i : StackId) (s : State) : Host.Outcome State Fault Refusal :=
  done (if (s.stack i).resetting then s.discard else stackResetGo s i)

/-- STACK_RESET_COMPLETE (R389). -/
def execStackResetComplete (i : StackId) (trained : Bool) (s : State) : Host.Outcome State Fault Refusal :=
  done ((stackResetEnd s i trained).topo)

end Sys2Proof.Machine
end

