-- ==== Sys2Proof/Machine/EngineRows.lean ====
section
/-! DEFINITION. The rows of the commission engine, the twin pair and fence tokens. -/
namespace Sys2Proof.Machine

/-- COMMISSION (R528). -/
def execCommission (port : Fin 8) (k : CmsnKey) (body : List Byte) (s : State) : Host.Outcome State Fault Refusal :=
  done (cmsnGo s port k body)

/-- TIE_TIMEOUT (R44). -/
def execTieTimeout (k : CmsnKey) (s : State) : Host.Outcome State Fault Refusal :=
  done (tieTimedOut s k).drained

/-- PROOF_SLOT_OPEN (R362). -/
def execProofSlotOpen (k : CmsnKey) (s : State) : Host.Outcome State Fault Refusal :=
  doneWhenServed s (slotOpen s k)

/-- STEWARD_RELEASE (R535). -/
def execStewardRelease (k : CmsnKey) (s : State) : Host.Outcome State Fault Refusal :=
  done (release s k)

/-- STEWARD_FAULT_RESOLVE (R327). -/
def execStewardFaultResolve (k : CmsnKey) (r : FaultResolution) (s : State) : Host.Outcome State Fault Refusal :=
  doneWhenServed s (faultResolve s k r)

/-- COMMIT_START (R539). -/
def execCommitStart (k : CmsnKey) (s : State) : Host.Outcome State Fault Refusal :=
  doneWhenServed s (commitStart s k)

/-- COMMIT_RESEND (R541). -/
def execCommitResend (k : CmsnKey) (s : State) : Host.Outcome State Fault Refusal :=
  done (commitResend s k)

/-- COMPLETION_ACKED (R543). -/
def execCompletionAcked (k : CmsnKey) (s : State) : Host.Outcome State Fault Refusal :=
  done ((completionAcked s k).drained)

/-- PROOF_STATE_SYNC (R365). -/
def execProofStateSync (p : Fin 8) (s : State) : Host.Outcome State Fault Refusal :=
  done (stateSync s p)

/-- CMSN_CANCEL_GO (R538). -/
def execCmsnCancelGo (k : CmsnKey) (s : State) : Host.Outcome State Fault Refusal :=
  done (cancelWrite s (BitVec.ofNat 64 (2 ^ 63 + k.stream.toNat * 2 ^ 32 + k.seq.toNat)))

/-- JOURNAL (R545). -/
def execJournal (r : JRec) (s : State) : Host.Outcome State Fault Refusal :=
  done (journalGo s r)

/-- JACK (R530). -/
def execJack (hi : Word) (s : State) : Host.Outcome State Fault Refusal :=
  done (jackGo s hi)

/-- MIRROR (R369). -/
def execMirror (w : MirrorMsg) (s : State) : Host.Outcome State Fault Refusal :=
  done (mirrorGo s w)

/-- MACK (R370). -/
def execMack (granule : BitVec 25) (s : State) : Host.Outcome State Fault Refusal :=
  done (mackGo s granule)

/-- HEARTBEAT_SEND (R554). -/
def execHeartbeatSend (s : State) : Host.Outcome State Fault Refusal :=
  done (heartbeatSend s)

/-- HEARTBEAT (R554). -/
def execHeartbeat (h : HeartbeatMsg) (s : State) : Host.Outcome State Fault Refusal :=
  done (heartbeatGo s h)

/-- HEARTBEAT_LOSS (R554). -/
def execHeartbeatLoss (s : State) : Host.Outcome State Fault Refusal :=
  done (heartbeatLost s)

/-- PAIR_PROPOSE (R553). -/
def execPairPropose (m : PairMsg) (s : State) : Host.Outcome State Fault Refusal :=
  done (proposeGo s m)

/-- PAIR_AGREE (R553). -/
def execPairAgree (m : PairMsg) (s : State) : Host.Outcome State Fault Refusal :=
  done (agreeGo s m)

/-- PAIR_REFUSE (R553). -/
def execPairRefuse (_m : PairMsg) (s : State) : Host.Outcome State Fault Refusal :=
  done (refuseGo s)

/-- PAIR_READY (R553). -/
def execPairReady (m : PairMsg) (s : State) : Host.Outcome State Fault Refusal :=
  done (readyGo s m)

/-- DURABLE_COPY_COMPLETE (R553). -/
def execDurableCopyComplete (s : State) : Host.Outcome State Fault Refusal :=
  done (copyDone s)

/-- PAIR_DETACH (R557). -/
def execPairDetach (_m : PairMsg) (s : State) : Host.Outcome State Fault Refusal :=
  done (detachGo s)

/-- PAIR_DETACHED (R557). -/
def execPairDetached (_m : PairMsg) (s : State) : Host.Outcome State Fault Refusal :=
  done (detachedGo s)

/-- PAIR_TIMEOUT (R553). -/
def execPairTimeout (s : State) : Host.Outcome State Fault Refusal :=
  done (pairTimedOut s)

/-- DETACH_TIMEOUT (R557). -/
def execDetachTimeout (s : State) : Host.Outcome State Fault Refusal :=
  done (detachTimedOut s)

/-- FENCE (R558). -/
def execFence (t : FenceToken) (s : State) : Host.Outcome State Fault Refusal :=
  done (fenceMsg s t)

/-- PAGE_IN_COMPLETE (R372). -/
def execPageInComplete (granule : BitVec 25) (s : State) : Host.Outcome State Fault Refusal :=
  doneWhenServed s (pageInDone s granule)

/-- CMSN_ENGINE_RESET (R547). -/
def execCmsnEngineReset (s : State) : Host.Outcome State Fault Refusal :=
  done (if s.mod.busy.contains 0x3A0 then s.discard else (engineReset s).drained)

end Sys2Proof.Machine
end

