-- ==== Sys2Proof/Machine/GfcRows.lean ====
section
/-! DEFINITION. The rows of the global fault collector and of the routes around a failed link group. -/
namespace Sys2Proof.Machine

/-- FAULT_RECORD (R565). -/
def execFaultRecord (s : State) : Host.Outcome State Fault Refusal :=
  done (recordGo s)

/-- FAULT_WINDOW_END (R566). -/
def execFaultWindowEnd (s : State) : Host.Outcome State Fault Refusal :=
  done (windowEnd s)

/-- GFC_RELEASE (R566). -/
def execGfcRelease (s : State) : Host.Outcome State Fault Refusal :=
  done (gfcFree s)

/-- STEWARD_ROUTE_REWRITE (R403). -/
def execStewardRouteRewrite (i : RouterId) (e : Fin 256) (s : State) : Host.Outcome State Fault Refusal :=
  done (routeRewrite s i e)

end Sys2Proof.Machine
end

