-- ==== Sys2Proof/Machine/Bundle.lean ====
section
/-! DEFINITION. Bundles (§6.1, §6.5–§6.9): their decoding from 256 bits (Tables 6.1, 6.5, 6.7, 6.10, 6.12, 6.14, 6.16),
and the loop levels and the next bundle of a sequencer (§6.10). -/
namespace Sys2Proof.Machine

/-! ### Decoding (R255, R256) -/

def b5 (w lo : Nat) : BitVec 5 := BitVec.ofNat 5 (fld w lo 5)
def b4 (w lo : Nat) : BitVec 4 := BitVec.ofNat 4 (fld w lo 4)
def b3 (w lo : Nat) : BitVec 3 := BitVec.ofNat 3 (fld w lo 3)
def b2 (w lo : Nat) : BitVec 2 := BitVec.ofNat 2 (fld w lo 2)

/-- A slot's operation, which is illegal unless the bits that its encoding marks 0 are 0. -/
def slotIf {α : Type} (ok : Bool) (x : α) : Slot α := if ok then .op x else .ill x

/-- The scalar slot (Tables 6.5, 6.6). -/
def decScalar (w : Nat) : Slot SOp :=
  let op := fld w 26 6
  let rd := b5 w 21
  let ra := b5 w 16
  let rb := b5 w 11
  let imm := BitVec.ofNat 16 (fld w 0 16)
  if w = 0 then .nop
  else if 0x01 ≤ op ∧ op ≤ 0x0D then slotIf (fld w 0 11 = 0) (.alu (BitVec.ofNat 6 op) rd ra rb)
  else if 0x10 ≤ op ∧ op ≤ 0x17 then .op (.alui (BitVec.ofNat 6 op) rd ra imm)
  else if op = 0x18 then slotIf (ra = 0) (.alui 0x18 rd 0 imm)
  else if op = 0x19 then slotIf (fld w 18 3 = 0) (.sins rd (b2 w 16) imm)
  else if op = 0x20 then slotIf (ra = 0) (.smovs rd imm)
  else if op = 0x21 then slotIf (fld w 21 2 = 0 ∧ fld w 0 11 = 0) (.setcb (b3 w 23) ra rb)
  else if op = 0x28 then slotIf (fld w 12 7 = 0) (.loop (b2 w 24) (b5 w 19) (BitVec.ofNat 12 (fld w 0 12)))
  else if op = 0x29 then .op (.loopi (b2 w 24) (BitVec.ofNat 12 (fld w 12 12)) (BitVec.ofNat 12 (fld w 0 12)))
  else if op = 0x30 then .op (.br (b3 w 18) rd (BitVec.ofNat 18 (fld w 0 18)))
  else .bad

/-- The vector slot (Table 6.7). -/
def decVector (w : Nat) : Slot (BitVec 8 × VFields) :=
  if w = 0 then .nop
  else .op (BitVec.ofNat 8 (fld w 56 8),
    { fmt := b4 w 52, sat := w.testBit 51, pred := b3 w 48, vd := b5 w 43, va := b5 w 38, vb := b5 w 33,
      vc := b5 w 28, sb := w.testBit 27, mod := b3 w 24, imm := BitVec.ofNat 24 (fld w 0 24) })

/-- The code of an accumulator-class operation (Table 6.14). -/
def dcodeOf (op : Nat) : Option DCode :=
  match op with
  | 0x08 => some .aclr
  | 0x09 => some .asave
  | 0x0A => some .aload
  | 0x0B => some .achainSend
  | 0x0C => some .achainRecv
  | 0x10 => some .fdrain
  | 0x11 => some .vdrain
  | 0x18 => some .sreset
  | 0x19 => some .smax
  | 0x1A => some .sexp
  | 0x1B => some .sscale
  | 0x1C => some .sfin
  | _ => none

/-- The matrix slot (Tables 6.12, 6.14). -/
def decMatrix (w : Nat) : Slot MSlot :=
  let op := fld w 42 6
  let t := w.testBit 41
  let sp := b5 w 36
  if w = 0 then .nop
  else if op = 1 then
    slotIf (fld w 0 13 = 0) (.load { t, sp, pair := b4 w 32, band := b2 w 30, step := w.testBit 29, kpred := b3 w 26,
                                     wcb := b3 w 23, nb := b3 w 20, cols := BitVec.ofNat 7 (fld w 13 7) })
  else if op = 2 then
    slotIf (fld w 0 8 = 0) (.pass { t, sp, pair := b4 w 32, band := b2 w 30, neww := w.testBit 29, add := w.testBit 28,
                                    sat := w.testBit 27, set := b2 w 25, kpred := b3 w 22, cpred := b3 w 19,
                                    nb := b3 w 16, even := w.testBit 15, ev := b4 w 11, acb := b3 w 8 })
  else match dcodeOf op with
    | some c =>
      .op (.drain c { t, sp, set := b2 w 34, sat := w.testBit 33, wen := w.testBit 32, wev := b4 w 28,
                      sen := w.testBit 27, sev := b4 w 23, sg := b5 w 18, low := BitVec.ofNat 18 (fld w 0 18) })
    | none => .bad

/-- The load and store slots (Table 6.10). -/
def decLoad (w : Nat) : Slot (BitVec 5 × LFields) :=
  if w = 0 then .nop
  else .op (b5 w 43, { r := b5 w 38, pred := b3 w 35, cb := b3 w 32, mfmt := b4 w 28, rfmt := b4 w 24,
                       sat := w.testBit 23, off := BitVec.ofNat 11 (fld w 12 11), step := BitVec.ofNat 12 (fld w 0 12) })

/-- The sync slot (Table 6.16). -/
def decSync (w : Nat) : Slot YOp :=
  let low := fld w 0 11
  let q := b4 w 0
  let sr := b5 w 5
  if w = 0 then .nop
  else match fld w 11 5 with
    | 0x01 => slotIf (low < 16) (.evwait q)
    | 0x02 => slotIf (low < 32) (.evsig (w.testBit 4) q)
    | 0x03 => slotIf (low = 0) .barH
    | 0x04 => slotIf (low < 16) (.barP q)
    | 0x05 => slotIf (low < 16) (.barM q)
    | 0x06 => slotIf (fld w 4 1 = 0 ∧ fld w 10 1 = 0) (.hqtake sr q)
    | 0x07 => slotIf (fld w 4 1 = 0 ∧ fld w 10 1 = 0) (.hqpub sr q)
    | 0x08 => slotIf (fld w 4 1 = 0 ∧ fld w 10 1 = 0) (.hqfree sr q)
    | 0x09 => slotIf (low < 4) (.tswap (b2 w 0))
    | 0x0B => slotIf (low < 256) (.trace (BitVec.ofNat 8 low))
    | 0x1E => slotIf (low = 0) .halt
    | 0x1F => slotIf (low = 0) .endK
    | _ => .bad

/-- A bundle from its 256 bits (Table 6.1). -/
def decodeBundle (w : BitVec 256) : Bundle :=
  let n := w.toNat
  { scalar := decScalar (fld n 224 32), vector := decVector (fld n 160 64), matrix := decMatrix (fld n 112 48),
    load := decLoad (fld n 64 48), store := decLoad (fld n 16 48), sync := decSync (fld n 0 16) }

/-! ### Loops and branches (§6.10) -/

/-- What the scalar slot decides for issue: nothing, a taken branch, or the entry of a loop. -/
inductive Ctl where
  | none
  | branch (target : Nat)
  | loop (level : BitVec 2) (len count : Nat)
  deriving DecidableEq, Repr

/-- The innermost active loop with its level. -/
def innermost (ls : List (Option LoopLv)) : Option (Nat × LoopLv) :=
  (List.range 4).foldl (fun (a : Option (Nat × LoopLv)) k => match nth none ls k with
    | none => a
    | some l => match a with
      | none => some (k, l)
      | some (_, m) => if m.depth ≤ l.depth then some (k, l) else a) none

/-- The step from bundle `pc`, loop by loop from the innermost (R288, R291); the answer counts the loops that exit. -/
def loopNext : Nat → List (Option LoopLv) → Nat → Nat → List (Option LoopLv) × Nat × Nat
  | 0, ls, pc, n => (ls, pc + 1, n)
  | k + 1, ls, pc, n => match innermost ls with
    | none => (ls, pc + 1, n)
    | some (lv, l) =>
      if l.last ≠ pc then (ls, pc + 1, n)
      else if l.remain = 0 then loopNext k (setNth ls lv none) pc (n + 1)
      else (setNth ls lv (some { l with index := l.index + 1, remain := l.remain - 1 }), l.first, n)

/-- A taken branch ends every loop whose body excludes the target, and the loops inside it (R293). -/
def branchEnds (ls : List (Option LoopLv)) (t : Nat) : List (Option LoopLv) :=
  let out := (ls.filterMap id).filter fun l => !decide (l.first ≤ t ∧ t ≤ l.last)
  ls.map fun x => match x with
    | some l => if out.any fun o => o.depth ≤ l.depth then none else some l
    | none => none

/-- Whether a LOOP may start (R290). -/
def loopFits (ls : List (Option LoopLv)) (pc klen : Nat) (level : BitVec 2) (len : Nat) : Bool :=
  (nth none ls level.toNat).isNone && len != 0 && decide (pc + len < klen)
    && (ls.filterMap id).all fun l => decide (l.first ≤ pc + 1 ∧ pc + len ≤ l.last)

/-- Whether a hold cycle is due before the next bundle: Keep mode's, or that of Checked mode (R209, R265). -/
def SeqSt.gap (x : SeqSt) : Bool := x.held.isNone && (x.hold == 6 || x.hold == 7)

/-- The sequencer after the bundle at its pc has issued; the answer counts the loop exits and taken branches for the
trace. -/
def SeqSt.advance (x : SeqSt) (c : Ctl) : SeqSt × Nat :=
  let x := { x with cyc := x.cyc + 1, issued := x.issued + 1, held := none, hold := 0, arrived := false, release := false }
  match c with
  | .branch t => ({ x with pc := t, empty := 2, loops := branchEnds x.loops t }, 1)
  | .loop lv len 0 => let _ := lv; ({ x with pc := x.pc + len + 1, empty := 2 }, 0)
  | .loop lv len (n + 1) =>
    let d := match innermost x.loops with
      | some (_, l) => l.depth + 1
      | none => 0
    let l : LoopLv := { first := x.pc + 1, last := x.pc + len, index := 0, remain := n, depth := d }
    ({ x with pc := x.pc + 1, loops := setNth x.loops lv.toNat (some l) }, 0)
  | .none =>
    let (ls, pc, n) := loopNext 4 x.loops x.pc 0
    ({ x with pc, loops := ls }, n)

end Sys2Proof.Machine
end

