-- ==== Sys2Proof/Machine/Scalar.lean ====
section
/-! DEFINITION. The scalar slot (§6.5): what each operation computes in one core.  Loops and branches change the
sequencer and are in Bundle. -/
namespace Sys2Proof.Machine

/-- SMIN, SMAX: signed. -/
def sMin (a b : Word) : Word := if a.slt b then a else b
def sMax (a b : Word) : Word := if a.slt b then b else a

/-- R-form operations by opcode (Table 6.6, R260). -/
def aluR (op : BitVec 6) (a b : Word) : Option Word :=
  let n := b.toNat % 64
  match op.toNat with
  | 0x01 => some (a + b)
  | 0x02 => some (a - b)
  | 0x03 => some (a * b)
  | 0x04 => some (a &&& b)
  | 0x05 => some (a ||| b)
  | 0x06 => some (a ^^^ b)
  | 0x07 => some (a <<< n)
  | 0x08 => some (a >>> n)
  | 0x09 => some (a.sshiftRight n)
  | 0x0A => some (sMin a b)
  | 0x0B => some (sMax a b)
  | 0x0C => some (if a.slt b then 1 else 0)
  | 0x0D => some (if a.ult b then 1 else 0)
  | _ => none

/-- I-form operations by opcode (Table 6.6); a count or bit number above 63 leaves non-zero bits that the
encoding marks 0. -/
def aluI (op : BitVec 6) (a : Word) (imm : BitVec 16) : Option Word :=
  let x := imm.signExtend 64
  let n := imm.toNat
  let small (v : Word) : Option Word := if n < 64 then some v else none
  match op.toNat with
  | 0x10 => some (a + x)
  | 0x11 => small (a <<< n)
  | 0x12 => small (a >>> n)
  | 0x13 => small (a.sshiftRight n)
  | 0x14 => some (sMin a x)
  | 0x15 => some (sMax a x)
  | 0x16 => small (a ||| BitVec.ofNat 64 (2 ^ n))
  | 0x17 => small (a &&& ~~~(BitVec.ofNat 64 (2 ^ n)))
  | 0x18 => some x
  | _ => none

/-- SINS: one halfword replaced. -/
def sIns (old : Word) (hw : BitVec 2) (imm : BitVec 16) : Word := withBits old (16 * hw.toNat) 16 imm.toNat

/-- SMOVS (Table 6.3). -/
def sMovs (e : Env) (sel : BitVec 16) : Option Word :=
  match sel.toNat with
  | 0 => some (BitVec.ofNat 64 e.ci)
  | 1 => some (BitVec.ofNat 64 e.ncore)
  | 2 => some (BitVec.ofNat 64 e.hidx)
  | 3 => some (BitVec.ofNat 64 e.hcnt)
  | 4 => some (BitVec.ofNat 64 (nth 0 e.lc 0))
  | 5 => some (BitVec.ofNat 64 (nth 0 e.lc 1))
  | 6 => some (BitVec.ofNat 64 (nth 0 e.lc 2))
  | 7 => some (BitVec.ofNat 64 (nth 0 e.lc 3))
  | 8 => some (e.tag.setWidth 64)
  | 9 => some e.time
  | _ => none

/-- A BR condition on RA (R292); `none` for the unassigned COND 7. -/
def brCond (cond : BitVec 3) (a : Word) : Option Bool :=
  match cond.toNat with
  | 0 => some true
  | 1 => some (a == 0)
  | 2 => some (a != 0)
  | 3 => some (a.slt 0)
  | 4 => some (!a.slt 0)
  | 5 => some (!a.slt 0 && a != 0)
  | 6 => some (a.slt 0 || a == 0)
  | _ => none

/-- The scalar slot in one core: reads `c0`, acts on `c`. -/
def scalarSlot (e : Env) (op : SOp) (c0 c : CoreSt) : SlotR :=
  let put (rd : BitVec 5) (lat : Nat) (v : Option Word) : SlotR :=
    match v with
    | some v => .ok (c.later e lat (.scalar rd v))
    | none => .error cOpcode
  match op with
  | .alu op rd ra rb => put rd (if op.toNat = 3 then 3 else 1) (aluR op (c0.s ra) (c0.s rb))
  | .alui op rd ra imm => put rd 1 (aluI op (c0.s ra) imm)
  | .sins rd hw imm => put rd 1 (some (sIns (c0.s rd) hw imm))
  | .smovs rd sel => put rd 1 (sMovs e sel)
  | .setcb cb ra rb =>
    .ok (c.later e 1 (.cbuf cb ((c0.s ra).setWidth 25) ((c0.s rb).setWidth 26)))
  | .loop .. | .loopi .. => .ok c
  | .br cond ra _ => match brCond cond (c0.s ra) with
    | some _ => .ok c
    | none => .error cOpcode

end Sys2Proof.Machine
end

