-- ==== Sys2Proof/Machine/Issue.lean ====
section
/-! DEFINITION. The issue of one bundle to the cores of an issuer (chapter 6): when it holds (R258, R265), what makes it
illegal (R256, R295, R297), the hazards of Checked mode (R271), and its effects (R257). -/
namespace Sys2Proof.Machine

/-! ### What a bundle reads, for the monitor of Checked mode -/

/-- A register of Table 6.2. -/
inductive RegName where
  | s (r : BitVec 5)
  | v (r : BitVec 5)
  | p (r : BitVec 3)
  deriving DecidableEq, Repr

/-- The register that a write-back writes. -/
def Target.name (t : Target) : Option RegName :=
  match t with
  | .scalar r _ => if r = 0 then Option.none else some (.s r)
  | .vector r _ _ => some (.v r)
  | .pred r _ _ => if r = 0 then Option.none else some (.p r)
  | _ => Option.none

def scalarReads : SOp → List RegName
  | .alu _ _ ra rb => [.s ra, .s rb]
  | .alui op _ ra _ => if op = 0x18 then [] else [.s ra]
  | .sins rd _ _ => [.s rd]
  | .smovs _ _ => []
  | .setcb _ ra rb => [.s ra, .s rb]
  | .loop _ rc _ => [.s rc]
  | .loopi _ _ _ => []
  | .br cond ra _ => if cond = 0 then [] else [.s ra]

/-- Whether a vector operation uses VB. -/
def usesVb (n : Nat) : Bool :=
  n == 2 || n == 4 || (0x08 ≤ n && n ≤ 0x0A) || (0x0C ≤ n && n ≤ 0x0E) || (0x10 ≤ n && n ≤ 0x19)
    || (0x1C ≤ n && n ≤ 0x23) || n == 0x30 || n == 0x4B || n == 0x4C || n == 0x64

def vectorReads (c : CoreSt) (op : BitVec 8) (f : VFields) : List RegName :=
  let n := op.toNat
  ((vecReads c op f).filterMap fun x => if x.1 = 0 then some (.v x.2) else none)
    ++ (if f.sb && usesVb n then [.s f.vb] else [])
    ++ [.p f.pred]
    ++ (if n = 4 then [.p (f.imm.setWidth 3)] else [])
    ++ (if 0x60 ≤ n ∧ n ≤ 0x63 then [.p (f.va.setWidth 3)] else [])
    ++ (if 0x60 ≤ n ∧ n ≤ 0x62 then [.p (f.vb.setWidth 3)] else [])

/-- The scalar registers, predicates and, for a scaled destination, the encoder word in SG + 1 that a matrix slot reads (Tables 6.12,
6.14). -/
def matrixReads (e : Env) (c0 : CoreSt) : MSlot → List RegName
  | .load f => [.s f.sp, .p f.kpred]
  | .pass f => [.s f.sp, .p f.kpred, .p f.cpred]
  | .drain c f => [.s f.sp] ++ (if c.usesG then [.s f.sg] else []) ++
      match paramWord e c0 f.t f.sp with
      | .ok w => if c.stores && scaledFmt (rngOf w).dfmt then [.s (f.sg + 1)] else []
      | .error _ => []

/-- The core-store range of the parameter word of a T-form matrix operation (R278). -/
def paramRange (e : Env) (c0 : CoreSt) (op : MSlot) : List (Nat × Nat) :=
  let r (t : Bool) (sp : BitVec 5) : List (Nat × Nat) := if t then [((c0.s sp).toNat + 8 * e.inner, 8)] else []
  match op with
  | .load f => r f.t f.sp
  | .pass f => r f.t f.sp
  | .drain _ f => r f.t f.sp

/-- The registers that a slot writes, with their latencies. -/
def scalarWrites : SOp → List (RegName × Nat)
  | .alu op rd _ _ => [(.s rd, if op.toNat = 3 then 3 else 1)]
  | .alui _ rd _ _ | .sins rd _ _ | .smovs rd _ => [(.s rd, 1)]
  | _ => []

/-- Whether a vector opcode is assigned (Table 6.9). -/
def vAssigned (n : Nat) : Bool :=
  decide (0x01 ≤ n ∧ n ≤ 0x04) || decide (0x08 ≤ n ∧ n ≤ 0x0E) || decide (0x10 ≤ n ∧ n ≤ 0x15) || decide (0x18 ≤ n ∧ n ≤ 0x23) || n == 0x28
    || decide (0x30 ≤ n ∧ n ≤ 0x35) || n == 0x38 || decide (0x40 ≤ n ∧ n ≤ 0x4D) || decide (0x50 ≤ n ∧ n ≤ 0x54)
    || decide (0x60 ≤ n ∧ n ≤ 0x64)

def vectorWrites (op : BitVec 8) (f : VFields) : List (RegName × Nat) :=
  let n := op.toNat
  if 0x10 ≤ n ∧ n ≤ 0x15 then [(.p (f.vd.setWidth 3), 3)]
  else if 0x60 ≤ n ∧ n ≤ 0x64 then [(.p (f.vd.setWidth 3), 2)]
  else if n < 0x10 then [(.v f.vd, 2)]
  else if n ≤ 0x1F ∨ n = 0x28 ∨ n = 0x30 then [(.v f.vd, 4)]
  else if n ≤ 0x23 ∨ n = 0x38 then [(.v f.vd, 5)]
  else if n ≤ 0x35 then [(.v f.vd, 9)]
  else if n = 0x4D then [(.v f.vd, 8)]
  else if n ≤ 0x4C then [(.v f.vd, 12)]
  else if n = 0x52 ∨ n = 0x53 then [(.v f.vd, 10)] else []

/-- The descriptor that a fetch operation reads, with the paired one (R303). -/
def loadMem (c0 : CoreSt) (op : BitVec 5) (f : LFields) : List (Nat × Nat) :=
  if 0x10 ≤ op.toNat ∧ op.toNat ≤ 0x12 then
    let a := (c0.s f.r).toNat
    [(a, if (xdescOf (c0.rd a 64)).pair then 128 else 64)]
  else []

def loadWrites (op : BitVec 5) (f : LFields) : List (RegName × Nat) :=
  match op.toNat with
  | 1 => [(.v f.r, 16)]
  | 2 => [(.s f.r, 16)]
  | 3 => [(.p (f.r.setWidth 3), 16)]
  | _ => []

def loadReads (op : BitVec 5) (f : LFields) : List RegName :=
  if op = 1 then [.p f.pred] else if 0x10 ≤ op.toNat ∧ op.toNat ≤ 0x12 then [.s f.r] else []

def storeReads (op : BitVec 5) (f : LFields) : List RegName :=
  match op.toNat with
  | 1 => [.v f.r, .p f.pred]
  | 2 => [.v f.r, .p f.pred, .s (BitVec.ofNat 5 (f.off.toNat / 64))]
  | 3 => [.s f.r]
  | 4 => [.p (f.r.setWidth 3)]
  | _ => []

/-- The core-store ranges that a queued or running matrix-slot operation reads or writes (QMEM). -/
def MatOp.ranges (c : CoreSt) : MatOp → List (Nat × Nat)
  | .load f w kp cb _ _ => (stageTile { c with rdLog := [] } f w kp cb).rdLog
  | .pass f w kp _ cb _ _ => match pairFmts f.pair with
    | some (af, wf) => passReads af wf f w kp cb
    | none => []

/-- Row `r` of a destination, byte by byte through its buffer. -/
def bufRange (b : CBuf) (o n : Nat) : List (Nat × Nat) := (List.range n).map fun j => (b.addr ((o + j : Nat) : Int), 1)

def DrainOp.ranges (c : CoreSt) (o : DrainOp) : List (Nat × Nat) :=
  let p := rngOf o.word
  let rd := (drainRun ({ c with rdLog := [] }.takeBuf o) o false false false).core.rdLog
  let img := 32 * p.cells.length + if o.f.bit17 then 16 * p.rows else 0
  let wr := match o.code with
    | .asave => bufRange o.dcb 0 img
    | .achainSend => if o.f.bit17 then [] else bufRange o.dcb 0 (1152 * p.groups.length)
    | c =>
      if !c.stores || p.vreg then []
      else match Fmt.ofCode p.dfmt, scaledOf p.dfmt with
        | _, some m => (List.range p.rows).flatMap fun r =>
            (bitsOf o.enc 32 25 + 32 * r, 32) :: bufRange o.dcb (r * rowStride m p.cols) (m.bytes p.cols)
        | some m, none => (List.range p.rows).flatMap fun r => bufRange o.dcb (r * rowStride m p.cols) (m.bytes p.cols)
        | none, none => []
  rd ++ wr

/-- Every range of the queued and running matrix-slot operations of a core. -/
def queuedRanges (c : CoreSt) : List (Nat × Nat) :=
  (c.mq ++ c.mrun).flatMap (MatOp.ranges c)
    ++ (c.dq ++ c.fast.toList ++ c.vec.toList).flatMap (DrainOp.ranges c)

/-- What the monitor of Checked mode sees of a slot (R271): the registers that it reads, those that it writes with their latencies,
the core-store ranges that it reads, and its stores. -/
structure Seen where
  reads  : List RegName := []
  writes : List (RegName × Nat) := []
  mem    : List (Nat × Nat) := []
  stores : List PendSt := []
  deriving DecidableEq, Repr

/-- The trap of one slot (R271): `c0` is the core at the start of the issue cycle `cyc`, `beside` the stores of the same bundle, which
a read of the bundle does not see (R268). -/
def hazard (c0 : CoreSt) (cyc : Nat) (beside : List PendSt) (x : Seen) : Option Nat :=
  if c0.pend.any fun w => match w.tgt.name with
      | some r => x.reads.contains r
      | none => false
  then some 0x10
  else if x.writes.any fun w => w.1 != .s 0 && w.1 != .p 0 &&
      c0.pend.any fun o => o.tgt.name == some w.1 && decide (cyc + w.2 ≤ o.due)
  then some 0x11
  else if (c0.pendSt ++ beside).any fun p => p.bytes.any fun y => readsAt x.mem y.1 1
  then some 0x12
  else if !x.stores.isEmpty && (let q := queuedRanges c0; x.stores.any fun p => p.bytes.any fun y => readsAt q y.1 1)
  then some 0x13
  else if c0.vregWait.any fun v => x.reads.contains (.v v.1)
  then some 0x14
  else none

/-! ### One core -/

/-- A core after the slots before the sync slot, or the first slot that is at fault with its cause (R297). -/
structure SlotsR where
  core : CoreSt
  bad  : Option (Nat × Nat) := none
  deriving DecidableEq, Repr

/-- A cause of Table 6.18 over which the others take precedence (R256). -/
def weakCause (k : Nat) : Bool := k == cOpcode || k == cOperand

/-- Run one slot in one core after the slots before it: `trap` is the monitor of Checked mode.  A trap takes precedence over the
causes OPCODE and OPERAND (R256); an operation of an illegal slot runs only to see whether another cause does. -/
def SlotsR.slot (x : SlotsR) (n : Nat) (legal : Bool) (seen : Seen) (trap : Seen → Option Nat) (f : CoreSt → SlotR) : SlotsR :=
  if x.bad.isSome then x
  else match f x.core with
    | .error e => { x with bad := some (n, if weakCause e then (trap seen).getD (if legal then e else cOpcode) else e) }
    | .ok c =>
      let got : Seen := { seen with mem := seen.mem ++ c.rdLog.drop x.core.rdLog.length,
                                    stores := c.pendSt.drop x.core.pendSt.length }
      match trap got with
      | some e => { x with bad := some (n, e) }
      | none => if legal then { x with core := c } else { x with bad := some (n, cOpcode) }

/-- Fault a slot. -/
def SlotsR.fail (x : SlotsR) (n cause : Nat) : SlotsR := if x.bad.isSome then x else { x with bad := some (n, cause) }

/-- Run the operation of a slot, if it holds one. -/
def SlotsR.go {α : Type} (x : SlotsR) (n : Nat) (slot : Slot α) (seen : α → Seen) (trap : Seen → Option Nat) (f : α → CoreSt → SlotR) :
    SlotsR :=
  match slot with
  | .nop => x
  | .bad => x.fail n cOpcode
  | .op o => x.slot n true (seen o) trap (f o)
  | .ill o => x.slot n false (seen o) trap (f o)

/-- The operation that a slot names, its reserved bits aside. -/
def Slot.named {α : Type} : Slot α → Option α
  | .op o | .ill o => some o
  | _ => none

/-- VTAP beside a load-slot read (§6.6); FDROP reads nothing, nor does an opcode that is not assigned. -/
def comboTap (b : Bundle) : Bool :=
  (match b.vector.named with
    | some (op, _) => op == 0x38
    | none => false) && match b.load.named with
    | some (op, _) => decide (1 ≤ op.toNat ∧ op.toNat ≤ 6) || decide (0x10 ≤ op.toNat ∧ op.toNat ≤ 0x12)
    | none => false

/-- Whether the slots beside the sync slot are empty. -/
def Bundle.bare (b : Bundle) : Bool :=
  b.scalar == .nop && b.vector == .nop && b.matrix == .nop && b.load == .nop && b.store == .nop

/-- The stores that the store slot of a bundle makes in one core, when it is legal. -/
def storesOf (e : Env) (b : Bundle) (c0 : CoreSt) : List PendSt :=
  match b.store with
  | .op (o, f) => match storeSlot e o f c0 c0 with
    | .ok c => c.pendSt.drop c0.pendSt.length
    | .error _ => []
  | _ => []

/-- The slots of a bundle in one core; `scalarBad` is a cause that the scalar slot has for the whole hatch (R263, R290,
R292). -/
def slotsRun (e : Env) (chk : Bool) (b : Bundle) (scalarBad : Option Nat) (c0 : CoreSt) : SlotsR :=
  let beside := if chk then storesOf e b c0 else []
  let trap (x : Seen) : Option Nat := if chk then hazard c0 e.cyc beside x else none
  let x : SlotsR := { core := c0 }
  let x := x.go 0 b.scalar (fun o => { reads := scalarReads o, writes := scalarWrites o }) trap fun o c =>
    match scalarBad with
    | some k => .error k
    | none => scalarSlot e o c0 c
  let x := if comboTap b then x.fail 1 cCombo
    else x.go 1 b.vector (fun o => if vAssigned o.1.toNat then { reads := vectorReads c0 o.1 o.2, writes := vectorWrites o.1 o.2 } else {})
      trap fun o c => vectorSlot e o.1 o.2 c0 c
  let x := x.go 2 b.matrix (fun o => { reads := matrixReads e c0 o, mem := paramRange e c0 o }) trap fun o c => matrixSlot e o c0 c
  let x := x.go 3 b.load (fun o => { reads := loadReads o.1 o.2, writes := loadWrites o.1 o.2, mem := loadMem c0 o.1 o.2 })
    trap fun o c => loadSlot e o.1 o.2 c0 c
  x.go 4 b.store (fun o => { reads := storeReads o.1 o.2 }) (fun x => if chk then hazard c0 e.cyc [] x else none) fun o c =>
    storeSlot e o.1 o.2 c0 c

/-! ### The issuer -/

/-- The launch of an issuer that may issue: a hatch whose kernel runs, or a stand-alone program (R219, R295, R570). -/
def State.canIssue (s : State) : Issuer → Bool
  | .hatch h => (s.hatch h).run.isSome && (s.hatch h).ended.isNone && !(s.hatch h).pre && !s.mod.inReset
      && !(s.plate h.p).stopped && s.awake h.p (.hatch h.h)
  | .alone i => s.standAlone i && s.saStatus i == 1 && s.clocked i

/-- The number of bundles of what an issuer runs; the loop cache holds 128 (Table 5.16). -/
def State.klen (s : State) : Issuer → Nat
  | .hatch h => match (s.hatch h).run with
    | some l => l.klen.toNat
    | none => 0
  | .alone _ => 128

/-- Whether the hazard mode is Checked; stand-alone mode is Run (R219). -/
def State.checkedOn (s : State) : Issuer → Bool
  | .hatch h => match (s.hatch h).run with
    | some l => l.modes.checked
    | none => false
  | .alone _ => false

/-- The iteration indices of the loop levels (Table 6.3). -/
def loopIdx (ls : List (Option LoopLv)) : List Nat := ls.map fun x => match x with
  | some l => l.index
  | none => 0

/-- The environment of one core (Table 6.3).  In stand-alone mode the manual gives only CI: the other selectors of the
launch are free values (assumption 2). -/
def envOf (s : State) (q : Issuer) (i : CoreId) : Env :=
  let x := s.seq q
  let base : Env :=
    { keep := s.keepOn i, kx4 := s.kx4On i, alone := false, ci := s.lidx i, ncore := (s.coresOf q).length, hidx := 0,
      hcnt := 0, tag := 0, time := s.mod.time, lc := loopIdx x.loops, inner := innerIndex x.loops, bundle := x.pc,
      cyc := x.cyc }
  match q with
  | .hatch h => match (s.hatch h).run with
    | some l => { base with ncore := l.ncore.toNat + 1, hidx := l.hidx.toNat, hcnt := l.hcnt.toNat, tag := l.tag }
    | none => base
  | .alone _ =>
    let free (k : Nat) : Nat := (Config.freeWord (s.freeCtr + k)).toNat
    { base with alone := true, ci := i.pos, ncore := free 0, hidx := free 1, hcnt := free 2,
                tag := BitVec.ofNat 32 (free 3), saBase := s.rf (coreAt i 0xA48) 32 32,
                saSize := s.rf (coreAt i 0xA48) 0 32, pstore := s.plate i.p }

/-- What the scalar slot decides for the whole hatch, with its cause when it is illegal (R263, R290, R292); a loop count
that differs between cores is free (assumption 2). -/
def ctlOf (s : State) (q : Issuer) (b : Bundle) : Except Nat Ctl :=
  let x := s.seq q
  let cs := s.coresOf q
  let klen := s.klen q
  match b.scalar.named with
  | some (.br cond ra off) =>
    (match cs.map fun i => brCond cond ((s.core i).s ra) with
    | [] => .ok .none
    | t :: ts => match t with
      | none => .ok .none
      | some taken =>
        if ts.any fun u => u != t then .error cDiverge
        else if !taken then .ok .none
        else
          let d : Int := x.pc + off.toInt
          if 0 ≤ d ∧ d < klen then .ok (.branch d.toNat) else .error cBrTarget)
  | some (.loop lv rc len) =>
    if !loopFits x.loops x.pc klen lv len.toNat then .error cLoopNest
    else (match cs.map fun i => (s.core i).s rc with
    | [] => .ok .none
    | w :: ws =>
      if ws.all fun v => v.toNat % 2 ^ 32 == w.toNat % 2 ^ 32 then .ok (.loop lv len.toNat (w.toNat % 2 ^ 32))
      else .ok (.loop lv len.toNat ((Config.freeWord s.freeCtr).toNat % 2 ^ 32)))
  | some (.loopi lv n len) =>
    if loopFits x.loops x.pc klen lv len.toNat then .ok (.loop lv len.toNat n.toNat) else .error cLoopNest
  | _ => .ok .none

/-! ### Waits of the sync slot (R258) -/

/-- What the sync slot answers before the other slots issue: go on, hold with a HOLD code (Table 6.19), or a cause. -/
inductive Wait where
  | go
  | hold (code : BitVec 4)
  | bad (cause : Nat)
  deriving DecidableEq, Repr

/-- Whether the stores, drain writes and fetch-engine writes of a core are complete (Table 6.16, BAR.H). -/
def writesDone (c : CoreSt) : Bool :=
  c.dq.isEmpty && c.fast.isNone && c.vec.isNone && c.tq.isEmpty && c.outst.isEmpty && c.ringIn.isEmpty

/-- Whether a core has nothing left, for END. -/
def allDone (c : CoreSt) : Bool := writesDone c && c.mq.isEmpty && c.mrun.isEmpty && c.tloads.isEmpty

/-- The queue and role behind a binding of a hatch (R330): `true` for the producer. -/
def State.boundQueue (s : State) (h : HatchId) (k : BitVec 4) : Option (Fin 8 × Nat × Bool) :=
  match (s.hatch h).run with
  | none => none
  | some l =>
    match s.hqFind h.p (nth 0 l.binds k.toNat).toNat (hatchEp h) with
    | none => none
    | some (p, n) => (s.hqRole p n (hatchEp h)).map fun r => (p, n, r)

/-- The value of a scalar register, if it is the same in every active core (R264). -/
def State.common (s : State) (h : HatchId) (r : BitVec 5) : Option Word :=
  match (s.activeCores h).map fun i => (s.core i).s r with
  | [] => none
  | w :: ws => if ws.all (· == w) then some w else none

/-- Whether a handle-queue operation of a hatch finds no route to its queue and back; it is lost, and waits (R405, R412). -/
def State.hqCut (s : State) (h : HatchId) (y : Slot YOp) : Bool :=
  match y with
  | .op (.hqtake _ k) | .op (.hqpub _ k) | .op (.hqfree _ k) => match s.boundQueue h k with
    | some (p, _, _) => !(s.reaches (hatchEpAddr h) (hqBlockEp p)).1
    | none => false
  | _ => false

/-- What an operation that is lost leaves at the routers on its way. -/
def State.hqLost (s : State) (h : HatchId) (y : Slot YOp) : State :=
  match y with
  | .op (.hqtake _ k) | .op (.hqpub _ k) | .op (.hqfree _ k) => match s.boundQueue h k with
    | some (p, _, _) => (s.reaches (hatchEpAddr h) (hqBlockEp p)).2
    | none => s
  | _ => s

/-- The wait of a hatch's sync slot. -/
def waitHatch (s : State) (h : HatchId) (b : Bundle) (y : YOp) : Wait :=
  let cs := s.activeCores h
  let quiet := cs.all fun i => writesDone (s.core i)
  let x := (s.hatch h).seq
  match y with
  | .evwait e => if cs.all fun i => (s.core i).ev e != 0 then .go else .hold 1
  | .evsig .. | .tswap _ | .trace _ => .go
  | .barH => if quiet then .go else .hold 3
  | .barP _ => if x.release then .go else .hold 3
  | .barM _ => match (s.hatch h).run with
    | some l => if l.mcount = 0 then .bad cOperand else if x.release then .go else .hold 3
    | none => .hold 3
  | .hqtake _ k => match s.boundQueue h k with
    | none => .bad cOperand
    | some (p, n, prod) => 
      if s.hqCut h b.sync || (if prod then (s.hq p n).free else (s.hq p n).pub).isEmpty then .hold 2 else .go
  | .hqpub r k => match s.common h r, s.boundQueue h k with
    | none, _ => .bad cDiverge
    | _, none => .bad cOperand
    | some w, some (p, n, prod) =>
      if !prod || ((s.hq p n).holds (hatchEp h) w).isNone then .bad cOperand
      else if !quiet then .hold 3
      else if s.hqCut h b.sync || decide (64 ≤ (s.hq p n).pub.length) then .hold 2 else .go
  | .hqfree r k => match s.common h r, s.boundQueue h k with
    | none, _ => .bad cDiverge
    | _, none => .bad cOperand
    | some w, some (p, n, _) => if ((s.hq p n).holds (hatchEp h) w).isNone then .bad cOperand else if s.hqCut h b.sync then .hold 2 else .go
  | .halt => .bad cMode
  | .endK => if !b.bare then .bad cCombo else if cs.all fun i => allDone (s.core i) then .go else .hold 9

/-- The wait of a stand-alone program (R221); END ends the program as HALT does. -/
def waitAlone (s : State) (i : CoreId) (b : Bundle) (y : YOp) : Wait :=
  match y with
  | .evwait e => if (s.core i).ev e != 0 then .go else .hold 1
  | .evsig dest _ => if dest then .bad cMode else .go
  | .tswap _ | .trace _ | .halt => .go
  | .barH | .barP _ | .barM _ | .hqtake .. | .hqpub .. | .hqfree .. => .bad cMode
  | .endK => if !b.bare then .bad cCombo else if allDone (s.core i) then .go else .hold 9

/-- The wait of a sync-slot operation. -/
def waitOp (s : State) (q : Issuer) (b : Bundle) (y : YOp) : Wait :=
  match q with
  | .hatch h => waitHatch s h b y
  | .alone i => waitAlone s i b y

/-- The wait of a bundle; a sync slot whose reserved bits are set is illegal at once, with cause OPCODE unless MODE, COMBO or DIVERGE
takes precedence (R256). -/
def waitOf (s : State) (q : Issuer) (b : Bundle) : Wait :=
  match b.sync with
  | .nop => .go
  | .bad => .bad cOpcode
  | .op y => waitOp s q b y
  | .ill y => match waitOp s q b y with
    | .bad k => .bad (if weakCause k then cOpcode else k)
    | _ => .bad cOpcode

/-- Do a table swap that holds the next bundle, when it can be done. -/
def State.trySwap (s : State) (q : Issuer) : State :=
  match (s.seq q).swap with
  | none => s
  | some t =>
    if (s.coresOf q).all fun i => swapReady (s.core i) t then
      let s := (s.coresOf q).foldl (fun s i => s.modCore i fun c => c.swapTable t) s
      s.setSeq q { s.seq q with swap := none, hold := if (s.seq q).gap then (s.seq q).hold else 0 }
    else s.setSeq q { s.seq q with hold := if (s.seq q).gap then (s.seq q).hold else 8 }

/-! ### Effects -/

/-- A barrier's arrival leaves once the hatch barrier is complete (R413). -/
def State.sendArrival (s : State) (h : HatchId) (y : YOp) : State :=
  let x := (s.hatch h).seq
  match y, (s.hatch h).run with
  | .barP g, some l =>
    if !x.arrived && (s.activeCores h).all fun i => writesDone (s.core i) then
      (s.setSeq (.hatch h) { x with arrived := true }).inject (hatchEpAddr h) (agentEp h.p) (.barr false g l.pcount l.key h)
    else s
  | .barM g, some l =>
    if !x.arrived && l.mcount != 0 && (s.activeCores h).all fun i => writesDone (s.core i) then
      (s.setSeq (.hatch h) { x with arrived := true }).inject (hatchEpAddr h) moduleBarEp (.barr true g l.mcount l.key h)
    else s
  | _, _ => s

/-- An event consumed by EVWAIT (R283). -/
def CoreSt.takeEvent (c : CoreSt) (e : BitVec 4) : CoreSt := c.setEv e (c.ev e - 1)

/-- A handle-queue operation that goes through: the queue, and the handle that a take gives. -/
def State.hqGo (s : State) (h : HatchId) (y : YOp) : State :=
  let ep := hatchEp h
  let tag := s.tagQ (.hatch h)
  match y with
  | .hqtake sd k => match s.boundQueue h k with
    | none => s
    | some (p, n, prod) =>
      let x := s.hq p n
      let l := if prod then x.free else x.pub
      match l with
      | [] => s
      | w :: r =>
        let x := { x.unwait ep with held := x.held ++ [(ep, w)], tag }
        let s := s.setHq p n (if prod then { x with free := r } else { x with pub := r })
        let due := (s.seq (.hatch h)).cyc + 4
        (s.activeCores h).foldl (fun s i => s.modCore i fun c => { c with pend := c.pend ++ [{ due, tgt := .scalar sd w }] }) s
  | .hqpub r k => match s.common h r, s.boundQueue h k with
    | some w, some (p, n, _) => match (s.hq p n).holds ep w with
      | some w =>
        let x := s.hq p n
        s.setHq p n { x.unwait ep with pub := x.pub ++ [w], held := x.held.erase (ep, w) }
      | none => s
    | _, _ => s
  | .hqfree r k => match s.common h r, s.boundQueue h k with
    | some w, some (p, n, _) => match (s.hq p n).holds ep w with
      | some w =>
        let x := s.hq p n
        s.setHq p n { x with free := x.free ++ [genUp w], held := x.held.erase (ep, w) }
      | none => s
    | _, _ => s
  | _ => s

/-- What the sync slot does as the bundle issues. -/
def State.syncGo (s : State) (q : Issuer) (bundle : Nat) (y : YOp) : State :=
  match y, q with
  | .evwait e, _ => (s.coresOf q).foldl (fun s i => s.modCore i fun c => c.takeEvent e) s
  | .evsig dest e, _ => (s.coresOf q).foldl (fun s i =>
      s.modCore (if dest then s.ringNext i else i) fun c => { c with evs := c.evs ++ [(e, BitVec.ofNat 16 bundle)] }) s
  | .hqtake .., .hatch h | .hqpub .., .hatch h | .hqfree .., .hatch h => s.hqGo h y
  | .trace code, .hatch h => s.traceRec h 6 code.toNat (s.tagQ q) bundle
  | _, _ => s

/-- A hatch or queue that waits is recorded where its timeout looks (R337). -/
def State.markWait (s : State) (q : Issuer) (b : Bundle) (code : BitVec 4) : State :=
  match q, b.sync with
  | .hatch h, .op (.hqtake _ k) | .hatch h, .op (.hqpub _ k) =>
    if code = 2 then match s.boundQueue h k with
      | some (p, n, _) => s.setHq p n ((s.hq p n).waits (hatchEp h) ((s.hatch h).run.bind fun l => l.key))
      | none => s
    else s
  | _, _ => s

/-- Hold a bundle. -/
def State.holdBundle (s : State) (q : Issuer) (b : Bundle) (code : BitVec 4) : State :=
  let s := match q with
    | .hatch h => if code = 2 ∧ (s.seq q).held.isNone ∧ s.hqCut h b.sync then s.hqLost h b.sync else s
    | .alone _ => s
  (s.setSeq q { s.seq q with held := some b, hold := code }).markWait q b code

/-- The vector registers and tables that the vector slot of a bundle reads (R253). -/
def vectorSlotReads (c : CoreSt) (b : Bundle) : List (BitVec 2 × BitVec 5) :=
  match b.vector with
  | .op (op, f) => vecReads c op f
  | _ => []

/-- The vector register that the store slot of a bundle reads (VST, VST.E). -/
def storeSlotReads (b : Bundle) : List (BitVec 2 × BitVec 5) :=
  match b.store with
  | .op (op, f) => if op = 1 ∨ op = 2 then [(0, f.r)] else []
  | _ => []

/-- The codes of the plate-store words that a stand-alone program has read are checked: corrected words are written back, uncorrectable
ones are reported (R351). -/
def State.checkPlate (s : State) (i : CoreId) : State :=
  let hit (m : Nat × Mark) : Bool := readsAt (s.core i).rdLog (plateBus + 8 * m.1) 8
  ((s.plate i.p).psMarks.filter hit).foldl (fun s m =>
    if m.2.dead then (s.flag (plateAt i.p 0x2048) 1).report
      (memRec s { cause := cPstoreUe, suspect := pstoreUnit i.p } 10 i.c.val i.p.val (pstoreUnit i.p) false false 0 0)
    else (s.modPlate i.p fun x => { x with psMarks := sdel x.psMarks m.1 }).flag (plateAt i.p 0x2048) 0) s

/-- What the operations of an issued bundle have read and raised in one core (R220, R231, R253, R323, R351); the answer asks
for an abort. -/
def afterCore (q : Issuer) (b : Bundle) (bundle : Nat) (i : CoreId) (r : State × Option (Option Nat)) :
    State × Option (Option Nat) :=
  let s := r.1
  let al := (s.core i).alarms
  let s := if al.isEmpty then s else s.modCore i fun c => { c with alarms := [] }
  let s := al.foldl (fun s a => match a with
    | .heldDrop n => s.satRf (coreAt i 0xB20) 0 32 n
    | .saAccess => (s.flag (coreAt i 0xA08) 2).saHalt i 4
    | .tableBusy t k =>
      let tag := s.tagQ q
      let log := BitVec.ofNat 64 (tag.toNat * 2 ^ 32 + bundle % 2 ^ 16 * 2 ^ 16 + 4 * t.toNat + (if k then 2 else 0) + 1)
      ((s.flag (coreAt i 0xA08) 0).setReg (coreAt i 0xA28) log).reportFlag 0 (coreUnit i) 0x04 0 tag bundle 3
        (log.toNat % 2 ^ 32)) s
  let (s, par) := s.checkParity i (vectorSlotReads (s.core i) b) bundle 1
  let (s, par2) := s.checkParity i (storeSlotReads b) bundle 4
  let s := match q with
    | .alone _ => s.checkPlate i
    | .hatch _ => s
  let (s, ab) := s.checkReads i bundle
  (s, match r.2, ab with
    | some g, _ => some g
    | none, some g => some g
    | none, none => if par || par2 then some none else none)

/-- Whether some core refused a TLOAD into its active bank. -/
def busyTables (s : State) (cs : List CoreId) : Bool :=
  cs.any fun i => (s.core i).alarms.any fun a => match a with
    | .tableBusy .. => true
    | .saAccess | .heldDrop _ => false

/-- The first fault in slot order (R297).  Of several cores' faults in one slot one whose cause takes precedence counts (R256), else that
of the lowest logical core (assumption 134). -/
def firstBad (l : List (Option (Nat × Nat))) : Option (Nat × Nat) :=
  (l.filterMap id).foldl (fun (a : Option (Nat × Nat)) x => match a with
    | none => some x
    | some y => if x.1 < y.1 || (x.1 == y.1 && weakCause y.2 && !weakCause x.2) then some x else a) none

/-- The slots of a bundle in every core of its issuer; an EVWAIT of the bundle counts as consumed, so the register of a VREG drain
that it waited for may be read (R271). -/
def slotsAll (s : State) (q : Issuer) (b : Bundle) (scalarBad : Option Nat) : List (CoreId × SlotsR) :=
  (s.coresOf q).map fun i =>
    (i, slotsRun (envOf s q i) (s.checkedOn q) b scalarBad (match b.sync with
      | .op (.evwait e) => { s.core i with vregWait := (s.core i).vregWait.eraseP fun x => x.2 == some e }
      | _ => s.core i))

/-- The trap of the sync slot in Checked mode (R271). -/
def syncTrap (s : State) (q : Issuer) (b : Bundle) : Option Nat :=
  let cs := s.coresOf q
  if !s.checkedOn q then none
  else match b.sync.named with
  | some (.hqpub r _) | some (.hqfree r _) =>
    if cs.any fun i => (s.core i).pend.any fun w => w.tgt.name == some (RegName.s r) && r != 0 then some 0x10 else none
  | some (.hqtake sd _) =>
    if cs.any fun i => (s.core i).pend.any fun w =>
      w.tgt.name == some (RegName.s sd) && decide ((s.seq q).cyc + 4 ≤ w.due)
    then some 0x11 else none
  | _ => none

/-- The cause that the sync slot has: its own, or a trap, which takes precedence over OPCODE and OPERAND (R256). -/
def syncCause (s : State) (q : Issuer) (b : Bundle) (own : Option Nat) : Option Nat :=
  match own with
  | some k => if weakCause k then some ((syncTrap s q b).getD k) else some k
  | none => syncTrap s q b

/-- The hold cycle that is due after a bundle has issued: 6 after a float operation in Keep mode (R209), 7 after each 32nd bundle of
Checked mode (§6.4.1, Table 6.19). -/
def holdAfter (s : State) (q : Issuer) (b : Bundle) (issued : Nat) : BitVec 4 :=
  if ((s.coresOf q).any fun i => s.keepOn i) && (match b.vector with
      | .op (op, f) => vUsesFloat op f
      | _ => false)
  then 6 else if s.checkedOn q && issued % 32 == 0 then 7 else 0

/-- Whether issuing a bundle takes free values: the selectors of stand-alone mode, a LOOP count. -/
def takesFree (q : Issuer) (b : Bundle) : Bool :=
  (match q with
    | .alone _ => true
    | .hatch _ => false) || match b.scalar with
    | .op (.loop ..) => true
    | _ => false

/-- Loop exits and taken branches are traced (R298). -/
def State.traceExits (s : State) (q : Issuer) (pc n : Nat) : State :=
  match q with
  | .hatch h => (List.range n).foldl (fun (s : State) _ => s.traceRec h 3 0 (s.tagQ q) pc) s
  | .alone _ => s

/-- The sequencer of `x` goes on as the scalar slot decides. -/
def State.seqGo (s : State) (q : Issuer) (b : Bundle) (x : SeqSt) (c : Ctl) : State :=
  let y := (x.advance c).1
  let s := s.setSeq q { y with hold := holdAfter s q b y.issued, swap := match b.sync with
    | .op (.tswap t) => some t
    | _ => none }
  let s := if takesFree q b then { s with freeCtr := s.freeCtr + 4 } else s
  s.traceExits q x.pc (x.advance c).2

/-- How an issued bundle ends: HALT and END, TABLE_BUSY, and the abort that a check asked for. -/
def State.issueEnd (s : State) (q : Issuer) (b : Bundle) (busy : Bool) (ab : Option (Option Nat)) : State :=
  match q with
  | .alone i => match b.sync with
    | .op .halt | .op .endK => s.saHalt i 2
    | _ => s
  | .hatch h =>
    let s := if busy then s.endHatch h 0x21 else s
    match ab with
    | some g => s.abortHatch h g
    | none => match b.sync with
      | .op .endK => s.endOne h 0
      | _ => s

/-- What a bundle that issues does (R257): `rs` are its cores after their slots. -/
def State.issueGo (s : State) (q : Issuer) (b : Bundle) (c : Ctl) (rs : List (CoreId × SlotsR)) : State :=
  let x := s.seq q
  let cs := s.coresOf q
  let s := rs.foldl (fun (s : State) r => s.setCore r.1 r.2.core) s
  let s := match b.sync with
    | .op y => s.syncGo q x.pc y
    | _ => s
  let s := s.seqGo q b x c
  let busy := busyTables s cs
  let r := cs.foldl (fun r i => afterCore q b x.pc i r) (s, none)
  (r.1.trySwap q).issueEnd q b busy r.2

/-- What the matrix and load slots read of core store before they check it: a parameter word (R278), a descriptor (R303). -/
def opReads (e : Env) (b : Bundle) (c : CoreSt) : List (Nat × Nat) :=
  (match b.matrix.named with
    | some o => paramRange e c o
    | none => []) ++ match b.load.named with
    | some (op, f) => loadMem c op f
    | none => []

/-- The words and lines that a slot with cause OPERAND has read: zeros of a poisoned line or an uncorrectable word are reported, and
ask for an abort in place of the illegal operation (R323, R351). -/
def State.badReads (s : State) (q : Issuer) (b : Bundle) (bundle : Nat) : State × Option (Option Nat) :=
  (s.coresOf q).foldl (fun r i =>
    let c := r.1.core i
    if c.csMarks.isEmpty && c.held.isEmpty then r
    else
      let (s, ab) := (r.1.setCore i { c with rdLog := opReads (envOf r.1 q i) b c }).checkReads i bundle
      (s, r.2.orElse fun _ => ab)) (s, none)

/-- A bundle that is illegal does not issue (R295). -/
def State.issueBad (s : State) (q : Issuer) (b : Bundle) (slot cause : Nat) : State :=
  let s := s.setSeq q { s.seq q with held := none, hold := 0 }
  let pc := (s.seq q).pc
  let (s, ab) := if cause = cOperand ∧ (slot = 2 ∨ slot = 3) then s.badReads q b pc else (s, none)
  match q, ab with
  | .hatch h, some g => s.abortHatch h g
  | _, _ => s.illegal q pc slot cause (decide (0x10 ≤ cause))

/-- A bundle whose waits are met issues, or is illegal (R257, R295). -/
def State.issueNow (s : State) (q : Issuer) (b : Bundle) (own : Option Nat) : State :=
  let ctl := ctlOf s q b
  let rs := slotsAll s q b (match ctl with
    | .error k => some k
    | .ok _ => none)
  match firstBad (rs.map (fun r => r.2.bad) ++ [(syncCause s q b own).map fun k => (5, k)]) with
  | some (slot, cause) => s.issueBad q b slot cause
  | none => s.issueGo q b (match ctl with
    | .ok c => c
    | .error _ => .none) rs

/-- Results and stores due by the issue cycle of the next bundle (R266, R268). -/
def State.applyCycle (s : State) (q : Issuer) : State :=
  (s.coresOf q).foldl (fun s i => s.applyDue i (s.seq q).cyc) s

/-- Whether a queue of an active core is full (R135, R304, R663). -/
def queuesFull (c : CoreSt) : Bool := decide (16 ≤ c.mq.length) || decide (8 ≤ c.dq.length) || decide (8 ≤ c.tq.length)

/-- The stores of a core on their way complete, and raise their flags (R113). -/
def State.landCore (s : State) (i : CoreId) : State :=
  let c := s.core i
  let s := s.setCore i { c with pendSt := [], pend := c.pend.filter fun w => w.tgt != .none }
  (c.pend.filter fun w => w.tgt == .none).foldl (fun s w => s.writeBack i w) (c.pendSt.foldl (fun s x => s.storeBack i x) s)

/-- The stores on their way complete before a barrier or END goes on. -/
def State.landStores (s : State) (q : Issuer) (b : Bundle) : State :=
  match b.sync with
  | .op .barH | .op (.barP _) | .op (.barM _) | .op (.hqpub ..) =>
    (s.coresOf q).foldl (fun s i => s.landCore i) s
  | _ => s

/-- Issue holds because a queue is full.  That QUEUE_HOLD counts one for each issue that is so refused, in the place of its hold
cycles, is the model's choice (assumption 24). -/
def State.queueHold (s : State) (q : Issuer) : State :=
  let s := (s.coresOf q).foldl (fun s i => if 16 ≤ (s.core i).mq.length then s.satRf (coreAt i 0x8B0) 0 32 1 else s) s
  s.setSeq q { s.seq q with hold := 4 }

/-- Whether a queue of an active core of the issuer is full. -/
def State.anyFull (s : State) (q : Issuer) : Bool := (s.coresOf q).any fun i => queuesFull (s.core i)

/-- Try to issue a bundle at the sequencer's pc: it issues, holds, or is illegal. -/
def State.tryIssue (s : State) (q : Issuer) (b : Bundle) : State :=
  let s := s.applyCycle q
  let s := s.trySwap q
  if (s.seq q).swap.isSome then s
  else if s.anyFull q then s.queueHold q
  else
    match waitOf s q b with
    | .bad k => s.issueNow q b (some k)
    | .hold code =>
      let s := s.holdBundle q b code
      (match q, b.sync with
      | .hatch h, .op y => s.sendArrival h y
      | _, _ => s)
    | .go => (s.landStores q b).issueNow q b none

/-- A bundle that holds one operation, offered as the next bundle: it takes the place of the bundle at the pc when the
issuer can issue, no bundle is held, and no empty bundle and no hold cycle is due. -/
def State.issueOne (s : State) (q : Issuer) (b : Bundle) : State :=
  let x := s.seq q
  if s.canIssue q && x.held.isNone && x.empty == 0 && !x.gap then
    if s.klen q ≤ x.pc then s.illegal q (s.klen q - 1) 5 cPastEnd else s.tryIssue q b
  else s

/-! ### Fetching bundles (R255, R258) -/

/-- The bundle of the loop cache of a stand-alone core (Table 5.16). -/
def loopBundle (s : State) (i : CoreId) (pc : Nat) : BitVec 256 :=
  BitVec.ofNat 256 (leNat ((List.range 4).flatMap fun k => leBytes 8 (s.reg (coreAt i (0x1000 + 32 * pc + 8 * k))).toNat))

/-- The entry of the bundle cache that bundle `b` takes, and the bundle that stands there. -/
def bundleAt (s : State) (h : HatchId) (b : Nat) : Option (BitVec 256) :=
  ((s.hatch h).cache.find? fun x => x.1 == b).map (·.2)

/-- A parity error in the bundle cache: every active core's flag is set, with a record that names the core (R258, Table 13.14). -/
def State.bcParity (s : State) (h : HatchId) : State :=
  let tag := s.tagQ (.hatch h)
  let s := (s.activeCores h).foldl (fun (s : State) i =>
    (s.flag (coreAt i 0x300) 3).reportFlag (coreUnit i) (hatchUnit h) 0x01 3 tag (s.hatch h).seq.pc 0 0)
    (s.modHatch h fun x => { x with bcpar := false, cache := [] })
  s.abortHatch h

/-- BUNDLE_ISSUE: one bundle issues, or the issuer holds (R25, R265). -/
def State.bundleStep (s : State) (q : Issuer) : State :=
  if !s.canIssue q then s
  else
    let x := s.seq q
    if x.gap then s.setSeq q { x with hold := if x.hold = 6 && s.checkedOn q && x.issued % 32 == 0 then 7 else 0 }
    else if 0 < x.empty && s.anyFull q then s.queueHold q
    else if 0 < x.empty then
      (s.setSeq q { x with empty := x.empty - 1, cyc := x.cyc + 1, hold := 0 }).applyCycle q
    else match x.held with
    | some b => s.tryIssue q b
    | none =>
      if s.klen q ≤ x.pc then s.illegal q (s.klen q - 1) 5 cPastEnd
      else match q with
        | .alone i => s.tryIssue q (decodeBundle (loopBundle s i x.pc))
        | .hatch h =>
          if (s.hatch h).bcpar then s.bcParity h
          else match bundleAt s h x.pc with
            | some w => s.tryIssue q (decodeBundle w)
            | none => s.setSeq q { x with hold := 5 }

/-- BUNDLE_CACHE_FILL: the bundle at the pc arrives; the cache is direct-mapped and holds 2,048 (R258).  A memory fault of the
read aborts the commission. -/
def State.cacheFill (s : State) (h : HatchId) : State :=
  let x := (s.hatch h).seq
  match (s.hatch h).run with
  | none => s
  | some l =>
    if x.hold ≠ 5 then s
    else
      let a := l.kaddr.toNat + 32 * x.pc
      let (bs, f, s) := devRead s h.p none (s.hatchOwner h) a 32 (hatchEpAddr h)
      match f with
      | some f =>
        (s.report (memRec s f 13 h.h.val h.p.val (hatchUnit h) false false l.tag x.pc)).abortHatch h (some (a / 16384))
      | none =>
        let w := BitVec.ofNat 256 (leNat bs)
        s.modHatch h fun y => { y with cache := sput (y.cache.filter fun e => e.1 % 2048 != x.pc % 2048) x.pc w,
                                       seq := { x with hold := 0 } }

/-- BARRIER_TIMEOUT: a barrier, or the hatch barrier that an HQPUB performs first, has waited 2^22 core-clock cycles (R285, Table
6.16). -/
def State.barTimeout (s : State) (h : HatchId) : State :=
  let x := (s.hatch h).seq
  let bar := match x.held with
    | some b => (match b.sync with
      | .op .barH | .op (.barP _) | .op (.barM _) => true
      | .op (.hqpub ..) => x.hold == 3
      | _ => false)
    | none => false
  if bar && (s.hatch h).run.isSome then
    let tag := s.tagQ (.hatch h)
    let s := (s.activeCores h).foldl (fun s i => s.flag (coreAt i 0x300) 2) s
    (s.reportFlag 0 (hatchUnit h) 0x01 2 tag x.pc 5 0).abortHatch h
  else s

end Sys2Proof.Machine
end

