-- ==== Sys2Proof/Machine/LoadStoreRows.lean ====
section
/-! DEFINITION. The rows of the load and store slots: each issues the bundle that holds that one operation. -/
namespace Sys2Proof.Machine

/-- VLD (R275). -/
def execVld (q : Issuer) (f : LFields) (s : State) : Host.Outcome State Fault Refusal :=
  done (s.issueOne q { load := .op (0x01, f) })

/-- SLD (R275). -/
def execSld (q : Issuer) (f : LFields) (s : State) : Host.Outcome State Fault Refusal :=
  done (s.issueOne q { load := .op (0x02, f) })

/-- PLD (R275). -/
def execPld (q : Issuer) (f : LFields) (s : State) : Host.Outcome State Fault Refusal :=
  done (s.issueOne q { load := .op (0x03, f) })

/-- TLOAD (R230). -/
def execTload (q : Issuer) (f : LFields) (s : State) : Host.Outcome State Fault Refusal :=
  done (s.issueOne q { load := .op (0x04, f) })

/-- VSTAT_LOAD (R247). -/
def execVstatLoad (q : Issuer) (f : LFields) (s : State) : Host.Outcome State Fault Refusal :=
  done (s.issueOne q { load := .op (0x05, f) })

/-- VSTAT_LOADM (R247). -/
def execVstatLoadm (q : Issuer) (f : LFields) (s : State) : Host.Outcome State Fault Refusal :=
  done (s.issueOne q { load := .op (0x06, f) })

/-- FGET (R303). -/
def execFget (q : Issuer) (sd : BitVec 5) (s : State) : Host.Outcome State Fault Refusal :=
  done (s.issueOne q { load := .op (0x10, { r := sd, pred := 0, cb := 0, mfmt := 0, rfmt := 0, sat := false, off := 0, step := 0 }) })

/-- FPUT (R313). -/
def execFput (q : Issuer) (sd : BitVec 5) (s : State) : Host.Outcome State Fault Refusal :=
  done (s.issueOne q { load := .op (0x11, { r := sd, pred := 0, cb := 0, mfmt := 0, rfmt := 0, sat := false, off := 0, step := 0 }) })

/-- FRING (R316). -/
def execFring (q : Issuer) (sd : BitVec 5) (s : State) : Host.Outcome State Fault Refusal :=
  done (s.issueOne q { load := .op (0x12, { r := sd, pred := 0, cb := 0, mfmt := 0, rfmt := 0, sat := false, off := 0, step := 0 }) })

/-- FDROP (R314). -/
def execFdrop (q : Issuer) (s : State) : Host.Outcome State Fault Refusal :=
  done (s.issueOne q { load := .op (0x13, { r := 0, pred := 0, cb := 0, mfmt := 0, rfmt := 0, sat := false, off := 0, step := 0 }) })

/-- VST (R275). -/
def execVst (q : Issuer) (f : LFields) (s : State) : Host.Outcome State Fault Refusal :=
  done (s.issueOne q { store := .op (0x01, f) })

/-- SST (R275). -/
def execSst (q : Issuer) (f : LFields) (s : State) : Host.Outcome State Fault Refusal :=
  done (s.issueOne q { store := .op (0x03, f) })

/-- PST (R275). -/
def execPst (q : Issuer) (f : LFields) (s : State) : Host.Outcome State Fault Refusal :=
  done (s.issueOne q { store := .op (0x04, f) })

/-- VSTAT_SAVE (R247). -/
def execVstatSave (q : Issuer) (f : LFields) (s : State) : Host.Outcome State Fault Refusal :=
  done (s.issueOne q { store := .op (0x05, f) })

/-- VST_E (R276). -/
def execVstE (q : Issuer) (se : BitVec 5) (f : LFields) (s : State) : Host.Outcome State Fault Refusal :=
  done (s.issueOne q { store := .op (0x02, { f with off := BitVec.ofNat 11 (64 * se.toNat) }) })

end Sys2Proof.Machine
end

