-- ==== Sys2Proof/Machine/MarginRows.lean ====
section
/-! DEFINITION. The rows of the margin regions: network, handle-queue and control-window ports, margin RAM, gates and clocks.  A line is
128 bytes (R471): a write with another number of bytes is none. -/
namespace Sys2Proof.Machine

/-- REGION_NET_RD (R471). -/
def execRegionNetRd (i : RegionId) (addr : BitVec 39) (tag : Byte) (s : State) : Host.Outcome State Fault Refusal :=
  done (regionRd s i addr tag)

/-- REGION_NET_WR (R471). -/
def execRegionNetWr (i : RegionId) (addr : BitVec 39) (data : List Byte) (en : BitVec 128) (tag : Byte) (s : State) : Host.Outcome State Fault Refusal :=
  if data.length = 128 then done (regionWr s i addr data en tag) else .fault .illFormed

/-- REGION_HQTAKE (R334). -/
def execRegionHqtake (i : RegionId) (b : Fin 8) (s : State) : Host.Outcome State Fault Refusal :=
  done (regionHq s i b .take)

/-- REGION_HQPUB (R334). -/
def execRegionHqpub (i : RegionId) (b : Fin 8) (handle : Word) (s : State) : Host.Outcome State Fault Refusal :=
  done (regionHq s i b (.pub handle))

/-- REGION_HQFREE (R334). -/
def execRegionHqfree (i : RegionId) (b : Fin 8) (handle : Word) (s : State) : Host.Outcome State Fault Refusal :=
  done (regionHq s i b (.free handle))

/-- USER_CTL_ACCESS (R475). -/
def execUserCtlAccess (i : RegionId) (off : BitVec 15) (write : Bool) (v : Word) (s : State) : Host.Outcome State Fault Refusal :=
  done (ctlAccess s i off write v)

/-- USER_CTL_TIMEOUT (R475). -/
def execUserCtlTimeout (i : RegionId) (s : State) : Host.Outcome State Fault Refusal :=
  done (ctlTimeout s i)

/-- USER_CTL_ANSWER (R475). -/
def execUserCtlAnswer (i : RegionId) (v : Word) (s : State) : Host.Outcome State Fault Refusal :=
  done (ctlAnswer s i v)

/-- USER_PANIC_INPUT (R473). -/
def execUserPanicInput (i : RegionId) (level : Bool) (s : State) : Host.Outcome State Fault Refusal :=
  done (panicInput s i level)

/-- MARGIN_RAM_ACCESS (R464). -/
def execMarginRamAccess (i : RegionId) (block : Byte) (a b : Option RamPortOp) (within150 : Bool) (bFirst : Bool) (s : State) : Host.Outcome State Fault Refusal :=
  done (ramAccess s i block a b within150 bFirst)

/-- GATE_REQ_WRITE (R467). -/
def execGateReqWrite (i : RegionId) (v : Word) (s : State) : Host.Outcome State Fault Refusal :=
  done (gateWrite s i v)

/-- MRG_CLK_WRITE (R462). -/
def execMrgClkWrite (i : RegionId) (n : Fin 4) (v : Word) (s : State) : Host.Outcome State Fault Refusal :=
  done (clkWrite s i n v)

/-- CLKGEN_LOCK (R462). -/
def execClkgenLock (i : RegionId) (n : Fin 4) (s : State) : Host.Outcome State Fault Refusal :=
  done (clkLocked s i n)

/-- MRG_QBIND_WRITE (R474). -/
def execMrgQbindWrite (i : RegionId) (v : Word) (s : State) : Host.Outcome State Fault Refusal :=
  done (qbindWrite s i v)

end Sys2Proof.Machine
end

