-- ==== Sys2Proof/Machine/MatrixRows.lean ====
section
/-! DEFINITION. The rows of the matrix slot: each issues the bundle that holds that one operation. -/
namespace Sys2Proof.Machine

/-- MWLOAD (R140). -/
def execMwload (q : Issuer) (f : MwFields) (s : State) : Host.Outcome State Fault Refusal :=
  done (s.issueOne q { matrix := .op (.load f) })

/-- MPASS (R117). -/
def execMpass (q : Issuer) (f : MpFields) (s : State) : Host.Outcome State Fault Refusal :=
  done (s.issueOne q { matrix := .op (.pass f) })

/-- ACLR (R167). -/
def execAclr (q : Issuer) (f : AFields) (s : State) : Host.Outcome State Fault Refusal :=
  done (s.issueOne q { matrix := .op (.drain .aclr f) })

/-- ASAVE (R176). -/
def execAsave (q : Issuer) (f : AFields) (s : State) : Host.Outcome State Fault Refusal :=
  done (s.issueOne q { matrix := .op (.drain .asave f) })

/-- ALOAD (R177). -/
def execAload (q : Issuer) (f : AFields) (s : State) : Host.Outcome State Fault Refusal :=
  done (s.issueOne q { matrix := .op (.drain .aload f) })

/-- ACHAIN_SEND (R180). -/
def execAchainSend (q : Issuer) (f : AFields) (s : State) : Host.Outcome State Fault Refusal :=
  done (s.issueOne q { matrix := .op (.drain .achainSend f) })

/-- ACHAIN_RECV (R178). -/
def execAchainRecv (q : Issuer) (f : AFields) (s : State) : Host.Outcome State Fault Refusal :=
  done (s.issueOne q { matrix := .op (.drain .achainRecv f) })

/-- FDRAIN (R187). -/
def execFdrain (q : Issuer) (f : AFields) (s : State) : Host.Outcome State Fault Refusal :=
  done (s.issueOne q { matrix := .op (.drain .fdrain f) })

/-- VDRAIN (R188). -/
def execVdrain (q : Issuer) (f : AFields) (s : State) : Host.Outcome State Fault Refusal :=
  done (s.issueOne q { matrix := .op (.drain .vdrain f) })

/-- SRESET (R195). -/
def execSreset (q : Issuer) (f : AFields) (s : State) : Host.Outcome State Fault Refusal :=
  done (s.issueOne q { matrix := .op (.drain .sreset f) })

/-- SOFTMAX_SMAX (R196). -/
def execSoftmaxSmax (q : Issuer) (f : AFields) (s : State) : Host.Outcome State Fault Refusal :=
  done (s.issueOne q { matrix := .op (.drain .smax f) })

/-- SEXP (R196). -/
def execSexp (q : Issuer) (f : AFields) (s : State) : Host.Outcome State Fault Refusal :=
  done (s.issueOne q { matrix := .op (.drain .sexp f) })

/-- SSCALE (R196). -/
def execSscale (q : Issuer) (f : AFields) (s : State) : Host.Outcome State Fault Refusal :=
  done (s.issueOne q { matrix := .op (.drain .sscale f) })

/-- SFIN (R196). -/
def execSfin (q : Issuer) (f : AFields) (s : State) : Host.Outcome State Fault Refusal :=
  done (s.issueOne q { matrix := .op (.drain .sfin f) })

end Sys2Proof.Machine
end

