-- ==== Sys2Proof/Machine/Mgmt.lean ====
section
/-! DEFINITION. The management ports (§14.3): links, addresses, datagrams, the management commands, image upload, the event log and
telemetry; and the test port (§14.2.2). -/
namespace Sys2Proof.Machine

/-! ### Links and addresses (R586, R622) -/

/-- Whether a management port's link is up. -/
def State.linkOn (s : State) (m : Fin 2) : Bool := s.mgmt.link.toNat.testBit m.val

/-- MGMT_LINK_DOWN. -/
def mgmtDown (s : State) (m : Fin 2) : State := s.modMgmt fun x => { x with link := x.link &&& ~~~(BitVec.ofNat 2 (2 ^ m.val)) }

/-- MGMT_LINK_UP: the management reference is there (R622); a port under reset or a module in reset has no link. -/
def mgmtUp (s : State) (m : Fin 2) : State :=
  if s.mod.inReset || s.mod.busy.contains (0x380 + m.val) then s
  else (s.modPins fun x => { x with mref := true }).modMgmt fun x => { x with link := x.link ||| BitVec.ofNat 2 (2 ^ m.val) }

/-- The IPv6 link-local address of a port: its MAC as a modified EUI-64. -/
def linkLocal (m : Fin 2) : BitVec 128 :=
  let mac := (Config.macFuse m).toNat
  BitVec.ofNat 128 (0xFE80 * 2 ^ 112 + (mac / 2 ^ 24 ^^^ 0x020000) * 2 ^ 40 + 0xFFFE * 2 ^ 24 + mac % 2 ^ 24)

/-- Whether a port holds an IPv4 address; in recovery mode and under the watchdog server it holds none. -/
def State.holdsV4 (s : State) (m : Fin 2) (a : BitVec 128) : Bool :=
  s.mod.server == 1 && a != 0 && a.toNat == s.rf (mgmtAt (0x108 + 64 * m.val)) 0 32

/-- Whether a port holds an IPv6 address. -/
def State.holdsV6 (s : State) (m : Fin 2) (a : BitVec 128) : Bool :=
  let own := (s.reg (mgmtAt (0x110 + 64 * m.val))).toNat * 2 ^ 64 + (s.reg (mgmtAt (0x118 + 64 * m.val))).toNat
  a == linkLocal m || (s.mod.server == 1 && a != 0 && a.toNat == own)

/-- Whether a port takes frames: its link is up and a server runs. -/
def State.listens (s : State) (m : Fin 2) : Bool := s.linkOn m && s.mod.server != 0

/-- What leaves the ports. -/
def State.mgmtSend (s : State) (l : List MgmtOut) : State := s.modMgmt fun x => { x with sent := l }

/-- ARP_REQUEST. -/
def arpGo (s : State) (m : Fin 2) (target : BitVec 128) : State :=
  if s.listens m && s.holdsV4 m target then s.mgmtSend [.arp m target] else s
/-- ND_REQUEST. -/
def ndGo (s : State) (m : Fin 2) (target : BitVec 128) : State :=
  if s.listens m && s.holdsV6 m target then s.mgmtSend [.nd m target] else s
/-- ECHO_REQUEST: ICMP or ICMPv6, by the address; the frame with its headers and check has at most 9,216 bytes. -/
def echoGo (s : State) (m : Fin 2) (target : BitVec 128) (payload : List Byte) : State :=
  if s.listens m && ((s.holdsV4 m target && decide (payload.length + 46 ≤ 9216)) ||
      (s.holdsV6 m target && decide (payload.length + 66 ≤ 9216))) then s.mgmtSend [.echo m payload]
  else s

/-- Whether a port accepts a datagram's frame: it listens, the frame has at most 9,216 bytes, and it goes to an address of the port. -/
def State.accepts (s : State) (f : MgmtFrame) : Bool :=
  s.listens f.port && decide (f.bytes ≤ 9216) && if f.v6 then s.holdsV6 f.port f.dest else s.holdsV4 f.port f.dest

/-! ### Datagrams (R587–R589, Tables 14.5–14.7) -/

/-- The assigned opcodes. -/
def opcodes : List Nat :=
  [0x01, 0x02, 0x10, 0x11, 0x20, 0x21, 0x22, 0x30, 0x31, 0x32, 0x33, 0x40, 0x41, 0x42, 0x43, 0x50, 0x51, 0x52, 0x53, 0x54, 0x60, 0x61,
    0x70, 0x71, 0x80]

/-- Whether a datagram is dropped (R587). -/
def badDatagram (b : List Byte) : Bool :=
  decide (b.length < 16) || leAt b 0 2 != 0x4D42 || leAt b 2 1 != 1 || leAt b 3 1 % 4 != 0 || leAt b 12 4 + 16 != b.length
    || !opcodes.contains (leAt b 4 2)

/-- MGMT_DATAGRAM_INVALID. -/
def datagramDrop (s : State) (f : MgmtFrame) (b : List Byte) : State :=
  if s.accepts f && badDatagram b then s.satRf (mgmtAt 8) 32 32 1 else s

/-- STATUS codes (Table 14.6). -/
def stOk : Nat := 0
def stInProgress : Nat := 1
def stRefused : Nat := 2
def stBadarg : Nat := 3
def stBusy : Nat := 4
def stFailed : Nat := 5

/-- Whether the server that runs answers an opcode otherwise than with REFUSED (R502, R577, Table 14.7). -/
def State.serves (s : State) (op : Nat) : Bool :=
  s.mod.server == 1 || (s.mod.server == 2 && (decide (op ≤ 2) || decide (0x30 ≤ op ∧ op ≤ 0x33)))
    || (s.mod.server == 3 && (decide (op ≤ 2) || op == 0x40))

/-- A response leaves; the latest 64 are kept (R589). -/
def State.respond (s : State) (r : MgmtReq) (op status : Nat) (body : List Byte) : State :=
  let o : MgmtOut := .response r (BitVec.ofNat 16 op) (BitVec.ofNat 16 status) body
  s.modMgmt fun x =>
    let l := x.kept ++ [(s.mod.time, r, BitVec.ofNat 16 op, BitVec.ofNat 16 status, body)]
    { x with kept := l.drop (l.length - 64), sent := [o] }

/-- Whether two requests have the key of R589 in common. -/
def sameKey (x r : MgmtReq) : Bool := x.frame.v6 == r.frame.v6 && x.source == r.source && x.udp == r.udp && x.reqid == r.reqid

/-- A kept response that a command's key matches within 10 s. -/
def State.keptFor (s : State) (r : MgmtReq) : Option (Word × MgmtReq × BitVec 16 × BitVec 16 × List Byte) :=
  s.mgmt.kept.find? fun x => sameKey x.2.1 r && decide ((s.mod.time - x.1).toNat ≤ 10000000000)

/-- The server executes a management command: it has its effect and its answer, or is refused. -/
def State.command (s : State) (r : MgmtReq) (op : Nat) (f : State → Nat × List Byte × State) : State :=
  let (st, body, s) := if s.serves op then f s else (stRefused, [], s)
  s.respond r op st body

/-- Words as response bytes. -/
def wordBytes (l : List Word) : List Byte := l.flatMap fun w => leBytes 8 w.toNat

/-! ### Identity, status and registers -/

/-- IDENT. -/
def identCmd (s : State) (r : MgmtReq) : State :=
  s.command r 0x01 fun s => (stOk, wordBytes [Config.mid, s.reg 0] ++ leBytes 4 s.version.toNat, s)

/-- The registers that STATUS returns. -/
def statusRegs : List Nat := [confAt 0, confAt 8, confAt 0x10, engineAt 0x108, 0x8, engineAt 0x10, 0x18]

/-- Reads in list order. -/
def readAll (src : PortClass) : List Nat → State → List Word → List Word × State
  | [], s, acc => (acc, s)
  | a :: r, s, acc => let (w, s) := s.csRead src a; readAll src r s (acc ++ [w])

/-- STATUS. -/
def statusCmd (s : State) (r : MgmtReq) : State :=
  s.command r 0x02 fun s => let (ws, s) := readAll .complex statusRegs s []; (stOk, wordBytes ws, s)

/-- REGRD. -/
def regrdCmd (s : State) (r : MgmtReq) (addrs : List Word) : State :=
  s.command r 0x10 fun s =>
    if addrs.length = 0 ∨ 64 < addrs.length ∨ addrs.any (fun a => decide (2 ^ 40 ≤ a.toNat)) then (stBadarg, [], s)
    else let (ws, s) := readAll .management (addrs.map (·.toNat)) s []; (stOk, wordBytes ws, s)

/-- Writes in list order, each in effect before the response (R610), with the count performed and the index of the first discarded one. -/
def writeAll : List (Word × Word) → Nat → State → Nat → Option Nat → Nat × Option Nat × State
  | [], _, s, n, first => (n, first, s)
  | (a, v) :: r, k, s, n, first =>
    let t := (s.csWrite .management a.toNat 8 v).landClears a.toNat
    if occupied a.toNat ∧ t.reg 0x1020 = s.reg 0x1020 then writeAll r (k + 1) t (n + 1) first
    else writeAll r (k + 1) t n (some (first.getD k))

/-- REGWR. -/
def regwrCmd (s : State) (r : MgmtReq) (ws : List (Word × Word)) : State :=
  s.command r 0x11 fun s =>
    if ws.length = 0 ∨ 64 < ws.length ∨ ws.any (fun a => decide (2 ^ 40 ≤ a.1.toNat)) then (stBadarg, [], s)
    else let (n, first, s) := writeAll ws 0 s 0 none; (stOk, leBytes 4 n ++ leBytes 4 (first.getD 0xFFFFFFFF), s)

/-! ### Telemetry, subscribers and the event log (R595, R602, R603) -/

/-- The instances of a telemetry item; 0 for an ID that is not assigned (Table 14.16). -/
def telCount (id : Nat) : Nat :=
  match id with
  | 0x0101 | 0x0102 | 0x0201 | 0x0301 | 0x0701 => 1
  | 0x0103 | 0x0105 | 0x0404 | 0x0601 => 8
  | 0x0104 | 0x0501 | 0x0502 | 0x0503 => 32
  | 0x0202 | 0x0203 => 5
  | 0x0302 => 9
  | 0x0303 => 80
  | 0x0304 | 0x0305 | 0x0306 => 3
  | 0x0307 => 2
  | 0x0401 | 0x0403 => 10
  | 0x0402 => 20
  | _ => 0

/-- The value of a telemetry item. -/
def State.telValue (s : State) (id inst : Nat) : Word :=
  if id = 0x0102 then Config.vin s.mod.time
  else if id = 0x0105 then ((s.plate (fin 8 inst)).act).setWidth 64
  else if id = 0x0201 then s.reg 0x8
  else if id = 0x0307 then BitVec.ofNat 64 (if inst = 0 then s.engine.own.length else s.engine.partner.length)
  else if id = 0x0401 then ((s.port (fin 10 inst)).state).setWidth 64
  else if id = 0x0403 then
    BitVec.ofNat 64 ((List.range 16).foldl (fun m l => min m (Config.eye (fin 10 inst) l s.mod.time).toNat) 255)
  else if id = 0x0501 ∨ id = 0x0502 then
    s.reg (stackAt ⟨fin 8 (inst / 4), fin 4 inst⟩ (0x20 + 8 * (id - 0x0501)))
  else sget 0 s.mgmt.tel (id * 65536 + inst)

/-- Whether every entry names an item and an instance of it. -/
def telValid (items : List (BitVec 16 × BitVec 16)) : Bool := items.all fun x => decide (x.2.toNat < telCount x.1.toNat)

/-- The values of items. -/
def State.telBytes (s : State) (items : List (BitVec 16 × BitVec 16)) : List Byte :=
  wordBytes (items.map fun x => s.telValue x.1.toNat x.2.toNat)

/-- TELEM. -/
def telemCmd (s : State) (r : MgmtReq) (items : List (BitVec 16 × BitVec 16)) : State :=
  s.command r 0x20 fun s =>
    if items.length = 0 ∨ 128 < items.length ∨ !telValid items then (stBadarg, [], s) else (stOk, s.telBytes items, s)

/-- SUBSCRIBE. -/
def subscribeCmd (s : State) (r : MgmtReq) (slot : Nat) (udp : BitVec 16) (mask period : BitVec 32) (items : List (BitVec 16 × BitVec 16)) :
    State :=
  s.command r 0x21 fun s =>
    if 4 ≤ slot ∨ 64 < items.length ∨ !telValid items then (stBadarg, [], s)
    else
      let x : SubSt := { port := r.port, source := r.source, udp, mask, period, items, sent := s.mgmt.eseq, told := s.mod.time }
      (stOk, [], s.modMgmt fun m => { m with subs := sset none m.subs slot (some x) })

/-- An event record's bytes. -/
def evBytes (e : EvRec) : List Byte :=
  leBytes 8 e.eseq.toNat ++ leBytes 8 e.time.toNat ++ leBytes 2 e.type.toNat ++ leBytes 2 e.unit.toNat ++ leBytes 4 0
    ++ leBytes 8 e.detail.toNat

/-- EVLOG: it starts at the oldest record kept when the requested ESEQ is older. -/
def evlogCmd (s : State) (r : MgmtReq) (first : Word) (count : Nat) : State :=
  s.command r 0x22 fun s =>
    if count = 0 ∨ 32 < count then (stBadarg, [], s)
    else (stOk, ((s.mgmt.log.filter fun e => decide (first.toNat ≤ e.eseq.toNat)).take count).flatMap evBytes, s)

/-- What one subscriber is pushed: up to 32 new records of the types in its mask, and, where its period in ms has passed, its items;
with what it has been sent then. -/
def State.pushFor (s : State) (slot : Nat) (x : SubSt) : List MgmtOut × SubSt :=
  if !s.linkOn x.port then ([], x)
  else
    let new := (s.mgmt.log.filter fun e => decide (x.sent.toNat < e.eseq.toNat) && x.mask.toNat.testBit e.type.toNat).take 32
    let ev : List MgmtOut := if new.isEmpty then [] else [.push slot x.udp (new.flatMap evBytes)]
    let due := decide (x.period.toNat * 1000000 ≤ (s.mod.time - x.told).toNat)
    let tel : List MgmtOut := if x.items.isEmpty || !due then [] else [.push slot x.udp (s.telBytes x.items)]
    (ev ++ tel, { x with sent := (new.getLast?.map (·.eseq)).getD x.sent, told := if due then s.mod.time else x.told })

/-- SUBSCRIBER_PUSH: each subscriber's new records, and its items once per its period. -/
def pushGo (s : State) : State :=
  (List.range 4).foldl (fun (s : State) slot => match sget none s.mgmt.subs slot with
    | none => s
    | some x =>
      let (out, x) := s.pushFor slot x
      s.modMgmt fun m => { m with sent := m.sent ++ out, subs := sset none m.subs slot (some x) }) (s.mgmtSend [])

/-- The integer part of 2^(n/4). -/
def rootOfTwo (n : Nat) : Nat :=
  (List.range 42).foldl (fun r k => if (r + 2 ^ (41 - k)) ^ 4 ≤ 2 ^ n then r + 2 ^ (41 - k) else r) 0

/-- The upper edge of a bucket, 2^((b+1)/4) ns; the manual states no rounding of an edge that is no integer, up or down (assumption 48). -/
def bucketEdge (b : Nat) : Word :=
  BitVec.ofNat 64 (rootOfTwo (b + 1) + if (b + 1) % 4 ≠ 0 && Config.bucketUp b then 1 else 0)

/-- The bucket in which a percentile, in thousandths, of `n` samples falls. -/
def State.bucketOf (s : State) (item n q : Nat) : Nat :=
  (firstIdx 160 fun b =>
    decide (q * n ≤ 1000 * ((List.range (b + 1)).map fun c => sget 0 s.mgmt.hist (item * 160 + c)).sum)).getD 159

/-- TEL_INTERVAL_END: the percentiles of the interval that ends (R603). -/
def telEnd (s : State) : State :=
  let s := (List.range 3).foldl (fun (s : State) item =>
    let n := ((List.range 160).map fun b => sget 0 s.mgmt.hist (item * 160 + b)).sum
    [500, 990, 999].zipIdx.foldl (fun (s : State) q =>
      s.gauge (0x0304 + item) q.2 (if n = 0 then 0 else (bucketEdge (s.bucketOf item n q.1)).toNat)) s) s
  s.modMgmt fun m => { m with hist := [] }

/-! ### Image upload (R590–R592) -/

/-- An upload ends in phase 5 or 6. -/
def State.uploadEnd (s : State) (phase reason : Nat) : State :=
  (s.modMgmt fun m => { m with up := { m.up with phase := BitVec.ofNat 4 phase, reason := BitVec.ofNat 8 reason } }).event 0x0B 0
    (phase + 256 * reason)

/-- IMG_BEGIN. -/
def imgBeginCmd (s : State) (r : MgmtReq) (flash len : Nat) (abort : Bool) : State :=
  s.command r 0x30 fun s =>
    let ph := s.mgmt.up.phase.toNat
    if 2 ≤ flash ∨ 2 ^ 28 < len ∨ Config.flashSize (fin 2 flash) < len then (stBadarg, [], s)
    else if (ph = 1 ∧ !abort) ∨ ph = 2 ∨ ph = 3 ∨ ph = 4 then (stBusy, [], s)
    else (stOk, [], s.modMgmt fun m => { m with up := { phase := 1, flash := flash == 1, len } })

/-- IMG_DATA. -/
def imgDataCmd (s : State) (r : MgmtReq) (off : Nat) (data : List Byte) : State :=
  s.command r 0x31 fun s =>
    let u := s.mgmt.up
    let n := data.length
    if u.phase ≠ 1 then (stRefused, [], s)
    else if off % 256 ≠ 0 ∨ n < 256 ∨ 8192 < n ∨ u.len < off + n ∨ (n % 256 ≠ 0 ∧ off + n ≠ u.len) then (stBadarg, [], s)
    else
      let bytes := data.zipIdx.foldl (fun (b : SMap (Option Byte)) x => sset none b (off + x.2) (some x.1)) u.bytes
      (stOk, [], s.modMgmt fun m => { m with up := { u with bytes } })

/-- IMG_END. -/
def imgEndCmd (s : State) (r : MgmtReq) : State :=
  s.command r 0x32 fun s =>
    if s.mgmt.up.phase ≠ 1 then (stRefused, [], s)
    else (stInProgress, [], s.modMgmt fun m => { m with up := { m.up with phase := 2 } })

/-- IMG_STATUS. -/
def imgStatusCmd (s : State) (r : MgmtReq) : State :=
  s.command r 0x33 fun s => (stOk, [s.mgmt.up.phase.setWidth 8, s.mgmt.up.reason], s)

/-- UPLOAD_TIMEOUT. -/
def uploadLate (s : State) : State := if s.mgmt.up.phase = 1 then s.modMgmt fun m => { m with up := {} } else s

/-- `n` free bytes (assumption 2). -/
def State.freeBytes (s : State) (n : Nat) : List Byte × State :=
  ((List.range n).map fun k => BitVec.ofNat 8 (bitsOf (Config.freeWord (s.freeCtr + k / 8)) (8 * (k % 8)) 8),
    { s with freeCtr := s.freeCtr + (n + 7) / 8 })

/-- A flash device holds the bytes from its start, and nothing more. -/
def State.program (s : State) (second : Bool) (bs : List Byte) : State :=
  if second then { s with nv := { s.nv with flash1 := writeMem [] 0 bs } } else { s with nv := { s.nv with flash0 := writeMem [] 0 bs } }

/-- What is wrong with an upload, before the flash is touched: MISSING, or a reason of Table 12.9. -/
def State.uploadReason (s : State) : Nat :=
  let u := s.mgmt.up
  let get (k : Nat) : Byte := (sget none u.bytes k).getD 0
  let b (o k : Nat) : List Byte := (List.range k).map fun j => get (o + j)
  if (List.range u.len).any fun k => (sget none u.bytes k).isNone then 0x30
  else if leAt (b 0 4) 0 4 ≠ 0x49505653 then 0x10
  else
    let n := imageReason s (Config.flashSize (if u.flash then 1 else 0)) b
    if n ≠ 0 then n
    else match imageKey (b 0 256) with
      | none => 0x17
      | some key => if segmentsOk b (segments (leAt (b 0 256) 24 8)) key 0 then 0 else 0x18

/-- The upload goes on to a phase. -/
def State.uploadPhase (s : State) (phase : BitVec 4) : State := s.modMgmt fun m => { m with up := { m.up with phase } }

/-- IMG_PROGRAM_COMPLETE: the phase under way ends (R590; assumption 60).  The checks end phase 2: when all pass, the erase starts, and what
the device holds is free from then on (R642).  The erase ends phase 3.  The read-back ends phase 4. -/
def programGo (s : State) (readbackOk : Bool) : State :=
  let u := s.mgmt.up
  let n := s.uploadReason
  if u.phase = 2 then
    if n ≠ 0 then s.uploadEnd 6 n
    else
      let (bs, s) := s.freeBytes u.len
      (s.program u.flash bs).uploadPhase 3
  else if u.phase = 3 then s.uploadPhase 4
  else if u.phase = 4 then
    if readbackOk then (s.program u.flash ((List.range u.len).map fun k => (sget none u.bytes k).getD 0)).uploadEnd 5 0
    else s.uploadEnd 6 0x31
  else s

/-- VAUX18_FAIL: a flash read of start-up stages 3 and 4, or an upload, fails with FLASH (R642). -/
def vaux18Lost (s : State) : State :=
  let st := s.rf 0x300 0 4
  let s := if 1 ≤ s.mgmt.up.phase.toNat ∧ s.mgmt.up.phase.toNat ≤ 4 then s.uploadEnd 6 0x11 else s
  if s.mod.inReset ∨ ¬(st = 3 ∨ st = 4) ∨ 8 ≤ s.cfgState then s
  else if s.boot.loading then s.bootFail s.boot.image 0x11 s.boot.offset
  else match s.nextImage with
    | some n => s.bootFail n 0x11 0
    | none => s

/-! ### Module-wide commands (R561, R568, R594) -/

/-- RESET: the response leaves first. -/
def resetModuleCmd (s : State) (r : MgmtReq) (mid : Word) : State :=
  let go := s.serves 0x40 && mid == Config.mid
    && !(s.mgmt.up.phase == 3 || s.mgmt.up.phase == 4)
  let s := s.command r 0x40 fun s =>
    if mid ≠ Config.mid then (stBadarg, [], s)
    else if s.mgmt.up.phase = 3 ∨ s.mgmt.up.phase = 4 then (stBusy, [], s) else (stOk, [], s)
  if go then s.moduleReset 2 else s

/-- FENCE. -/
def fenceCmd (s : State) (r : MgmtReq) (mid : Word) : State :=
  s.command r 0x41 fun s =>
    if mid ≠ Config.mid then (stBadarg, [], s)
    else let s := s.fenceModule false; (stOk, leBytes 4 (pcode s.pair.state), s)

/-- TOKEN. -/
def tokenCmd (s : State) (r : MgmtReq) (t : FenceToken) : State :=
  s.command r 0x42 fun s => (if s.tokenOk 2 t then stOk else stBadarg, [], s.tokenGo 2 t)

/-- FAULTN_CLEAR. -/
def faultnCmd (s : State) (r : MgmtReq) : State := s.command r 0x43 fun s => (stOk, [], s.setRf 0x1030 0 1 0)

/-! ### Pairing, durable regions, commissions (R58, R538, R557, R593) -/

/-- ATTACH. -/
def attachCmd (s : State) (r : MgmtReq) : State :=
  s.command r 0x50 fun s => if s.pair.state = .solo then (stInProgress, [], s.pairStart false) else (stRefused, [], s)

/-- DETACH. -/
def detachCmd (s : State) (r : MgmtReq) : State :=
  s.command r 0x51 fun s => if s.pair.state = .paired then (stInProgress, [], s.detachNow true) else (stRefused, [], s)

/-- The DUR bits of the mapped granules of a range (Table 8.4). -/
def State.setDur (s : State) (first count : Nat) (on : Bool) : State :=
  ((mapped s).filter fun g => decide (first ≤ g ∧ g < first + count)).foldl (fun (s : State) g =>
    match mapRead s g with
    | (some w, s) => s.changeFrom g (some w) (withBits w 2 1 (if on then 1 else 0))
    | (none, s) => s) s

/-- DUR_DECLARE: refused beyond the limits of R367; in SOLO it is recorded, in PAIRED copying starts at once. -/
def durDeclareCmd (s : State) (r : MgmtReq) (first : BitVec 25) (count : BitVec 26) : State :=
  s.command r 0x52 fun s =>
    let n := count.toNat
    let total := (s.pair.regions.map (·.count)).sum + n
    let paired := s.pair.state == .paired
    if n = 0 ∨ 2 ^ 25 < first.toNat + n then (stBadarg, [], s)
    else if 64 ≤ s.pair.regions.length ∨ !(paired || s.pair.state == .solo) ∨ (paired ∧ s.pair.peerCap.toNat < total * 16384) then
      (stRefused, [], s)
    else
      let d : DurRegion := { first := first.toNat, count := n, state := 0 }
      let idx := leBytes 4 s.pair.regions.length
      let s := (s.modPair fun x => { x with regions := x.regions ++ [d] }).setDur first.toNat n true
      if paired then (stInProgress, idx, (s.sendRange d false).regionCopy d) else (stOk, idx, s)

/-- DUR_WITHDRAW: the region's DUR bits are cleared.  In SOLO the region is gone; with a twin it is withdrawing until the twin has said
that its mirror is deleted (assumption 49). -/
def durWithdrawCmd (s : State) (r : MgmtReq) (n : Nat) : State :=
  s.command r 0x53 fun s =>
    match s.pair.regions[n]? with
    | none => (stBadarg, [], s)
    | some d =>
      let s := s.setDur d.first d.count false
      if s.pair.state = .solo then (stOk, [], s.modPair fun x => { x with regions := x.regions.eraseIdx n })
      else (stInProgress, [], (s.modPair fun x => { x with regions := x.regions.set n { d with state := 2 } }).sendRange d true)

/-- DUR_STATUS. -/
def durStatusCmd (s : State) (r : MgmtReq) : State :=
  s.command r 0x54 fun s => (stOk, s.pair.regions.map fun d => d.state.setWidth 8, s)

/-- CANCEL: the response says whether the cancel took effect. -/
def cancelCmd (s : State) (r : MgmtReq) (k : CmsnKey) : State :=
  s.command r 0x60 fun s =>
    let hit := match s.cmsn k with
      | some c => c.state == .accepted || c.state == .ready || c.state == .running || c.state == .preempted || c.state == .finished
      | none => false
    (stOk, leBytes 4 (bit1 hit), cancelGo s k)

/-- STREAM_CLOSE. -/
def closeCmd (s : State) (r : MgmtReq) (stream : BitVec 16) : State :=
  s.command r 0x61 fun s =>
    if s.engine.cmsns.any (fun c => c.key.stream == stream) || s.engine.pending.any fun x => x.key.stream == stream then (stBusy, [], s)
    else (stOk, [], s.modEngine fun e => { e with streams := sdel e.streams stream.toNat })

/-! ### Policies (R597, Table 14.14) -/

/-- The range of a policy parameter. -/
def policyRange (id : Nat) : Option (Nat × Nat) :=
  match id with
  | 0x01 | 0x04 | 0x0A | 0x0F | 0x10 => some (0, 1)
  | 0x02 => some (1, 255)
  | 0x03 => some (1, 168)
  | 0x05 | 0x0B => some (1, 1000)
  | 0x06 | 0x07 => some (1, 65535)
  | 0x08 => some (1, 0xFFFFFFFF)
  | 0x09 => some (0, 720)
  | 0x0C => some (2, 64)
  | 0x0D => some (1, 16)
  | 0x0E => some (10, 60000)
  | 0x11 => some (10, 10000)
  | 0x12 | 0x13 => some (0, 100)
  | 0x14 => some (0, 2)
  | 0x15 => some (1, 3600)
  | 0x16 => some (10, 500)
  | 0x17 => some (100, 60000)
  | _ => none

/-- Entries of ID and value. -/
def State.policyBytes (s : State) (ids : List (BitVec 16)) : List Byte :=
  ids.flatMap fun i => leBytes 8 (i.toNat + s.policy i.toNat * 2 ^ 32)

/-- POLICY_GET. -/
def policyGetCmd (s : State) (r : MgmtReq) (ids : List (BitVec 16)) : State :=
  s.command r 0x70 fun s =>
    if ids.all fun i => (policyRange i.toNat).isSome then (stOk, s.policyBytes ids, s) else (stBadarg, [], s)

/-- POLICY_SET. -/
def policySetCmd (s : State) (r : MgmtReq) (sets : List (BitVec 16 × BitVec 32)) : State :=
  s.command r 0x71 fun s =>
    let ok (x : BitVec 16 × BitVec 32) : Bool := match policyRange x.1.toNat with
      | some (lo, hi) => decide (lo ≤ x.2.toNat ∧ x.2.toNat ≤ hi)
      | none => false
    if sets.all ok then
      let s := sets.foldl (fun (s : State) x => s.modMgmt fun m =>
        { m with policy := sset (BitVec.ofNat 32 (policyDefault x.1.toNat)) m.policy x.1.toNat x.2 }) s
      (stOk, s.policyBytes (sets.map (·.1)), s)
    else (stBadarg, [], s)

/-! ### The debug lane pair (R422) -/

/-- DBGLANE: the operation, with the counts and the eye of the debug lane pair.  What the lane receives is outside the model, so its
bit and error counts are free (assumption 2). -/
def dbglaneCmd (s : State) (r : MgmtReq) (op : BitVec 2) : State :=
  s.command r 0x80 fun s =>
    if s.rf (portAt 0 0) 4 1 = 0 then (stRefused, [], s)
    else
      let (bits, s) := s.fresh
      let (errs, s) := s.fresh
      let s := if op = 0 then s else s.modMgmt fun m => { m with dbg := if op = 3 then 0 else op }
      (stOk, wordBytes [bits, errs] ++ [Config.eye 0 8 s.mod.time], s)

/-! ### The server's queue (R588, R589) -/

/-- The opcode of a command (Table 14.7). -/
def opcodeOf : MgmtCmd → Nat
  | .ident => 0x01
  | .status => 0x02
  | .regrd _ => 0x10
  | .regwr _ => 0x11
  | .telem _ => 0x20
  | .subscribe .. => 0x21
  | .evlog .. => 0x22
  | .imgBegin .. => 0x30
  | .imgData .. => 0x31
  | .imgEnd => 0x32
  | .imgStatus => 0x33
  | .reset _ => 0x40
  | .fence _ => 0x41
  | .token _ => 0x42
  | .faultnClear => 0x43
  | .attach => 0x50
  | .detach => 0x51
  | .durDeclare .. => 0x52
  | .durWithdraw _ => 0x53
  | .durStatus => 0x54
  | .cancel _ => 0x60
  | .streamClose _ => 0x61
  | .policyGet _ => 0x70
  | .policySet _ => 0x71
  | .dbglane _ => 0x80

/-- The server executes a management command. -/
def serve (r : MgmtReq) (c : MgmtCmd) (s : State) : State :=
  match c with
  | .ident => identCmd s r
  | .status => statusCmd s r
  | .regrd addrs => regrdCmd s r addrs
  | .regwr writes => regwrCmd s r writes
  | .telem items => telemCmd s r items
  | .subscribe slot udp mask period items => subscribeCmd s r slot udp mask period items
  | .evlog first count => evlogCmd s r first count
  | .imgBegin flash len abort => imgBeginCmd s r flash len abort
  | .imgData off data => imgDataCmd s r off data
  | .imgEnd => imgEndCmd s r
  | .imgStatus => imgStatusCmd s r
  | .reset mid => resetModuleCmd s r mid
  | .fence mid => fenceCmd s r mid
  | .token t => tokenCmd s r t
  | .faultnClear => faultnCmd s r
  | .attach => attachCmd s r
  | .detach => detachCmd s r
  | .durDeclare first count => durDeclareCmd s r first count
  | .durWithdraw region => durWithdrawCmd s r region
  | .durStatus => durStatusCmd s r
  | .cancel k => cancelCmd s r k
  | .streamClose stream => closeCmd s r stream
  | .policyGet ids => policyGetCmd s r ids
  | .policySet sets => policySetCmd s r sets
  | .dbglane op => dbglaneCmd s r op

/-- The server executes up to `n` commands in arrival order; `out` is what has left the ports before. -/
def State.serveAll : Nat → List MgmtOut → State → State
  | 0, out, s => s.mgmtSend out
  | n + 1, out, s => match s.mgmt.queue with
    | [] => s.mgmtSend out
    | x :: rest =>
      let s := serve x.1 x.2 (s.modMgmt fun m => { m with queue := rest })
      State.serveAll n (out ++ s.mgmt.sent) s

/-- A management command arrives: interrupt line 1 says that a datagram came (Table 14.15).  A repeat is answered with the response that is
kept, or with IN_PROGRESS while the original waits, and is counted (R589).  While the server is busy it joins the queue of 64, or is
answered with BUSY (R588); else the server executes what waits, and then it. -/
def mgmtArrive (s : State) (r : MgmtReq) (c : MgmtCmd) : State :=
  if !s.accepts r.frame then s
  else
    let s := s.edge 1
    let dup (o : MgmtOut) : State := (s.satRf (mgmtAt 8) 16 16 1).mgmtSend [o]
    match s.keptFor r with
    | some x => dup (.response r x.2.2.1 x.2.2.2.1 x.2.2.2.2)
    | none =>
      if s.mgmt.queue.any fun x => sameKey x.1 r then
        dup (.response r (BitVec.ofNat 16 (opcodeOf c)) (BitVec.ofNat 16 stInProgress) [])
      else if r.waits then
        if 64 ≤ s.mgmt.queue.length then s.respond r (opcodeOf c) stBusy []
        else (s.modMgmt fun m => { m with queue := m.queue ++ [(r, c)] }).mgmtSend []
      else (s.modMgmt fun m => { m with queue := m.queue ++ [(r, c)] }).serveAll (s.mgmt.queue.length + 1) []

/-! ### The test port (§14.2.2, R503, R585, R648) -/

/-- Whether the test port is enabled: until CONFIG_DONE, and after it while TESTKEEP is high. -/
def State.testOn (s : State) : Bool := !s.pins.cfgDone || s.pins.testkeep

/-- An instruction of the enabled test port. -/
def State.testDo (s : State) (f : State → State) : State := if s.testOn then f s else s

/-- EXTEST: the boundary register is captured and shifted out while a new value is shifted in, and the update latch drives the pins; bit 24 · bank + pin stands
for a user pin, whose level is seen (assumption 125). -/
def extestGo (s : State) (instr : Byte) (shift pins : BitVec 393) : State :=
  s.testDo fun s =>
    let ids : List BankId := plateIds.flatMap fun p => (List.finRange 2).map fun j => ⟨p, j⟩
    let s := ids.foldl (fun (s : State) i =>
      s.setBank i { s.bank i with levels := BitVec.ofNat 24 (pins.toNat / 2 ^ (24 * (2 * i.p.val + i.j.val))) }) s
    { s with test := { s.test with instr, boundary := pins, driven := shift, tdo := none, tlr := false } }

/-- IDCODE. -/
def idcodeGo (s : State) : State :=
  s.testDo fun s => { s with test := { s.test with instr := 0x01, tdo := some 0x103849AF, tlr := false } }

/-- CSREAD. -/
def csreadGo (s : State) (a : BitVec 40) : State :=
  s.testDo fun s =>
    let (v, s) := s.csRead .testPort a.toNat
    { s with test := { s.test with instr := 0x40, capture := v, tdo := some v, tlr := false } }

/-- BYPASS, and every code that is not assigned: the bit that the register captured, 0, leaves, and the shifted bit stays. -/
def bypassGo (s : State) (tdi : Bool) : State :=
  s.testDo fun s => { s with test := { s.test with instr := 0xFF, bypass := tdi, tdo := some 0, tlr := false } }

/-- TRST_N_LOW: Test-Logic-Reset; the instruction register selects IDCODE (assumption 50). -/
def trstGo (s : State) : State := s.testDo fun s => { s with test := { s.test with instr := 0x01, tdo := none, tlr := true } }

end Sys2Proof.Machine
end

