-- ==== Sys2Proof/Machine/MgmtRows.lean ====
section
/-! DEFINITION. The rows of the management ports, the management commands and the test port. -/
namespace Sys2Proof.Machine

/-- VAUX18_FAIL (R642). -/
def execVaux18Fail (s : State) : Host.Outcome State Fault Refusal :=
  done (vaux18Lost s)

/-- TEL_INTERVAL_END (R603). -/
def execTelIntervalEnd (s : State) : Host.Outcome State Fault Refusal :=
  done (telEnd s)

/-- SUBSCRIBER_PUSH (R595). -/
def execSubscriberPush (s : State) : Host.Outcome State Fault Refusal :=
  done (pushGo s)

/-- MGMT_DATAGRAM_INVALID (R587). -/
def execMgmtDatagramInvalid (f : MgmtFrame) (bytes : List Byte) (s : State) : Host.Outcome State Fault Refusal :=
  done (datagramDrop s f bytes)

/-- ARP_REQUEST (R586). -/
def execArpRequest (m : Fin 2) (target : BitVec 128) (s : State) : Host.Outcome State Fault Refusal :=
  done (arpGo s m target)

/-- ND_REQUEST (R586). -/
def execNdRequest (m : Fin 2) (target : BitVec 128) (s : State) : Host.Outcome State Fault Refusal :=
  done (ndGo s m target)

/-- ECHO_REQUEST (R586). -/
def execEchoRequest (m : Fin 2) (target : BitVec 128) (payload : List Byte) (s : State) : Host.Outcome State Fault Refusal :=
  done (echoGo s m target payload)

/-- IDENT (R61). -/
def execIdent (r : MgmtReq) (s : State) : Host.Outcome State Fault Refusal :=
  done (mgmtArrive s r .ident)

/-- STATUS (R61). -/
def execStatus (r : MgmtReq) (s : State) : Host.Outcome State Fault Refusal :=
  done (mgmtArrive s r .status)

/-- REGRD (R580). -/
def execRegrd (r : MgmtReq) (addrs : List Word) (s : State) : Host.Outcome State Fault Refusal :=
  done (mgmtArrive s r (.regrd addrs))

/-- REGWR (R581). -/
def execRegwr (r : MgmtReq) (writes : List (Word × Word)) (s : State) : Host.Outcome State Fault Refusal :=
  done (mgmtArrive s r (.regwr writes))

/-- TELEM (R602). -/
def execTelem (r : MgmtReq) (items : List (BitVec 16 × BitVec 16)) (s : State) : Host.Outcome State Fault Refusal :=
  done (mgmtArrive s r (.telem items))

/-- SUBSCRIBE (R595). -/
def execSubscribe (r : MgmtReq) (slot : Nat) (udp : BitVec 16) (mask : BitVec 32) (period : BitVec 32) (items : List (BitVec 16 × BitVec 16)) (s : State) : Host.Outcome State Fault Refusal :=
  done (mgmtArrive s r (.subscribe slot udp mask period items))

/-- EVLOG (R595). -/
def execEvlog (r : MgmtReq) (first : Word) (count : Nat) (s : State) : Host.Outcome State Fault Refusal :=
  done (mgmtArrive s r (.evlog first count))

/-- IMG_BEGIN (R591). -/
def execImgBegin (r : MgmtReq) (flash : Nat) (len : Nat) (abort : Bool) (s : State) : Host.Outcome State Fault Refusal :=
  done (mgmtArrive s r (.imgBegin flash len abort))

/-- IMG_DATA (R590). -/
def execImgData (r : MgmtReq) (off : Nat) (data : List Byte) (s : State) : Host.Outcome State Fault Refusal :=
  done (mgmtArrive s r (.imgData off data))

/-- IMG_END (R590). -/
def execImgEnd (r : MgmtReq) (s : State) : Host.Outcome State Fault Refusal :=
  done (mgmtArrive s r .imgEnd)

/-- IMG_PROGRAM_COMPLETE (R590). -/
def execImgProgramComplete (readbackOk : Bool) (s : State) : Host.Outcome State Fault Refusal :=
  done (programGo s readbackOk)

/-- UPLOAD_TIMEOUT (R591). -/
def execUploadTimeout (s : State) : Host.Outcome State Fault Refusal :=
  done (uploadLate s)

/-- IMG_STATUS (R590). -/
def execImgStatus (r : MgmtReq) (s : State) : Host.Outcome State Fault Refusal :=
  done (mgmtArrive s r .imgStatus)

/-- RESET (R594). -/
def execResetCmd (r : MgmtReq) (mid : Word) (s : State) : Host.Outcome State Fault Refusal :=
  done (mgmtArrive s r (.reset mid))

/-- MGMT_FENCE (R561). -/
def execMgmtFence (r : MgmtReq) (mid : Word) (s : State) : Host.Outcome State Fault Refusal :=
  done (mgmtArrive s r (.fence mid))

/-- TOKEN (R558). -/
def execToken (r : MgmtReq) (t : FenceToken) (s : State) : Host.Outcome State Fault Refusal :=
  done (mgmtArrive s r (.token t))

/-- FAULTN_CLEAR (R568). -/
def execFaultnClear (r : MgmtReq) (s : State) : Host.Outcome State Fault Refusal :=
  done (mgmtArrive s r .faultnClear)

/-- ATTACH (R58). -/
def execAttach (r : MgmtReq) (s : State) : Host.Outcome State Fault Refusal :=
  done (mgmtArrive s r .attach)

/-- DETACH (R557). -/
def execDetach (r : MgmtReq) (s : State) : Host.Outcome State Fault Refusal :=
  done (mgmtArrive s r .detach)

/-- DUR_DECLARE (R593). -/
def execDurDeclare (r : MgmtReq) (first : BitVec 25) (count : BitVec 26) (s : State) : Host.Outcome State Fault Refusal :=
  done (mgmtArrive s r (.durDeclare first count))

/-- DUR_WITHDRAW (R593). -/
def execDurWithdraw (r : MgmtReq) (region : Nat) (s : State) : Host.Outcome State Fault Refusal :=
  done (mgmtArrive s r (.durWithdraw region))

/-- DUR_STATUS (R593). -/
def execDurStatus (r : MgmtReq) (s : State) : Host.Outcome State Fault Refusal :=
  done (mgmtArrive s r .durStatus)

/-- CANCEL (R538). -/
def execCancel (r : MgmtReq) (k : CmsnKey) (s : State) : Host.Outcome State Fault Refusal :=
  done (mgmtArrive s r (.cancel k))

/-- STREAM_CLOSE (R593). -/
def execStreamClose (r : MgmtReq) (stream : BitVec 16) (s : State) : Host.Outcome State Fault Refusal :=
  done (mgmtArrive s r (.streamClose stream))

/-- POLICY_GET (R597). -/
def execPolicyGet (r : MgmtReq) (ids : List (BitVec 16)) (s : State) : Host.Outcome State Fault Refusal :=
  done (mgmtArrive s r (.policyGet ids))

/-- POLICY_SET (R597). -/
def execPolicySet (r : MgmtReq) (sets : List (BitVec 16 × BitVec 32)) (s : State) : Host.Outcome State Fault Refusal :=
  done (mgmtArrive s r (.policySet sets))

/-- DBGLANE_STATUS (R422). -/
def execDbglaneStatus (r : MgmtReq) (s : State) : Host.Outcome State Fault Refusal :=
  done (mgmtArrive s r (.dbglane 0))

/-- DBGLANE_PRBS13Q (R422). -/
def execDbglanePrbs13q (r : MgmtReq) (s : State) : Host.Outcome State Fault Refusal :=
  done (mgmtArrive s r (.dbglane 1))

/-- DBGLANE_PRBS31Q (R422). -/
def execDbglanePrbs31q (r : MgmtReq) (s : State) : Host.Outcome State Fault Refusal :=
  done (mgmtArrive s r (.dbglane 2))

/-- DBGLANE_STOP (R422). -/
def execDbglaneStop (r : MgmtReq) (s : State) : Host.Outcome State Fault Refusal :=
  done (mgmtArrive s r (.dbglane 3))

/-- EXTEST (R503). -/
def execExtest (shift : BitVec 393) (pins : BitVec 393) (s : State) : Host.Outcome State Fault Refusal :=
  done (extestGo s 0x00 shift pins)

/-- IDCODE (R503). -/
def execIdcode (s : State) : Host.Outcome State Fault Refusal :=
  done (idcodeGo s)

/-- SAMPLE_PRELOAD (R503). -/
def execSamplePreload (shift : BitVec 393) (pins : BitVec 393) (s : State) : Host.Outcome State Fault Refusal :=
  done (extestGo s 0x02 shift pins)

/-- CSREAD (R585). -/
def execCsread (addr : BitVec 40) (s : State) : Host.Outcome State Fault Refusal :=
  done (csreadGo s addr)

/-- BYPASS (R503). -/
def execBypass (tdi : Bool) (s : State) : Host.Outcome State Fault Refusal :=
  done (bypassGo s tdi)

/-- MGMT_LINK_DOWN (R622). -/
def execMgmtLinkDown (m : Fin 2) (s : State) : Host.Outcome State Fault Refusal :=
  done (mgmtDown s m)

/-- MGMT_LINK_UP (R586). -/
def execMgmtLinkUp (m : Fin 2) (s : State) : Host.Outcome State Fault Refusal :=
  done (mgmtUp s m)

/-- TRST_N_LOW (R646). -/
def execTrstNLow (s : State) : Host.Outcome State Fault Refusal :=
  done (trstGo s)

end Sys2Proof.Machine
end

