-- ==== Sys2Proof/Machine/NetRows.lean ====
section
/-! DEFINITION. The rows of the plate network: routers, links, route tables, barriers, power domains, and the map walker. -/
namespace Sys2Proof.Machine

/-- PACKET_HOP (R401). -/
def execPacketHop (i : RouterId) (s : State) : Host.Outcome State Fault Refusal :=
  done (hop s i)

/-- LINK_REPLAY (R409). -/
def execLinkReplay (i : RouterId) (m : Mesh) (l : Fin 8) (s : State) : Host.Outcome State Fault Refusal :=
  done (linkReplay s i m l)

/-- LINK_DOWN (R409). -/
def execLinkDown (i : RouterId) (m : Mesh) (l : Fin 8) (s : State) : Host.Outcome State Fault Refusal :=
  done (linkDown s i m l)

/-- LINK_UP (R410). -/
def execLinkUp (i : RouterId) (m : Mesh) (l : Fin 8) (s : State) : Host.Outcome State Fault Refusal :=
  done (linkUp s i m l)

/-- NET_RTE_WRITE (R403). -/
def execNetRteWrite (i : RouterId) (e : Fin 256) (v : Word) (s : State) : Host.Outcome State Fault Refusal :=
  done (rteWrite s i e v)

/-- BARR (R414). -/
def execBarr (p : Option (Fin 8)) (s : State) : Host.Outcome State Fault Refusal :=
  done (barrTake s p)

/-- BREL (R414). -/
def execBrel (i : HatchId) (s : State) : Host.Outcome State Fault Refusal :=
  done (brelTake s i)

/-- NET_PWR_WRITE (R418). -/
def execNetPwrWrite (p : Fin 8) (v : Word) (s : State) : Host.Outcome State Fault Refusal :=
  done (pwrWrite s p v)

/-- DOMAIN_SLEEP_ENTER (R418). -/
def execDomainSleepEnter (p : Fin 8) (d : Domain) (s : State) : Host.Outcome State Fault Refusal :=
  done (sleepEnter s p d)

/-- DOMAIN_WAKE_COMPLETE (R415). -/
def execDomainWakeComplete (p : Fin 8) (d : Domain) (s : State) : Host.Outcome State Fault Refusal :=
  done (wakeDone s p d)

/-- WALK_COMPLETE (R353). -/
def execWalkComplete (p : Fin 8) (s : State) : Host.Outcome State Fault Refusal :=
  doneWhenServed s (walkDone s p)

end Sys2Proof.Machine
end

