-- ==== Sys2Proof/Machine/NiuriRows.lean ====
section
/-! DEFINITION. The rows of the Niuri ports and of fabric data movement.  A parcel is 256 bytes (R446): a command with another number
of bytes is none. -/
namespace Sys2Proof.Machine

/-- PORT_DETECT (R439). -/
def execPortDetect (k : Fin 10) (s : State) : Host.Outcome State Fault Refusal :=
  done (portDetect s k)

/-- DETECT_PROBE (R421). -/
def execDetectProbe (k : Fin 10) (present : BitVec 16) (s : State) : Host.Outcome State Fault Refusal :=
  done (detectProbe s k present)

/-- DETECT_WIDTH_TIMEOUT (R421). -/
def execDetectWidthTimeout (k : Fin 10) (s : State) : Host.Outcome State Fault Refusal :=
  done (detectWidthTimedOut s k)

/-- TRAIN_TIME_EXPIRE (R438). -/
def execTrainTimeExpire (k : Fin 10) (s : State) : Host.Outcome State Fault Refusal :=
  done (trainExpired s k)

/-- BLOCK_RECEIVE (R432). -/
def execBlockReceive (k : Fin 10) (lane : Fin 16) (symbols : List (Fin 4)) (s : State) : Host.Outcome State Fault Refusal :=
  done (s.atPort k fun s => blockGo s k lane symbols)

/-- AM_BLOCK (R429). -/
def execAmBlock (k : Fin 10) (lane : Fin 16) (payload : BitVec 256) (s : State) : Host.Outcome State Fault Refusal :=
  done (s.atPort k fun s => amGo s k lane.val payload)

/-- MARKER_ROW_SEND (R434). -/
def execMarkerRowSend (k : Fin 10) (s : State) : Host.Outcome State Fault Refusal :=
  done (markerRow s k)

/-- LOCK_TIMEOUT (R437). -/
def execLockTimeout (k : Fin 10) (s : State) : Host.Outcome State Fault Refusal :=
  done (bringUpTimedOut s k 3)

/-- CAP_SEND (R440). -/
def execCapSend (k : Fin 10) (s : State) : Host.Outcome State Fault Refusal :=
  done (s.atPort k fun s => capSend s k)

/-- CAP_BLOCK (R440). -/
def execCapBlock (k : Fin 10) (c : CapMsg) (s : State) : Host.Outcome State Fault Refusal :=
  done (s.atPort k fun s => capGo s k c)

/-- EXCHANGE_TIMEOUT (R440). -/
def execExchangeTimeout (k : Fin 10) (s : State) : Host.Outcome State Fault Refusal :=
  done (bringUpTimedOut s k 4)

/-- ACK_IDLE_NULL (R447). -/
def execAckIdleNull (k : Fin 10) (s : State) : Host.Outcome State Fault Refusal :=
  done (s.atPort k fun s => ackIdle s k)

/-- REPLAY_TIMEOUT (R447). -/
def execReplayTimeout (k : Fin 10) (s : State) : Host.Outcome State Fault Refusal :=
  done (s.atPort k fun s => replayTimedOut s k)

/-- HOLD_EXPIRE (R448). -/
def execHoldExpire (k : Fin 10) (s : State) : Host.Outcome State Fault Refusal :=
  done (holdExpired s k)

/-- NIURI_RETRAIN (R441). -/
def execNiuriRetrain (k : Fin 10) (s : State) : Host.Outcome State Fault Refusal :=
  done (retrainGo s k)

/-- NIURI_ENABLE_WRITE (R448). -/
def execNiuriEnableWrite (k : Fin 10) (v : Word) (s : State) : Host.Outcome State Fault Refusal :=
  done (niuriCfgWrite s k v)

/-- NIURI_LANE_POLL (R56). -/
def execNiuriLanePoll (k : Fin 10) (s : State) : Host.Outcome State Fault Refusal :=
  done (lanePoll s k)

/-- NIURI_PORT_RESET (R457). -/
def execNiuriPortReset (k : Fin 10) (s : State) : Host.Outcome State Fault Refusal :=
  done (if s.mod.busy.contains (0x300 + k.val) then s.discard else portReset s k)

/-- DWRITE (R582). -/
def execDwrite (port : Fin 8) (k : CmsnKey) (body : List Byte) (s : State) : Host.Outcome State Fault Refusal :=
  done (dwriteGo s port k body)

/-- DREAD (R582). -/
def execDread (port : Fin 8) (k : CmsnKey) (body : List Byte) (s : State) : Host.Outcome State Fault Refusal :=
  done (dreadGo s port k body)

/-- PARCEL_RECEIVE (R447). -/
def execParcelReceive (k : Fin 10) (bytes : List Byte) (s : State) : Host.Outcome State Fault Refusal :=
  if bytes.length = 256 then done (s.atPort k fun s => parcelGo s k bytes) else .fault .illFormed

end Sys2Proof.Machine
end

