-- ==== Sys2Proof/Machine/PlanRows.lean ====
section
/-! DEFINITION. The rows of the tile planner, the loader, pre-emption, handle-queue registers and the invalidation of translation
caches. -/
namespace Sys2Proof.Machine

/-- PLAN_LAUNCH (R341). -/
def execPlanLaunch (p : Fin 8) (s : State) : Host.Outcome State Fault Refusal :=
  doneWhenServed s (planGo s p)

/-- PREEMPT_SAVE_COMPLETE (R572). -/
def execPreemptSaveComplete (i : HatchId) (s : State) : Host.Outcome State Fault Refusal :=
  done (saveDone s i)

/-- RESUME (R574). -/
def execResume (k : CmsnKey) (s : State) : Host.Outcome State Fault Refusal :=
  done (resumeGo s k)

/-- LOADER_CHECK (R346). -/
def execLoaderCheck (i : HatchId) (s : State) : Host.Outcome State Fault Refusal :=
  doneWhenServed s (loaderGo s i)

/-- XLT_INVAL_GO (R359). -/
def execXltInvalGo (p : Fin 8) (v : Word) (s : State) : Host.Outcome State Fault Refusal :=
  done (xltGo s p (v ||| (1 <<< 63)))

/-- XLT_INVAL_DONE (R359). -/
def execXltInvalDone (p : Fin 8) (s : State) : Host.Outcome State Fault Refusal :=
  done (invalDone s p)

/-- HQ_TIMEOUT (R337). -/
def execHqTimeout (p : Fin 8) (q : Byte) (s : State) : Host.Outcome State Fault Refusal :=
  done (hqTimedOut s p q.toNat)

/-- HQ_CFG_WRITE (R348). -/
def execHqCfgWrite (p : Fin 8) (q : Byte) (cfg : Bool) (v : Word) (s : State) : Host.Outcome State Fault Refusal :=
  done (if cfg then hqCfgSet s p q.toNat v else hqPoolWrite s p q.toNat v)

/-- HQ_CTL_RESET (R338). -/
def execHqCtlReset (p : Fin 8) (q : Byte) (s : State) : Host.Outcome State Fault Refusal :=
  done (hqResetAll s p q.toNat)

/-- PLAN_BASE_WRITE (R339). -/
def execPlanBaseWrite (p : Fin 8) (v : Word) (s : State) : Host.Outcome State Fault Refusal :=
  done (planBaseSet s p v)

/-- PLAN_KREG_WRITE (R666). -/
def execPlanKregWrite (p : Fin 8) (v : Word) (s : State) : Host.Outcome State Fault Refusal :=
  done (planKregSet s p v)

end Sys2Proof.Machine
end

