-- ==== Sys2Proof/Machine/ScalarRows.lean ====
section
/-! DEFINITION. The rows of the scalar slot: each issues the bundle that holds that one operation. -/
namespace Sys2Proof.Machine

/-- SADD (R260). -/
def execSadd (q : Issuer) (rd ra rb : BitVec 5) (s : State) : Host.Outcome State Fault Refusal :=
  done (s.issueOne q { scalar := .op (.alu 0x01 rd ra rb) })

/-- SSUB (R260). -/
def execSsub (q : Issuer) (rd ra rb : BitVec 5) (s : State) : Host.Outcome State Fault Refusal :=
  done (s.issueOne q { scalar := .op (.alu 0x02 rd ra rb) })

/-- SMUL (R260). -/
def execSmul (q : Issuer) (rd ra rb : BitVec 5) (s : State) : Host.Outcome State Fault Refusal :=
  done (s.issueOne q { scalar := .op (.alu 0x03 rd ra rb) })

/-- SAND (R260). -/
def execSand (q : Issuer) (rd ra rb : BitVec 5) (s : State) : Host.Outcome State Fault Refusal :=
  done (s.issueOne q { scalar := .op (.alu 0x04 rd ra rb) })

/-- SOR (R260). -/
def execSor (q : Issuer) (rd ra rb : BitVec 5) (s : State) : Host.Outcome State Fault Refusal :=
  done (s.issueOne q { scalar := .op (.alu 0x05 rd ra rb) })

/-- SXOR (R260). -/
def execSxor (q : Issuer) (rd ra rb : BitVec 5) (s : State) : Host.Outcome State Fault Refusal :=
  done (s.issueOne q { scalar := .op (.alu 0x06 rd ra rb) })

/-- SSHL (R260). -/
def execSshl (q : Issuer) (rd ra rb : BitVec 5) (s : State) : Host.Outcome State Fault Refusal :=
  done (s.issueOne q { scalar := .op (.alu 0x07 rd ra rb) })

/-- SSHR (R260). -/
def execSshr (q : Issuer) (rd ra rb : BitVec 5) (s : State) : Host.Outcome State Fault Refusal :=
  done (s.issueOne q { scalar := .op (.alu 0x08 rd ra rb) })

/-- SSRA (R260). -/
def execSsra (q : Issuer) (rd ra rb : BitVec 5) (s : State) : Host.Outcome State Fault Refusal :=
  done (s.issueOne q { scalar := .op (.alu 0x09 rd ra rb) })

/-- SMIN (R260). -/
def execSmin (q : Issuer) (rd ra rb : BitVec 5) (s : State) : Host.Outcome State Fault Refusal :=
  done (s.issueOne q { scalar := .op (.alu 0x0A rd ra rb) })

/-- SMAX (R260). -/
def execSmax (q : Issuer) (rd ra rb : BitVec 5) (s : State) : Host.Outcome State Fault Refusal :=
  done (s.issueOne q { scalar := .op (.alu 0x0B rd ra rb) })

/-- SLT (R260). -/
def execSlt (q : Issuer) (rd ra rb : BitVec 5) (s : State) : Host.Outcome State Fault Refusal :=
  done (s.issueOne q { scalar := .op (.alu 0x0C rd ra rb) })

/-- SLTU (R260). -/
def execSltu (q : Issuer) (rd ra rb : BitVec 5) (s : State) : Host.Outcome State Fault Refusal :=
  done (s.issueOne q { scalar := .op (.alu 0x0D rd ra rb) })

/-- SADDI (R260). -/
def execSaddi (q : Issuer) (rd ra : BitVec 5) (imm : BitVec 16) (s : State) : Host.Outcome State Fault Refusal :=
  done (s.issueOne q { scalar := .op (.alui 0x10 rd ra imm) })

/-- SSHLI (R260). -/
def execSshli (q : Issuer) (rd ra : BitVec 5) (imm : BitVec 6) (s : State) : Host.Outcome State Fault Refusal :=
  done (s.issueOne q { scalar := .op (.alui 0x11 rd ra (imm.setWidth 16)) })

/-- SSHRI (R260). -/
def execSshri (q : Issuer) (rd ra : BitVec 5) (imm : BitVec 6) (s : State) : Host.Outcome State Fault Refusal :=
  done (s.issueOne q { scalar := .op (.alui 0x12 rd ra (imm.setWidth 16)) })

/-- SSRAI (R260). -/
def execSsrai (q : Issuer) (rd ra : BitVec 5) (imm : BitVec 6) (s : State) : Host.Outcome State Fault Refusal :=
  done (s.issueOne q { scalar := .op (.alui 0x13 rd ra (imm.setWidth 16)) })

/-- SMINI (R260). -/
def execSmini (q : Issuer) (rd ra : BitVec 5) (imm : BitVec 16) (s : State) : Host.Outcome State Fault Refusal :=
  done (s.issueOne q { scalar := .op (.alui 0x14 rd ra imm) })

/-- SMAXI (R260). -/
def execSmaxi (q : Issuer) (rd ra : BitVec 5) (imm : BitVec 16) (s : State) : Host.Outcome State Fault Refusal :=
  done (s.issueOne q { scalar := .op (.alui 0x15 rd ra imm) })

/-- SBSET (R260). -/
def execSbset (q : Issuer) (rd ra : BitVec 5) (imm : BitVec 6) (s : State) : Host.Outcome State Fault Refusal :=
  done (s.issueOne q { scalar := .op (.alui 0x16 rd ra (imm.setWidth 16)) })

/-- SBCLR (R260). -/
def execSbclr (q : Issuer) (rd ra : BitVec 5) (imm : BitVec 6) (s : State) : Host.Outcome State Fault Refusal :=
  done (s.issueOne q { scalar := .op (.alui 0x17 rd ra (imm.setWidth 16)) })

/-- SMOVI (R260). -/
def execSmovi (q : Issuer) (rd : BitVec 5) (imm : BitVec 16) (s : State) : Host.Outcome State Fault Refusal :=
  done (s.issueOne q { scalar := .op (.alui 0x18 rd 0 imm) })

/-- SINS (R260). -/
def execSins (q : Issuer) (rd : BitVec 5) (hw : BitVec 2) (imm : BitVec 16) (s : State) : Host.Outcome State Fault Refusal :=
  done (s.issueOne q { scalar := .op (.sins rd hw imm) })

/-- SMOVS (R261). -/
def execSmovs (q : Issuer) (rd : BitVec 5) (sel : BitVec 16) (s : State) : Host.Outcome State Fault Refusal :=
  done (s.issueOne q { scalar := .op (.smovs rd sel) })

/-- SETCB (R214). -/
def execSetcb (q : Issuer) (cb : BitVec 3) (ra rb : BitVec 5) (s : State) : Host.Outcome State Fault Refusal :=
  done (s.issueOne q { scalar := .op (.setcb cb ra rb) })

/-- LOOP (R287). -/
def execLoop (q : Issuer) (level : BitVec 2) (rc : BitVec 5) (len : BitVec 12) (s : State) : Host.Outcome State Fault Refusal :=
  done (s.issueOne q { scalar := .op (.loop level rc len) })

/-- LOOPI (R287). -/
def execLoopi (q : Issuer) (level : BitVec 2) (count len : BitVec 12) (s : State) : Host.Outcome State Fault Refusal :=
  done (s.issueOne q { scalar := .op (.loopi level count len) })

/-- BR (R292). -/
def execBr (q : Issuer) (cond : BitVec 3) (ra : BitVec 5) (off : BitVec 18) (s : State) : Host.Outcome State Fault Refusal :=
  done (s.issueOne q { scalar := .op (.br cond ra off) })

end Sys2Proof.Machine
end

