-- ==== Sys2Proof/Machine/StartRows.lean ====
section
/-! DEFINITION. The rows of clocks, limits, power, resets, start-up, the repair record and the steward. -/
namespace Sys2Proof.Machine

/-- CLKMODE_WRITE (R611). -/
def execClkmodeWrite (lim : Bool) (v : Word) (s : State) : Host.Outcome State Fault Refusal :=
  done (clkmodeSet s lim v)

/-- CLOCK_SWITCH (R612). -/
def execClockSwitch (p : Fin 8) (s : State) : Host.Outcome State Fault Refusal :=
  done (clockSwitchGo s p)

/-- POWER_CAP_STEP (R615). -/
def execPowerCapStep (power : BitVec 16) (s : State) : Host.Outcome State Fault Refusal :=
  done (capStep s power)

/-- POWER_CAP_RELEASE (R615). -/
def execPowerCapRelease (power : BitVec 16) (s : State) : Host.Outcome State Fault Refusal :=
  done (capRelease s power)

/-- THERMAL_HOT (R615). -/
def execThermalHot (p : Fin 8) (tj : BitVec 16) (s : State) : Host.Outcome State Fault Refusal :=
  done (hotGo s p tj)

/-- THERMAL_RELEASE (R615). -/
def execThermalRelease (p : Fin 8) (tj : BitVec 16) (s : State) : Host.Outcome State Fault Refusal :=
  done (hotRelease s p tj)

/-- TRIP_PLATE (R615). -/
def execTripPlate (p : Fin 8) (tj : BitVec 16) (s : State) : Host.Outcome State Fault Refusal :=
  done (tripPlateGo s p tj)

/-- TRIP_MODULE (R615). -/
def execTripModule (_p : Fin 8) (s : State) : Host.Outcome State Fault Refusal :=
  done (tripModuleGo s)

/-- PLATE_RESTART (R615). -/
def execPlateRestart (p : Fin 8) (tj : BitVec 16) (s : State) : Host.Outcome State Fault Refusal :=
  done (plateRestartGo s p tj)

/-- LOWIN_ENTER (R640). -/
def execLowinEnter (s : State) : Host.Outcome State Fault Refusal :=
  done (lowinGo s)

/-- LOWIN_RELEASE (R640). -/
def execLowinRelease (s : State) : Host.Outcome State Fault Refusal :=
  done (lowinEnd s)

/-- CLOCK_POLICY (R599). -/
def execClockPolicy (p : Fin 8) (overLimit : Bool) (s : State) : Host.Outcome State Fault Refusal :=
  done (clockPolicyGo s p overLimit)

/-- WDOG_KICK (R577). -/
def execWdogKick (s : State) : Host.Outcome State Fault Refusal :=
  done (kick s)

/-- WDOG_HALF_TIMEOUT (R601). -/
def execWdogHalfTimeout (s : State) : Host.Outcome State Fault Refusal :=
  done (wdogHalf s)

/-- WATCHDOG_EXPIRE (R577). -/
def execWatchdogExpire (s : State) : Host.Outcome State Fault Refusal :=
  done (wdogExpire s)

/-- APP_CORE_ERROR (R575). -/
def execAppCoreError (n : Fin 16) (s : State) : Host.Outcome State Fault Refusal :=
  done (appCoreGo s n)

/-- IDLE_ADAPT (R598). -/
def execIdleAdapt (i : StackId) (hitPercent : Fin 101) (s : State) : Host.Outcome State Fault Refusal :=
  done (idleGo s i hitPercent)

/-- RESET_N_LOW (R620). -/
def execResetNLow (s : State) : Host.Outcome State Fault Refusal :=
  done (resetPin s)

/-- V48_RISE (R617). -/
def execV48Rise (railsOk : Bool) (s : State) : Host.Outcome State Fault Refusal :=
  done (v48Go s railsOk)

/-- INPUT_FAIL (R621). -/
def execInputFail (s : State) : Host.Outcome State Fault Refusal :=
  done (inputLost s)

/-- VAUX33_FAIL (R641). -/
def execVaux33Fail (s : State) : Host.Outcome State Fault Refusal :=
  done (vaux33Lost s)

/-- COLD_HOLD (R659). -/
def execColdHold (s : State) : Host.Outcome State Fault Refusal :=
  done (coldGo s)

/-- SREF_LOSS (R622). -/
def execSrefLoss (s : State) : Host.Outcome State Fault Refusal :=
  done (srefLost s)

/-- LEAVE_RESET (R619). -/
def execLeaveReset (bootsel : BitVec 2) (testkeep : Bool) (s : State) : Host.Outcome State Fault Refusal :=
  done (leaveResetGo s bootsel testkeep)

/-- LREF_LOSS (R622). -/
def execLrefLoss (g : Fin 5) (s : State) : Host.Outcome State Fault Refusal :=
  done (lrefLost s g)

/-- LREF_RETURN (R649). -/
def execLrefReturn (g : Fin 5) (s : State) : Host.Outcome State Fault Refusal :=
  done (lrefBack s g)

/-- MREF_LOSS (R649). -/
def execMrefLoss (s : State) : Host.Outcome State Fault Refusal :=
  done (mrefLost s)

/-- VCCO_LOSS (R644). -/
def execVccoLoss (i : BankId) (s : State) : Host.Outcome State Fault Refusal :=
  done (vccoLost s i)

/-- VCCO_RETURN (R644). -/
def execVccoReturn (i : BankId) (level : Byte) (s : State) : Host.Outcome State Fault Refusal :=
  done (vccoBack s i level)

/-- DRAM_STAGE (R623). -/
def execDramStage (trained : BitVec 32) (controllersOk : Byte) (x : StageSix) (s : State) :
    Host.Outcome State Fault Refusal :=
  done (dramStageGo s trained controllersOk x.reserve x.bad)

/-- STAGE6_TIMEOUT (R625). -/
def execStage6Timeout (s : State) : Host.Outcome State Fault Refusal :=
  done (stage6Late s)

/-- LANES_STAGE_TIMEOUT (R442). -/
def execLanesStageTimeout (s : State) : Host.Outcome State Fault Refusal :=
  done (lanesLate s)

/-- READY (R624). -/
def execReady (elapsed : BitVec 32) (s : State) : Host.Outcome State Fault Refusal :=
  done (startReady s elapsed)

/-- CFG_REPAIRW (R629). -/
def execCfgRepairw (v : Word) (s : State) : Host.Outcome State Fault Refusal :=
  done (repairWrite s v)

/-- REPAIR_RECORD_WRITTEN (R629). -/
def execRepairRecordWritten (s : State) : Host.Outcome State Fault Refusal :=
  done (repairDone s)

/-- HATCH_RESET (R633). -/
def execHatchReset (i : HatchId) (s : State) : Host.Outcome State Fault Refusal :=
  done (if s.mod.busy.contains (0x100 + i.p.val * 0x20 + i.h.val) then s.discard else hatchResetGo s i)

/-- REGION_RESET (R470). -/
def execRegionReset (i : RegionId) (s : State) : Host.Outcome State Fault Refusal :=
  done (if s.mod.busy.contains (0x100 + i.p.val * 0x20 + 0x10 + i.r.val) then s.discard else regionResetGo s i)

/-- MGMT_PORT_RESET (R631). -/
def execMgmtPortReset (m : Fin 2) (s : State) : Host.Outcome State Fault Refusal :=
  done (if s.mod.busy.contains (0x380 + m.val) then s.discard else mgmtReset s m)

/-- FUNC_RESET_COMPLETE (R631). -/
def execFuncResetComplete (index : BitVec 12) (s : State) : Host.Outcome State Fault Refusal :=
  done (resetComplete s index)

/-- STEWARD_INCIDENT (R567). -/
def execStewardIncident (entry : Fin 256) (tests : CoreTests) (faultyRow : Option (BitVec 7)) (s : State) :
    Host.Outcome State Fault Refusal :=
  done (incident s entry tests.pass faultyRow tests.sound)

end Sys2Proof.Machine
end

