-- ==== Sys2Proof/Machine/SyncRows.lean ====
section
/-! DEFINITION. The rows of the sync slot: each issues the bundle that holds that one operation.  With them the rows that act on the
sequencer itself. -/
namespace Sys2Proof.Machine

/-- EVWAIT (R258). -/
def execEvwait (q : Issuer) (e : BitVec 4) (s : State) : Host.Outcome State Fault Refusal :=
  done (s.issueOne q { sync := .op (.evwait e) })

/-- EVSIG (R283). -/
def execEvsig (q : Issuer) (dest : Bool) (e : BitVec 4) (s : State) : Host.Outcome State Fault Refusal :=
  done (s.issueOne q { sync := .op (.evsig dest e) })

/-- BAR_H (R258). -/
def execBarH (q : Issuer) (s : State) : Host.Outcome State Fault Refusal :=
  done (s.issueOne q { sync := .op .barH })

/-- BAR_P (R413). -/
def execBarP (q : Issuer) (g : BitVec 4) (s : State) : Host.Outcome State Fault Refusal :=
  done (s.issueOne q { sync := .op (.barP g) })

/-- BAR_M (R413). -/
def execBarM (q : Issuer) (g : BitVec 4) (s : State) : Host.Outcome State Fault Refusal :=
  done (s.issueOne q { sync := .op (.barM g) })

/-- HQTAKE (R330). -/
def execHqtake (q : Issuer) (sd : BitVec 5) (b : BitVec 4) (s : State) : Host.Outcome State Fault Refusal :=
  done (s.issueOne q { sync := .op (.hqtake sd b) })

/-- HQPUB (R331). -/
def execHqpub (q : Issuer) (sa : BitVec 5) (b : BitVec 4) (s : State) : Host.Outcome State Fault Refusal :=
  done (s.issueOne q { sync := .op (.hqpub sa b) })

/-- HQFREE (R332). -/
def execHqfree (q : Issuer) (sa : BitVec 5) (b : BitVec 4) (s : State) : Host.Outcome State Fault Refusal :=
  done (s.issueOne q { sync := .op (.hqfree sa b) })

/-- TSWAP (R235). -/
def execTswap (q : Issuer) (t : BitVec 2) (s : State) : Host.Outcome State Fault Refusal :=
  done (s.issueOne q { sync := .op (.tswap t) })

/-- TRACE (R298). -/
def execTrace (q : Issuer) (code : BitVec 8) (s : State) : Host.Outcome State Fault Refusal :=
  done (s.issueOne q { sync := .op (.trace code) })

/-- HALT (R222). -/
def execHalt (q : Issuer) (s : State) : Host.Outcome State Fault Refusal :=
  done (s.issueOne q { sync := .op .halt })

/-- END (R286). -/
def execEndOp (q : Issuer) (s : State) : Host.Outcome State Fault Refusal :=
  done (s.issueOne q { sync := .op .endK })

/-- BUNDLE_ISSUE (R25). -/
def execBundleIssue (q : Issuer) (s : State) : Host.Outcome State Fault Refusal :=
  done (s.bundleStep q)

/-- BUNDLE_WAIT_RELEASE (R258). -/
def execBundleWaitRelease (q : Issuer) (s : State) : Host.Outcome State Fault Refusal :=
  done (match (s.seq q).held with | some b => if s.canIssue q then s.tryIssue q b else s | none => s)

/-- BUNDLE_CACHE_FILL (R258). -/
def execBundleCacheFill (i : HatchId) (s : State) : Host.Outcome State Fault Refusal :=
  doneWhenServed s (s.cacheFill i)

/-- RESULT_WRITEBACK (R266). -/
def execResultWriteback (q : Issuer) (s : State) : Host.Outcome State Fault Refusal :=
  done (s.applyCycle q)

/-- BARRIER_TIMEOUT (R285). -/
def execBarrierTimeout (i : HatchId) (s : State) : Host.Outcome State Fault Refusal :=
  done (s.barTimeout i)

end Sys2Proof.Machine
end

