-- ==== Sys2Proof/Machine/VectorRows.lean ====
section
/-! DEFINITION. The rows of the vector slot: each issues the bundle that holds that one operation. -/
namespace Sys2Proof.Machine

/-- VMOV (R205). -/
def execVmov (q : Issuer) (f : VFields) (s : State) : Host.Outcome State Fault Refusal :=
  done (s.issueOne q { vector := .op (0x01, f) })

/-- VBCAST (R205). -/
def execVbcast (q : Issuer) (f : VFields) (s : State) : Host.Outcome State Fault Refusal :=
  done (s.issueOne q { vector := .op (0x02, f) })

/-- VIDX (R205). -/
def execVidx (q : Issuer) (f : VFields) (s : State) : Host.Outcome State Fault Refusal :=
  done (s.issueOne q { vector := .op (0x03, f) })

/-- VSEL (R205). -/
def execVsel (q : Issuer) (f : VFields) (s : State) : Host.Outcome State Fault Refusal :=
  done (s.issueOne q { vector := .op (0x04, f) })

/-- VAND (R205). -/
def execVand (q : Issuer) (f : VFields) (s : State) : Host.Outcome State Fault Refusal :=
  done (s.issueOne q { vector := .op (0x08, f) })

/-- VOR (R205). -/
def execVor (q : Issuer) (f : VFields) (s : State) : Host.Outcome State Fault Refusal :=
  done (s.issueOne q { vector := .op (0x09, f) })

/-- VXOR (R205). -/
def execVxor (q : Issuer) (f : VFields) (s : State) : Host.Outcome State Fault Refusal :=
  done (s.issueOne q { vector := .op (0x0A, f) })

/-- VNOT (R205). -/
def execVnot (q : Issuer) (f : VFields) (s : State) : Host.Outcome State Fault Refusal :=
  done (s.issueOne q { vector := .op (0x0B, f) })

/-- VSHL (R665). -/
def execVshl (q : Issuer) (f : VFields) (s : State) : Host.Outcome State Fault Refusal :=
  done (s.issueOne q { vector := .op (0x0C, f) })

/-- VSHRL (R665). -/
def execVshrl (q : Issuer) (f : VFields) (s : State) : Host.Outcome State Fault Refusal :=
  done (s.issueOne q { vector := .op (0x0D, f) })

/-- VSHRA (R665). -/
def execVshra (q : Issuer) (f : VFields) (s : State) : Host.Outcome State Fault Refusal :=
  done (s.issueOne q { vector := .op (0x0E, f) })

/-- VCMP_EQ (R110). -/
def execVcmpEq (q : Issuer) (f : VFields) (s : State) : Host.Outcome State Fault Refusal :=
  done (s.issueOne q { vector := .op (0x10, f) })

/-- VCMP_NE (R110). -/
def execVcmpNe (q : Issuer) (f : VFields) (s : State) : Host.Outcome State Fault Refusal :=
  done (s.issueOne q { vector := .op (0x11, f) })

/-- VCMP_LT (R110). -/
def execVcmpLt (q : Issuer) (f : VFields) (s : State) : Host.Outcome State Fault Refusal :=
  done (s.issueOne q { vector := .op (0x12, f) })

/-- VCMP_LE (R110). -/
def execVcmpLe (q : Issuer) (f : VFields) (s : State) : Host.Outcome State Fault Refusal :=
  done (s.issueOne q { vector := .op (0x13, f) })

/-- VCMP_GT (R110). -/
def execVcmpGt (q : Issuer) (f : VFields) (s : State) : Host.Outcome State Fault Refusal :=
  done (s.issueOne q { vector := .op (0x14, f) })

/-- VCMP_GE (R110). -/
def execVcmpGe (q : Issuer) (f : VFields) (s : State) : Host.Outcome State Fault Refusal :=
  done (s.issueOne q { vector := .op (0x15, f) })

/-- VADD (R207). -/
def execVadd (q : Issuer) (f : VFields) (s : State) : Host.Outcome State Fault Refusal :=
  done (s.issueOne q { vector := .op (0x18, f) })

/-- VSUB (R207). -/
def execVsub (q : Issuer) (f : VFields) (s : State) : Host.Outcome State Fault Refusal :=
  done (s.issueOne q { vector := .op (0x19, f) })

/-- VABS (R207). -/
def execVabs (q : Issuer) (f : VFields) (s : State) : Host.Outcome State Fault Refusal :=
  done (s.issueOne q { vector := .op (0x1A, f) })

/-- VNEG (R207). -/
def execVneg (q : Issuer) (f : VFields) (s : State) : Host.Outcome State Fault Refusal :=
  done (s.issueOne q { vector := .op (0x1B, f) })

/-- VMAX_P (R108). -/
def execVmaxP (q : Issuer) (f : VFields) (s : State) : Host.Outcome State Fault Refusal :=
  done (s.issueOne q { vector := .op (0x1C, f) })

/-- VMAX_N (R108). -/
def execVmaxN (q : Issuer) (f : VFields) (s : State) : Host.Outcome State Fault Refusal :=
  done (s.issueOne q { vector := .op (0x1D, f) })

/-- VMIN_P (R108). -/
def execVminP (q : Issuer) (f : VFields) (s : State) : Host.Outcome State Fault Refusal :=
  done (s.issueOne q { vector := .op (0x1E, f) })

/-- VMIN_N (R108). -/
def execVminN (q : Issuer) (f : VFields) (s : State) : Host.Outcome State Fault Refusal :=
  done (s.issueOne q { vector := .op (0x1F, f) })

/-- VMUL (R207). -/
def execVmul (q : Issuer) (f : VFields) (s : State) : Host.Outcome State Fault Refusal :=
  done (s.issueOne q { vector := .op (0x20, f) })

/-- VFMA (R207). -/
def execVfma (q : Issuer) (f : VFields) (s : State) : Host.Outcome State Fault Refusal :=
  done (s.issueOne q { vector := .op (0x21, f) })

/-- VFMS (R207). -/
def execVfms (q : Issuer) (f : VFields) (s : State) : Host.Outcome State Fault Refusal :=
  done (s.issueOne q { vector := .op (0x22, f) })

/-- VMULQ (R211). -/
def execVmulq (q : Issuer) (f : VFields) (s : State) : Host.Outcome State Fault Refusal :=
  done (s.issueOne q { vector := .op (0x23, f) })

/-- VCVT (R92). -/
def execVcvt (q : Issuer) (f : VFields) (s : State) : Host.Outcome State Fault Refusal :=
  done (s.issueOne q { vector := .op (0x28, f) })

/-- VROT (R212). -/
def execVrot (q : Issuer) (f : VFields) (s : State) : Host.Outcome State Fault Refusal :=
  done (s.issueOne q { vector := .op (0x30, f) })

/-- VRED_SUM (R213). -/
def execVredSum (q : Issuer) (f : VFields) (s : State) : Host.Outcome State Fault Refusal :=
  done (s.issueOne q { vector := .op (0x31, f) })

/-- VRED_MAX_P (R213). -/
def execVredMaxP (q : Issuer) (f : VFields) (s : State) : Host.Outcome State Fault Refusal :=
  done (s.issueOne q { vector := .op (0x32, f) })

/-- VRED_MAX_N (R213). -/
def execVredMaxN (q : Issuer) (f : VFields) (s : State) : Host.Outcome State Fault Refusal :=
  done (s.issueOne q { vector := .op (0x33, f) })

/-- VRED_MIN_P (R213). -/
def execVredMinP (q : Issuer) (f : VFields) (s : State) : Host.Outcome State Fault Refusal :=
  done (s.issueOne q { vector := .op (0x34, f) })

/-- VRED_MIN_N (R213). -/
def execVredMinN (q : Issuer) (f : VFields) (s : State) : Host.Outcome State Fault Refusal :=
  done (s.issueOne q { vector := .op (0x35, f) })

/-- VTAP (R216). -/
def execVtap (q : Issuer) (f : VFields) (s : State) : Host.Outcome State Fault Refusal :=
  done (s.issueOne q { vector := .op (0x38, f) })

/-- EXP2 (R224). -/
def execExp2 (q : Issuer) (f : VFields) (s : State) : Host.Outcome State Fault Refusal :=
  done (s.issueOne q { vector := .op (0x40, f) })

/-- LOG2 (R224). -/
def execLog2 (q : Issuer) (f : VFields) (s : State) : Host.Outcome State Fault Refusal :=
  done (s.issueOne q { vector := .op (0x41, f) })

/-- RCP (R224). -/
def execRcp (q : Issuer) (f : VFields) (s : State) : Host.Outcome State Fault Refusal :=
  done (s.issueOne q { vector := .op (0x42, f) })

/-- RSQ (R224). -/
def execRsq (q : Issuer) (f : VFields) (s : State) : Host.Outcome State Fault Refusal :=
  done (s.issueOne q { vector := .op (0x43, f) })

/-- SIGM (R224). -/
def execSigm (q : Issuer) (f : VFields) (s : State) : Host.Outcome State Fault Refusal :=
  done (s.issueOne q { vector := .op (0x44, f) })

/-- TANH (R224). -/
def execTanh (q : Issuer) (f : VFields) (s : State) : Host.Outcome State Fault Refusal :=
  done (s.issueOne q { vector := .op (0x45, f) })

/-- GGLU (R224). -/
def execGglu (q : Issuer) (f : VFields) (s : State) : Host.Outcome State Fault Refusal :=
  done (s.issueOne q { vector := .op (0x46, f) })

/-- ERF (R224). -/
def execErf (q : Issuer) (f : VFields) (s : State) : Host.Outcome State Fault Refusal :=
  done (s.issueOne q { vector := .op (0x47, f) })

/-- SINT (R237). -/
def execSint (q : Issuer) (f : VFields) (s : State) : Host.Outcome State Fault Refusal :=
  done (s.issueOne q { vector := .op (0x48, f) })

/-- COST (R237). -/
def execCost (q : Issuer) (f : VFields) (s : State) : Host.Outcome State Fault Refusal :=
  done (s.issueOne q { vector := .op (0x49, f) })

/-- UFN (R232). -/
def execUfn (q : Issuer) (f : VFields) (s : State) : Host.Outcome State Fault Refusal :=
  done (s.issueOne q { vector := .op (0x4A, f) })

/-- POSC_S (R239). -/
def execPoscS (q : Issuer) (f : VFields) (s : State) : Host.Outcome State Fault Refusal :=
  done (s.issueOne q { vector := .op (0x4B, f) })

/-- POSC_C (R239). -/
def execPoscC (q : Issuer) (f : VFields) (s : State) : Host.Outcome State Fault Refusal :=
  done (s.issueOne q { vector := .op (0x4C, f) })

/-- VLUT (R233). -/
def execVlut (q : Issuer) (f : VFields) (s : State) : Host.Outcome State Fault Refusal :=
  done (s.issueOne q { vector := .op (0x4D, f) })

/-- VSTAT_CLR (R240). -/
def execVstatClr (q : Issuer) (f : VFields) (s : State) : Host.Outcome State Fault Refusal :=
  done (s.issueOne q { vector := .op (0x50, f) })

/-- VSTAT_ADD (R242). -/
def execVstatAdd (q : Issuer) (f : VFields) (s : State) : Host.Outcome State Fault Refusal :=
  done (s.issueOne q { vector := .op (0x51, f) })

/-- VSTAT_MEAN (R245). -/
def execVstatMean (q : Issuer) (f : VFields) (s : State) : Host.Outcome State Fault Refusal :=
  done (s.issueOne q { vector := .op (0x52, f) })

/-- VSTAT_VAR (R245). -/
def execVstatVar (q : Issuer) (f : VFields) (s : State) : Host.Outcome State Fault Refusal :=
  done (s.issueOne q { vector := .op (0x53, f) })

/-- VSTAT_MERGE (R243). -/
def execVstatMerge (q : Issuer) (f : VFields) (s : State) : Host.Outcome State Fault Refusal :=
  done (s.issueOne q { vector := .op (0x54, f) })

/-- PAND (R274). -/
def execPand (q : Issuer) (f : VFields) (s : State) : Host.Outcome State Fault Refusal :=
  done (s.issueOne q { vector := .op (0x60, f) })

/-- POR (R274). -/
def execPor (q : Issuer) (f : VFields) (s : State) : Host.Outcome State Fault Refusal :=
  done (s.issueOne q { vector := .op (0x61, f) })

/-- PXOR (R274). -/
def execPxor (q : Issuer) (f : VFields) (s : State) : Host.Outcome State Fault Refusal :=
  done (s.issueOne q { vector := .op (0x62, f) })

/-- PNOT (R274). -/
def execPnot (q : Issuer) (f : VFields) (s : State) : Host.Outcome State Fault Refusal :=
  done (s.issueOne q { vector := .op (0x63, f) })

/-- PFIRST (R274). -/
def execPfirst (q : Issuer) (f : VFields) (s : State) : Host.Outcome State Fault Refusal :=
  done (s.issueOne q { vector := .op (0x64, f) })

end Sys2Proof.Machine
end

