-- ==== Sys2Proof/Machine/Dispatch.lean ====
section
/-! DEFINITION. One arm per command of the table: a call of its meaning. -/
namespace Sys2Proof.Machine

/-- The effect of a command on everything but the queue. -/
def exec (i : Instr) (s : State) : Host.Outcome State Fault Refusal :=
  match i with
  | .registerWrite src addr size v => Sys2Proof.Machine.execRegisterWrite src addr size v s
  | .w1cClear addr hwSet => Sys2Proof.Machine.execW1cClear addr hwSet s
  | .hatchEncclr ix clr arriving => Sys2Proof.Machine.execHatchEncclr ix clr arriving s
  | .coreRowmapWrite ix reg v => Sys2Proof.Machine.execCoreRowmapWrite ix reg v s
  | .mxtestStart ix => Sys2Proof.Machine.execMxtestStart ix s
  | .mxtestDone ix faulty otherFault => Sys2Proof.Machine.execMxtestDone ix faulty otherFault s
  | .sactlStart ix entry keep kx4 => Sys2Proof.Machine.execSactlStart ix entry keep kx4 s
  | .sactlHalt ix => Sys2Proof.Machine.execSactlHalt ix s
  | .hatchLaunchWrite ix v => Sys2Proof.Machine.execHatchLaunchWrite ix v s
  | .hatchCoresWrite ix v => Sys2Proof.Machine.execHatchCoresWrite ix v s
  | .hatchTracebaseWrite ix v => Sys2Proof.Machine.execHatchTracebaseWrite ix v s
  | .bundleIssue q => Sys2Proof.Machine.execBundleIssue q s
  | .bundleWaitRelease q => Sys2Proof.Machine.execBundleWaitRelease q s
  | .bundleCacheFill ix => Sys2Proof.Machine.execBundleCacheFill ix s
  | .resultWriteback q => Sys2Proof.Machine.execResultWriteback q s
  | .sadd q rd ra rb => Sys2Proof.Machine.execSadd q rd ra rb s
  | .ssub q rd ra rb => Sys2Proof.Machine.execSsub q rd ra rb s
  | .smul q rd ra rb => Sys2Proof.Machine.execSmul q rd ra rb s
  | .sand q rd ra rb => Sys2Proof.Machine.execSand q rd ra rb s
  | .sor q rd ra rb => Sys2Proof.Machine.execSor q rd ra rb s
  | .sxor q rd ra rb => Sys2Proof.Machine.execSxor q rd ra rb s
  | .sshl q rd ra rb => Sys2Proof.Machine.execSshl q rd ra rb s
  | .sshr q rd ra rb => Sys2Proof.Machine.execSshr q rd ra rb s
  | .ssra q rd ra rb => Sys2Proof.Machine.execSsra q rd ra rb s
  | .smin q rd ra rb => Sys2Proof.Machine.execSmin q rd ra rb s
  | .smax q rd ra rb => Sys2Proof.Machine.execSmax q rd ra rb s
  | .slt q rd ra rb => Sys2Proof.Machine.execSlt q rd ra rb s
  | .sltu q rd ra rb => Sys2Proof.Machine.execSltu q rd ra rb s
  | .saddi q rd ra imm => Sys2Proof.Machine.execSaddi q rd ra imm s
  | .sshli q rd ra imm => Sys2Proof.Machine.execSshli q rd ra imm s
  | .sshri q rd ra imm => Sys2Proof.Machine.execSshri q rd ra imm s
  | .ssrai q rd ra imm => Sys2Proof.Machine.execSsrai q rd ra imm s
  | .smini q rd ra imm => Sys2Proof.Machine.execSmini q rd ra imm s
  | .smaxi q rd ra imm => Sys2Proof.Machine.execSmaxi q rd ra imm s
  | .sbset q rd ra imm => Sys2Proof.Machine.execSbset q rd ra imm s
  | .sbclr q rd ra imm => Sys2Proof.Machine.execSbclr q rd ra imm s
  | .smovi q rd imm => Sys2Proof.Machine.execSmovi q rd imm s
  | .sins q rd hw imm => Sys2Proof.Machine.execSins q rd hw imm s
  | .smovs q rd sel => Sys2Proof.Machine.execSmovs q rd sel s
  | .setcb q cb ra rb => Sys2Proof.Machine.execSetcb q cb ra rb s
  | .loop q level rc len => Sys2Proof.Machine.execLoop q level rc len s
  | .loopi q level count len => Sys2Proof.Machine.execLoopi q level count len s
  | .br q cond ra off => Sys2Proof.Machine.execBr q cond ra off s
  | .vmov q f => Sys2Proof.Machine.execVmov q f s
  | .vbcast q f => Sys2Proof.Machine.execVbcast q f s
  | .vidx q f => Sys2Proof.Machine.execVidx q f s
  | .vsel q f => Sys2Proof.Machine.execVsel q f s
  | .vand q f => Sys2Proof.Machine.execVand q f s
  | .vor q f => Sys2Proof.Machine.execVor q f s
  | .vxor q f => Sys2Proof.Machine.execVxor q f s
  | .vnot q f => Sys2Proof.Machine.execVnot q f s
  | .vshl q f => Sys2Proof.Machine.execVshl q f s
  | .vshrl q f => Sys2Proof.Machine.execVshrl q f s
  | .vshra q f => Sys2Proof.Machine.execVshra q f s
  | .vcmpEq q f => Sys2Proof.Machine.execVcmpEq q f s
  | .vcmpNe q f => Sys2Proof.Machine.execVcmpNe q f s
  | .vcmpLt q f => Sys2Proof.Machine.execVcmpLt q f s
  | .vcmpLe q f => Sys2Proof.Machine.execVcmpLe q f s
  | .vcmpGt q f => Sys2Proof.Machine.execVcmpGt q f s
  | .vcmpGe q f => Sys2Proof.Machine.execVcmpGe q f s
  | .vadd q f => Sys2Proof.Machine.execVadd q f s
  | .vsub q f => Sys2Proof.Machine.execVsub q f s
  | .vabs q f => Sys2Proof.Machine.execVabs q f s
  | .vneg q f => Sys2Proof.Machine.execVneg q f s
  | .vmaxP q f => Sys2Proof.Machine.execVmaxP q f s
  | .vmaxN q f => Sys2Proof.Machine.execVmaxN q f s
  | .vminP q f => Sys2Proof.Machine.execVminP q f s
  | .vminN q f => Sys2Proof.Machine.execVminN q f s
  | .vmul q f => Sys2Proof.Machine.execVmul q f s
  | .vfma q f => Sys2Proof.Machine.execVfma q f s
  | .vfms q f => Sys2Proof.Machine.execVfms q f s
  | .vmulq q f => Sys2Proof.Machine.execVmulq q f s
  | .vcvt q f => Sys2Proof.Machine.execVcvt q f s
  | .vrot q f => Sys2Proof.Machine.execVrot q f s
  | .vredSum q f => Sys2Proof.Machine.execVredSum q f s
  | .vredMaxP q f => Sys2Proof.Machine.execVredMaxP q f s
  | .vredMaxN q f => Sys2Proof.Machine.execVredMaxN q f s
  | .vredMinP q f => Sys2Proof.Machine.execVredMinP q f s
  | .vredMinN q f => Sys2Proof.Machine.execVredMinN q f s
  | .vtap q f => Sys2Proof.Machine.execVtap q f s
  | .exp2 q f => Sys2Proof.Machine.execExp2 q f s
  | .log2 q f => Sys2Proof.Machine.execLog2 q f s
  | .rcp q f => Sys2Proof.Machine.execRcp q f s
  | .rsq q f => Sys2Proof.Machine.execRsq q f s
  | .sigm q f => Sys2Proof.Machine.execSigm q f s
  | .tanh q f => Sys2Proof.Machine.execTanh q f s
  | .gglu q f => Sys2Proof.Machine.execGglu q f s
  | .erf q f => Sys2Proof.Machine.execErf q f s
  | .sint q f => Sys2Proof.Machine.execSint q f s
  | .cost q f => Sys2Proof.Machine.execCost q f s
  | .ufn q f => Sys2Proof.Machine.execUfn q f s
  | .poscS q f => Sys2Proof.Machine.execPoscS q f s
  | .poscC q f => Sys2Proof.Machine.execPoscC q f s
  | .vlut q f => Sys2Proof.Machine.execVlut q f s
  | .vstatClr q f => Sys2Proof.Machine.execVstatClr q f s
  | .vstatAdd q f => Sys2Proof.Machine.execVstatAdd q f s
  | .vstatMean q f => Sys2Proof.Machine.execVstatMean q f s
  | .vstatVar q f => Sys2Proof.Machine.execVstatVar q f s
  | .vstatMerge q f => Sys2Proof.Machine.execVstatMerge q f s
  | .pand q f => Sys2Proof.Machine.execPand q f s
  | .por q f => Sys2Proof.Machine.execPor q f s
  | .pxor q f => Sys2Proof.Machine.execPxor q f s
  | .pnot q f => Sys2Proof.Machine.execPnot q f s
  | .pfirst q f => Sys2Proof.Machine.execPfirst q f s
  | .vld q f => Sys2Proof.Machine.execVld q f s
  | .sld q f => Sys2Proof.Machine.execSld q f s
  | .pld q f => Sys2Proof.Machine.execPld q f s
  | .tload q f => Sys2Proof.Machine.execTload q f s
  | .tloadComplete ix => Sys2Proof.Machine.execTloadComplete ix s
  | .vstatLoad q f => Sys2Proof.Machine.execVstatLoad q f s
  | .vstatLoadm q f => Sys2Proof.Machine.execVstatLoadm q f s
  | .vst q f => Sys2Proof.Machine.execVst q f s
  | .vstE q se f => Sys2Proof.Machine.execVstE q se f s
  | .sst q f => Sys2Proof.Machine.execSst q f s
  | .pst q f => Sys2Proof.Machine.execPst q f s
  | .vstatSave q f => Sys2Proof.Machine.execVstatSave q f s
  | .fget q sd => Sys2Proof.Machine.execFget q sd s
  | .fput q sd => Sys2Proof.Machine.execFput q sd s
  | .fring q sd => Sys2Proof.Machine.execFring q sd s
  | .fdrop q => Sys2Proof.Machine.execFdrop q s
  | .fetchRequestIssue ix => Sys2Proof.Machine.execFetchRequestIssue ix s
  | .transferCreditTake ix => Sys2Proof.Machine.execTransferCreditTake ix s
  | .fetchResponse ix => Sys2Proof.Machine.execFetchResponse ix s
  | .fringTileArrive ix => Sys2Proof.Machine.execFringTileArrive ix s
  | .epochAdvance ix => Sys2Proof.Machine.execEpochAdvance ix s
  | .mwload q f => Sys2Proof.Machine.execMwload q f s
  | .mpass q f => Sys2Proof.Machine.execMpass q f s
  | .matrixOpStart ix => Sys2Proof.Machine.execMatrixOpStart ix s
  | .weightLoadComplete ix => Sys2Proof.Machine.execWeightLoadComplete ix s
  | .mpassComplete ix => Sys2Proof.Machine.execMpassComplete ix s
  | .aclr q f => Sys2Proof.Machine.execAclr q f s
  | .asave q f => Sys2Proof.Machine.execAsave q f s
  | .aload q f => Sys2Proof.Machine.execAload q f s
  | .achainSend q f => Sys2Proof.Machine.execAchainSend q f s
  | .achainRecv q f => Sys2Proof.Machine.execAchainRecv q f s
  | .chainBlockArrive ix => Sys2Proof.Machine.execChainBlockArrive ix s
  | .chainTimeout ix => Sys2Proof.Machine.execChainTimeout ix s
  | .fdrain q f => Sys2Proof.Machine.execFdrain q f s
  | .vdrain q f => Sys2Proof.Machine.execVdrain q f s
  | .sreset q f => Sys2Proof.Machine.execSreset q f s
  | .softmaxSmax q f => Sys2Proof.Machine.execSoftmaxSmax q f s
  | .sexp q f => Sys2Proof.Machine.execSexp q f s
  | .sscale q f => Sys2Proof.Machine.execSscale q f s
  | .sfin q f => Sys2Proof.Machine.execSfin q f s
  | .drainOpStart ix => Sys2Proof.Machine.execDrainOpStart ix s
  | .drainOpComplete ix u => Sys2Proof.Machine.execDrainOpComplete ix u s
  | .evwait q e => Sys2Proof.Machine.execEvwait q e s
  | .evsig q dest e => Sys2Proof.Machine.execEvsig q dest e s
  | .evsigDeliver ix => Sys2Proof.Machine.execEvsigDeliver ix s
  | .barH q => Sys2Proof.Machine.execBarH q s
  | .barP q g => Sys2Proof.Machine.execBarP q g s
  | .barM q g => Sys2Proof.Machine.execBarM q g s
  | .barrierTimeout ix => Sys2Proof.Machine.execBarrierTimeout ix s
  | .hqtake q sd b => Sys2Proof.Machine.execHqtake q sd b s
  | .hqpub q sa b => Sys2Proof.Machine.execHqpub q sa b s
  | .hqfree q sa b => Sys2Proof.Machine.execHqfree q sa b s
  | .tswap q t => Sys2Proof.Machine.execTswap q t s
  | .trace q code => Sys2Proof.Machine.execTrace q code s
  | .halt q => Sys2Proof.Machine.execHalt q s
  | .endOp q => Sys2Proof.Machine.execEndOp q s
  | .coreCvctlStart ix v => Sys2Proof.Machine.execCoreCvctlStart ix v s
  | .cvRunComplete ix => Sys2Proof.Machine.execCvRunComplete ix s
  | .commission port k body => Sys2Proof.Machine.execCommission port k body s
  | .tieTimeout k => Sys2Proof.Machine.execTieTimeout k s
  | .proofSlotOpen k => Sys2Proof.Machine.execProofSlotOpen k s
  | .planLaunch p => Sys2Proof.Machine.execPlanLaunch p s
  | .preemptSaveComplete ix => Sys2Proof.Machine.execPreemptSaveComplete ix s
  | .resume k => Sys2Proof.Machine.execResume k s
  | .loaderCheck ix => Sys2Proof.Machine.execLoaderCheck ix s
  | .stewardRelease k => Sys2Proof.Machine.execStewardRelease k s
  | .stewardFaultResolve k r => Sys2Proof.Machine.execStewardFaultResolve k r s
  | .commitStart k => Sys2Proof.Machine.execCommitStart k s
  | .commitResend k => Sys2Proof.Machine.execCommitResend k s
  | .completionAcked k => Sys2Proof.Machine.execCompletionAcked k s
  | .proofStateSync p => Sys2Proof.Machine.execProofStateSync p s
  | .cmsnCancelGo k => Sys2Proof.Machine.execCmsnCancelGo k s
  | .journal r => Sys2Proof.Machine.execJournal r s
  | .jack hi => Sys2Proof.Machine.execJack hi s
  | .mirror w => Sys2Proof.Machine.execMirror w s
  | .mack granule => Sys2Proof.Machine.execMack granule s
  | .heartbeatSend => Sys2Proof.Machine.execHeartbeatSend s
  | .heartbeat h => Sys2Proof.Machine.execHeartbeat h s
  | .heartbeatLoss => Sys2Proof.Machine.execHeartbeatLoss s
  | .pairPropose m => Sys2Proof.Machine.execPairPropose m s
  | .pairAgree m => Sys2Proof.Machine.execPairAgree m s
  | .pairRefuse m => Sys2Proof.Machine.execPairRefuse m s
  | .pairReady m => Sys2Proof.Machine.execPairReady m s
  | .durableCopyComplete => Sys2Proof.Machine.execDurableCopyComplete s
  | .pairDetach m => Sys2Proof.Machine.execPairDetach m s
  | .pairDetached m => Sys2Proof.Machine.execPairDetached m s
  | .pairTimeout => Sys2Proof.Machine.execPairTimeout s
  | .detachTimeout => Sys2Proof.Machine.execDetachTimeout s
  | .fence t => Sys2Proof.Machine.execFence t s
  | .faultRecord => Sys2Proof.Machine.execFaultRecord s
  | .faultWindowEnd => Sys2Proof.Machine.execFaultWindowEnd s
  | .gfcRelease => Sys2Proof.Machine.execGfcRelease s
  | .stewardIncident entry tests faultyRow => Sys2Proof.Machine.execStewardIncident entry tests faultyRow s
  | .stewardRouteRewrite ix e => Sys2Proof.Machine.execStewardRouteRewrite ix e s
  | .pageInComplete granule => Sys2Proof.Machine.execPageInComplete granule s
  | .walkComplete p => Sys2Proof.Machine.execWalkComplete p s
  | .xltInvalGo p v => Sys2Proof.Machine.execXltInvalGo p v s
  | .xltInvalDone p => Sys2Proof.Machine.execXltInvalDone p s
  | .dramSchedule ix ch => Sys2Proof.Machine.execDramSchedule ix ch s
  | .panicDeadlineMiss ix port cycles => Sys2Proof.Machine.execPanicDeadlineMiss ix port cycles s
  | .pageIdleClose ix ch sid bank => Sys2Proof.Machine.execPageIdleClose ix ch sid bank s
  | .refresh ix temp => Sys2Proof.Machine.execRefresh ix temp s
  | .patrolRead ix => Sys2Proof.Machine.execPatrolRead ix s
  | .stackRetireGo ix v => Sys2Proof.Machine.execStackRetireGo ix v s
  | .rowRetireComplete ix => Sys2Proof.Machine.execRowRetireComplete ix s
  | .stackResetComplete ix trained => Sys2Proof.Machine.execStackResetComplete ix trained s
  | .packetHop ix => Sys2Proof.Machine.execPacketHop ix s
  | .linkReplay ix m l => Sys2Proof.Machine.execLinkReplay ix m l s
  | .linkDown ix m l => Sys2Proof.Machine.execLinkDown ix m l s
  | .linkUp ix m l => Sys2Proof.Machine.execLinkUp ix m l s
  | .responseTimeout a tag => Sys2Proof.Machine.execResponseTimeout a tag s
  | .netRteWrite ix e v => Sys2Proof.Machine.execNetRteWrite ix e v s
  | .barr p => Sys2Proof.Machine.execBarr p s
  | .brel ix => Sys2Proof.Machine.execBrel ix s
  | .netPwrWrite p v => Sys2Proof.Machine.execNetPwrWrite p v s
  | .domainSleepEnter p d => Sys2Proof.Machine.execDomainSleepEnter p d s
  | .domainWakeComplete p d => Sys2Proof.Machine.execDomainWakeComplete p d s
  | .portDetect k => Sys2Proof.Machine.execPortDetect k s
  | .detectProbe k present => Sys2Proof.Machine.execDetectProbe k present s
  | .detectWidthTimeout k => Sys2Proof.Machine.execDetectWidthTimeout k s
  | .trainTimeExpire k => Sys2Proof.Machine.execTrainTimeExpire k s
  | .blockReceive k lane symbols => Sys2Proof.Machine.execBlockReceive k lane symbols s
  | .amBlock k lane payload => Sys2Proof.Machine.execAmBlock k lane payload s
  | .markerRowSend k => Sys2Proof.Machine.execMarkerRowSend k s
  | .lockTimeout k => Sys2Proof.Machine.execLockTimeout k s
  | .capSend k => Sys2Proof.Machine.execCapSend k s
  | .capBlock k c => Sys2Proof.Machine.execCapBlock k c s
  | .exchangeTimeout k => Sys2Proof.Machine.execExchangeTimeout k s
  | .parcelReceive k bytes => Sys2Proof.Machine.execParcelReceive k bytes s
  | .ackIdleNull k => Sys2Proof.Machine.execAckIdleNull k s
  | .replayTimeout k => Sys2Proof.Machine.execReplayTimeout k s
  | .holdExpire k => Sys2Proof.Machine.execHoldExpire k s
  | .niuriRetrain k => Sys2Proof.Machine.execNiuriRetrain k s
  | .niuriEnableWrite k v => Sys2Proof.Machine.execNiuriEnableWrite k v s
  | .niuriLanePoll k => Sys2Proof.Machine.execNiuriLanePoll k s
  | .dwrite port k body => Sys2Proof.Machine.execDwrite port k body s
  | .dread port k body => Sys2Proof.Machine.execDread port k body s
  | .regionNetRd ix addr tag => Sys2Proof.Machine.execRegionNetRd ix addr tag s
  | .regionNetWr ix addr data en tag => Sys2Proof.Machine.execRegionNetWr ix addr data en tag s
  | .regionHqtake ix b => Sys2Proof.Machine.execRegionHqtake ix b s
  | .regionHqpub ix b handle => Sys2Proof.Machine.execRegionHqpub ix b handle s
  | .regionHqfree ix b handle => Sys2Proof.Machine.execRegionHqfree ix b handle s
  | .hqTimeout p q => Sys2Proof.Machine.execHqTimeout p q s
  | .hqCfgWrite p q cfg v => Sys2Proof.Machine.execHqCfgWrite p q cfg v s
  | .hqCtlReset p q => Sys2Proof.Machine.execHqCtlReset p q s
  | .planBaseWrite p v => Sys2Proof.Machine.execPlanBaseWrite p v s
  | .planKregWrite p v => Sys2Proof.Machine.execPlanKregWrite p v s
  | .userCtlAccess ix off write v => Sys2Proof.Machine.execUserCtlAccess ix off write v s
  | .userCtlTimeout ix => Sys2Proof.Machine.execUserCtlTimeout ix s
  | .marginRamAccess ix block a b within150 bFirst => Sys2Proof.Machine.execMarginRamAccess ix block a b within150 bFirst s
  | .gateReqWrite ix v => Sys2Proof.Machine.execGateReqWrite ix v s
  | .mrgClkWrite ix n v => Sys2Proof.Machine.execMrgClkWrite ix n v s
  | .clkgenLock ix n => Sys2Proof.Machine.execClkgenLock ix n s
  | .mrgQbindWrite ix v => Sys2Proof.Machine.execMrgQbindWrite ix v s
  | .icpStart ix => Sys2Proof.Machine.execIcpStart ix s
  | .icpUserStart ix addr => Sys2Proof.Machine.execIcpUserStart ix addr s
  | .manifestCheck ix => Sys2Proof.Machine.execManifestCheck ix s
  | .partialRecordFetch ix => Sys2Proof.Machine.execPartialRecordFetch ix s
  | .partialLoadComplete ix => Sys2Proof.Machine.execPartialLoadComplete ix s
  | .scrubFrameCheck p minority => Sys2Proof.Machine.execScrubFrameCheck p minority s
  | .sweepWatch p => Sys2Proof.Machine.execSweepWatch p s
  | .hatchReset ix => Sys2Proof.Machine.execHatchReset ix s
  | .stackReset ix => Sys2Proof.Machine.execStackReset ix s
  | .regionReset ix => Sys2Proof.Machine.execRegionReset ix s
  | .scrubberReset p => Sys2Proof.Machine.execScrubberReset p s
  | .niuriPortReset k => Sys2Proof.Machine.execNiuriPortReset k s
  | .mgmtPortReset m => Sys2Proof.Machine.execMgmtPortReset m s
  | .cmsnEngineReset => Sys2Proof.Machine.execCmsnEngineReset s
  | .funcResetComplete index => Sys2Proof.Machine.execFuncResetComplete index s
  | .clkmodeWrite lim v => Sys2Proof.Machine.execClkmodeWrite lim v s
  | .clockSwitch p => Sys2Proof.Machine.execClockSwitch p s
  | .powerCapStep power => Sys2Proof.Machine.execPowerCapStep power s
  | .powerCapRelease power => Sys2Proof.Machine.execPowerCapRelease power s
  | .thermalHot p tj => Sys2Proof.Machine.execThermalHot p tj s
  | .thermalRelease p tj => Sys2Proof.Machine.execThermalRelease p tj s
  | .tripPlate p tj => Sys2Proof.Machine.execTripPlate p tj s
  | .tripModule p => Sys2Proof.Machine.execTripModule p s
  | .plateRestart p tj => Sys2Proof.Machine.execPlateRestart p tj s
  | .lowinEnter => Sys2Proof.Machine.execLowinEnter s
  | .lowinRelease => Sys2Proof.Machine.execLowinRelease s
  | .v48Rise railsOk => Sys2Proof.Machine.execV48Rise railsOk s
  | .inputFail => Sys2Proof.Machine.execInputFail s
  | .vaux33Fail => Sys2Proof.Machine.execVaux33Fail s
  | .vaux18Fail => Sys2Proof.Machine.execVaux18Fail s
  | .vccoLoss ix => Sys2Proof.Machine.execVccoLoss ix s
  | .vccoReturn ix level => Sys2Proof.Machine.execVccoReturn ix level s
  | .srefLoss => Sys2Proof.Machine.execSrefLoss s
  | .coldHold => Sys2Proof.Machine.execColdHold s
  | .resetNLow => Sys2Proof.Machine.execResetNLow s
  | .leaveReset bootsel testkeep => Sys2Proof.Machine.execLeaveReset bootsel testkeep s
  | .bootRomStart answers flashOk => Sys2Proof.Machine.execBootRomStart answers flashOk s
  | .plateCmd p => Sys2Proof.Machine.execPlateCmd p s
  | .frame addr data => Sys2Proof.Machine.execFrame addr data s
  | .frames first data => Sys2Proof.Machine.execFrames first data s
  | .repeatCmd data addrs => Sys2Proof.Machine.execRepeatCmd data addrs s
  | .zero n first => Sys2Proof.Machine.execZero n first s
  | .region r win => Sys2Proof.Machine.execRegion r win s
  | .blob dram dest data => Sys2Proof.Machine.execBlob dram dest data s
  | .reg addr v => Sys2Proof.Machine.execReg addr v s
  | .svapinEnd arg rest => Sys2Proof.Machine.execSvapinEnd arg rest s
  | .buildSweep => Sys2Proof.Machine.execBuildSweep s
  | .dramStage trained controllersOk x => Sys2Proof.Machine.execDramStage trained controllersOk x s
  | .stage6Timeout => Sys2Proof.Machine.execStage6Timeout s
  | .lanesStageTimeout => Sys2Proof.Machine.execLanesStageTimeout s
  | .ready elapsed => Sys2Proof.Machine.execReady elapsed s
  | .wdogKick => Sys2Proof.Machine.execWdogKick s
  | .watchdogExpire => Sys2Proof.Machine.execWatchdogExpire s
  | .appCoreError n => Sys2Proof.Machine.execAppCoreError n s
  | .cfgRepairw v => Sys2Proof.Machine.execCfgRepairw v s
  | .repairRecordWritten => Sys2Proof.Machine.execRepairRecordWritten s
  | .idleAdapt ix hitPercent => Sys2Proof.Machine.execIdleAdapt ix hitPercent s
  | .clockPolicy p overLimit => Sys2Proof.Machine.execClockPolicy p overLimit s
  | .telIntervalEnd => Sys2Proof.Machine.execTelIntervalEnd s
  | .subscriberPush => Sys2Proof.Machine.execSubscriberPush s
  | .mgmtDatagramInvalid f bytes => Sys2Proof.Machine.execMgmtDatagramInvalid f bytes s
  | .arpRequest m target => Sys2Proof.Machine.execArpRequest m target s
  | .ndRequest m target => Sys2Proof.Machine.execNdRequest m target s
  | .echoRequest m target payload => Sys2Proof.Machine.execEchoRequest m target payload s
  | .ident r => Sys2Proof.Machine.execIdent r s
  | .status r => Sys2Proof.Machine.execStatus r s
  | .regrd r addrs => Sys2Proof.Machine.execRegrd r addrs s
  | .regwr r writes => Sys2Proof.Machine.execRegwr r writes s
  | .telem r items => Sys2Proof.Machine.execTelem r items s
  | .subscribe r slot udp mask period items => Sys2Proof.Machine.execSubscribe r slot udp mask period items s
  | .evlog r first count => Sys2Proof.Machine.execEvlog r first count s
  | .imgBegin r flash len abort => Sys2Proof.Machine.execImgBegin r flash len abort s
  | .imgData r off data => Sys2Proof.Machine.execImgData r off data s
  | .imgEnd r => Sys2Proof.Machine.execImgEnd r s
  | .imgProgramComplete readbackOk => Sys2Proof.Machine.execImgProgramComplete readbackOk s
  | .uploadTimeout => Sys2Proof.Machine.execUploadTimeout s
  | .imgStatus r => Sys2Proof.Machine.execImgStatus r s
  | .resetCmd r mid => Sys2Proof.Machine.execResetCmd r mid s
  | .mgmtFence r mid => Sys2Proof.Machine.execMgmtFence r mid s
  | .token r t => Sys2Proof.Machine.execToken r t s
  | .faultnClear r => Sys2Proof.Machine.execFaultnClear r s
  | .attach r => Sys2Proof.Machine.execAttach r s
  | .detach r => Sys2Proof.Machine.execDetach r s
  | .durDeclare r first count => Sys2Proof.Machine.execDurDeclare r first count s
  | .durWithdraw r region => Sys2Proof.Machine.execDurWithdraw r region s
  | .durStatus r => Sys2Proof.Machine.execDurStatus r s
  | .cancel r k => Sys2Proof.Machine.execCancel r k s
  | .streamClose r stream => Sys2Proof.Machine.execStreamClose r stream s
  | .policyGet r ids => Sys2Proof.Machine.execPolicyGet r ids s
  | .policySet r sets => Sys2Proof.Machine.execPolicySet r sets s
  | .dbglaneStatus r => Sys2Proof.Machine.execDbglaneStatus r s
  | .dbglanePrbs13q r => Sys2Proof.Machine.execDbglanePrbs13q r s
  | .dbglanePrbs31q r => Sys2Proof.Machine.execDbglanePrbs31q r s
  | .dbglaneStop r => Sys2Proof.Machine.execDbglaneStop r s
  | .extest shift pins => Sys2Proof.Machine.execExtest shift pins s
  | .idcode => Sys2Proof.Machine.execIdcode s
  | .samplePreload shift pins => Sys2Proof.Machine.execSamplePreload shift pins s
  | .csread addr => Sys2Proof.Machine.execCsread addr s
  | .bypass tdi => Sys2Proof.Machine.execBypass tdi s
  | .lrefLoss g => Sys2Proof.Machine.execLrefLoss g s
  | .lrefReturn g => Sys2Proof.Machine.execLrefReturn g s
  | .mrefLoss => Sys2Proof.Machine.execMrefLoss s
  | .mgmtLinkDown m => Sys2Proof.Machine.execMgmtLinkDown m s
  | .mgmtLinkUp m => Sys2Proof.Machine.execMgmtLinkUp m s
  | .userCtlAnswer ix v => Sys2Proof.Machine.execUserCtlAnswer ix v s
  | .userPanicInput ix level => Sys2Proof.Machine.execUserPanicInput ix level s
  | .wdogHalfTimeout => Sys2Proof.Machine.execWdogHalfTimeout s
  | .trstNLow => Sys2Proof.Machine.execTrstNLow s

end Sys2Proof.Machine
end

