-- ==== Sys2Proof/Machine/Idle.lean ====
section
/-! DEFINITION. What passes when no command waits. -/
namespace Sys2Proof.Machine

/-- One nanosecond passes: GLB_TIME counts while the module is out of reset, and the management server executes the command that has
waited longest (assumption 3). -/
def idle (s : State) : Host.Outcome State Fault Refusal :=
  done (if s.mod.inReset then s
    else
      let s : State := { s with mod := { s.mod with time := s.mod.time + 1 } }
      if s.mgmt.queue.isEmpty then s else s.serveAll 1 [])

end Sys2Proof.Machine
end

