-- ==== Sys2Proof/Safety.lean ====
section
/-! DEFINITION. What a safe step is, in the terms the statements use. -/
namespace Sys2Proof.Machine

/-- The outcome is a next state. -/
def Completes (o : Host.Outcome State Fault Refusal) : Prop := ∃ t, o = .next t

/-- The outputs of the module follow its state (R568, R601): no edge is left over, every interrupt line whose
source is a level carries that level, and FAULT_N is low exactly while a source drives it low. -/
def OutputsFollow (s : State) : Prop :=
  s.mod.edge = 0 ∧ s.mod.lines &&& 21#6 = levelLines s &&& 21#6 ∧ levelLines s &&& s.mod.lines = levelLines s ∧
    s.pins.faultN = !faultLow s

/-! ### The issue of a slot operation -/

/-- Nothing in a core's stores and registers is marked in error, and nothing that an operation has read or raised is left. -/
structure CoreSound (c : CoreSt) : Prop where
  store : c.csMarks = []
  held  : c.held = []
  parity : c.vpar = []
  alarms : c.alarms = []
  log : c.rdLog = []

/-- No result, store or queued operation of a core is under way: what Checked mode finds no hazard with (R271). -/
structure CoreStill (c : CoreSt) : Prop where
  pend : c.pend = []
  stores : c.pendSt = []
  vreg : c.vregWait = []
  matrix : c.mq = [] ∧ c.mrun = []
  drain : c.dq = [] ∧ c.fast = none ∧ c.vec = none

/-- The state when the bundle at an issuer's pc is looked at: what is due by its issue cycle has been written (R266). -/
abbrev State.atIssue (s : State) (q : Issuer) : State := s.applyCycle q

/-- An issuer issues its next bundle now: it may issue, no bundle is held, no empty bundle and no hold cycle is due, the pc lies in the kernel, no table
swap holds it, and in each of its cores there is room in the queues and nothing in error (R258, R265, R292). -/
structure IssueReady (s : State) (q : Issuer) : Prop where
  can : s.canIssue q = true
  unheld : (s.seq q).held = none
  notEmpty : (s.seq q).empty = 0
  noGap : (s.seq q).gap = false
  inside : (s.seq q).pc < s.klen q
  noSwap : ((s.atIssue q).seq q).swap = none
  room : ∀ i ∈ (s.atIssue q).coresOf q, queuesFull ((s.atIssue q).core i) = false
  sound : ∀ i ∈ (s.atIssue q).coresOf q, CoreSound ((s.atIssue q).core i)
  plateSound : ∀ i, q = .alone i → ((s.atIssue q).plate i.p).psMarks = []
  still : (s.atIssue q).checkedOn q = true → ∀ i ∈ (s.atIssue q).coresOf q, CoreStill ((s.atIssue q).core i)

/-- Everything but cores, sequencers, the counter of free values and the outputs that follow the state is the same. -/
structure SameBeside (q : Issuer) (u t : State) : Prop where
  pending : t.pending = u.pending
  regs : t.regs = u.regs
  crossing : t.crossing = u.crossing
  hatches : ∀ h, q ≠ .hatch h → t.hatch h = u.hatch h
  kernel : ∀ h, { t.hatch h with seq := (u.hatch h).seq } = u.hatch h
  plates : t.plates = u.plates
  drams : t.drams = u.drams
  net : t.routers = u.routers ∧ t.inbox = u.inbox
  ports : t.ports = u.ports
  margin : t.regions = u.regions ∧ t.banks = u.banks
  engine : t.engine = u.engine
  pair : t.pair = u.pair
  gfc : t.gfc = u.gfc
  mgmt : t.mgmt = u.mgmt
  boot : t.boot = u.boot
  test : t.test = u.test
  nv : t.nv = u.nv

/-- A command issues one bundle whose operation takes each core `c` of its issuer, in environment `e`, to `f e c`: the other cores
stay, the sequencer goes on by one issue cycle, and where no loop is active the next bundle is the one at pc + 1 and nothing else
changes (R25, R257). -/
def Issues (row : Instr) (s : State) (q : Issuer) (f : Env → CoreSt → CoreSt) : Prop :=
  let u := s.atIssue q
  ∃ t, exec row s = .next t ∧
    (∀ i ∈ u.coresOf q, { t.core i with sa := (u.core i).sa } = f (envOf u q i) (u.core i)) ∧
    (∀ i, i ∉ u.coresOf q → t.core i = u.core i) ∧
    (t.seq q).cyc = (u.seq q).cyc + 1 ∧ (t.seq q).issued = (u.seq q).issued + 1 ∧ (t.seq q).held = none ∧
    ((u.seq q).loops.all (·.isNone) = true →
      (t.seq q).pc = (u.seq q).pc + 1 ∧ (t.seq q).loops = (u.seq q).loops ∧ SameBeside q u t)

/-- As `Issues`, for an operation that also changes what lies beside the cores: to what it is in `g` of the state at issue. -/
def IssuesBeside (row : Instr) (s : State) (q : Issuer) (f : Env → CoreSt → CoreSt) (g : State → State) : Prop :=
  let u := s.atIssue q
  ∃ t, exec row s = .next t ∧
    (∀ i ∈ u.coresOf q, { t.core i with sa := (u.core i).sa } = f (envOf u q i) (u.core i)) ∧
    (∀ i, i ∉ u.coresOf q → t.core i = u.core i) ∧
    (t.seq q).cyc = (u.seq q).cyc + 1 ∧ (t.seq q).issued = (u.seq q).issued + 1 ∧ (t.seq q).held = none ∧
    ((u.seq q).loops.all (·.isNone) = true →
      (t.seq q).pc = (u.seq q).pc + 1 ∧ (t.seq q).loops = (u.seq q).loops ∧ SameBeside q (g u) t)

/-- A command queues one write-back in each core of its issuer, `lat` issue cycles ahead, and leaves the rest of the core (R266). -/
def Queues (row : Instr) (s : State) (q : Issuer) (lat : Nat) (tgt : Env → CoreSt → Target) : Prop :=
  Issues row s q fun e c => { c with pend := c.pend ++ [{ due := e.cyc + lat, tgt := tgt e c }] }

/-- Lane `k` of a vector register (Table 6.2). -/
def laneOf (v : VReg) (k : Nat) : Nat := fld v.toNat (32 * k) 32

/-- Lane `k` of the second operand: a lane of VB, or with SB the low 32 bits of a scalar register (Table 6.7). -/
def laneB (f : VFields) (c : CoreSt) (k : Nat) : Nat := if f.sb then (c.s f.vb).toNat % 2 ^ 32 else laneOf (c.v f.vb) k

/-- The write-back of a vector result: lane `k` of VD takes `g k` where PRED selects it, with the flags and counts of those lanes
(R21, R112, R113). -/
def laneWrite (f : VFields) (due : Nat) (mask : PReg) (g : Nat → Cvt) : PendW :=
  let r := vmap mask g
  { due, tgt := .vector f.vd (ofLanes r.lanes) mask, flags := r.flags, flush := r.flush, nanz := r.nanz }

/-- A command queues a vector result lane by lane in each core of its issuer. -/
def QueuesLanes (row : Instr) (s : State) (q : Issuer) (lat : Nat) (f : VFields) (g : Env → CoreSt → Nat → Cvt) : Prop :=
  Issues row s q fun e c => { c with pend := c.pend ++ [laneWrite f (e.cyc + lat) (c.p f.pred) (g e c)] }

/-- A command issues a bundle that changes the sequencer only: it becomes `y` but for the HOLD code that is shown. -/
def Steers (row : Instr) (s : State) (q : Issuer) (y : SeqSt → SeqSt) : Prop :=
  let u := s.atIssue q
  ∃ t, exec row s = .next t ∧
    (∀ i ∈ u.coresOf q, { t.core i with sa := (u.core i).sa } = u.core i) ∧
    (∀ i, i ∉ u.coresOf q → t.core i = u.core i) ∧
    { t.seq q with hold := (u.seq q).hold } = y (u.seq q)

end Sys2Proof.Machine
end

