-- ==== Sys2Proof/WellFormed.lean ====
section
/-! DEFINITION. Which command terms the hardware can be sent: the lengths that the manual fixes for what a command
carries. -/
namespace Sys2Proof

/-- A parcel is 256 bytes (R446). -/
def wfParcel (bytes : List Byte) : Bool := bytes.length == 256

/-- A device line is 128 bytes (R471). -/
def wfLine (data : List Byte) : Bool := data.length == 128

/-- The checks of each command on what it carries. -/
def Instr.wf : Instr → Bool
  | .parcelReceive _ bytes => wfParcel bytes
  | .regionNetWr _ _ data _ _ => wfLine data
  | _ => true

end Sys2Proof
end

