-- ==== Sys2Proof/Certificates/Slice0/Obligations.lean ====
section
/-! DEFINITION. The statements for the provers.  A row of a slot operation is stated through `Issues`, `Queues`, `QueuesLanes` and
`Steers` of Safety: each says that the command answers a next state, what every core of the issuer holds then, and that the rest
stays. -/
open Sys2Proof Sys2Proof.Machine

/-! ### Scalar slot -/

/-- R260, Table 6.6: the register forms of the scalar slot queue their 64-bit wrapping result, one issue cycle ahead, SMUL three. -/
def ScalarRegisterForms : Prop :=
  ∀ (q : Issuer) (rd ra rb : BitVec 5) (s : State), IssueReady s q →
    Queues (.sadd q rd ra rb) s q 1 (fun _ c => .scalar rd (c.s ra + c.s rb)) ∧
    Queues (.ssub q rd ra rb) s q 1 (fun _ c => .scalar rd (c.s ra - c.s rb)) ∧
    Queues (.smul q rd ra rb) s q 3 (fun _ c => .scalar rd (c.s ra * c.s rb)) ∧
    Queues (.sand q rd ra rb) s q 1 (fun _ c => .scalar rd (c.s ra &&& c.s rb)) ∧
    Queues (.sor q rd ra rb) s q 1 (fun _ c => .scalar rd (c.s ra ||| c.s rb)) ∧
    Queues (.sxor q rd ra rb) s q 1 (fun _ c => .scalar rd (c.s ra ^^^ c.s rb)) ∧
    Queues (.sshl q rd ra rb) s q 1 (fun _ c => .scalar rd (c.s ra <<< ((c.s rb).toNat % 64))) ∧
    Queues (.sshr q rd ra rb) s q 1 (fun _ c => .scalar rd (c.s ra >>> ((c.s rb).toNat % 64))) ∧
    Queues (.ssra q rd ra rb) s q 1 (fun _ c => .scalar rd ((c.s ra).sshiftRight ((c.s rb).toNat % 64))) ∧
    Queues (.smin q rd ra rb) s q 1 (fun _ c => .scalar rd (if (c.s ra).slt (c.s rb) then c.s ra else c.s rb)) ∧
    Queues (.smax q rd ra rb) s q 1 (fun _ c => .scalar rd (if (c.s ra).slt (c.s rb) then c.s rb else c.s ra)) ∧
    Queues (.slt q rd ra rb) s q 1 (fun _ c => .scalar rd (if (c.s ra).slt (c.s rb) then 1 else 0)) ∧
    Queues (.sltu q rd ra rb) s q 1 (fun _ c => .scalar rd (if (c.s ra).ult (c.s rb) then 1 else 0))

/-- Table 6.6: the immediate forms of the scalar slot. -/
def ScalarImmediateForms : Prop :=
  ∀ (q : Issuer) (rd ra : BitVec 5) (imm : BitVec 16) (n : BitVec 6) (hw : BitVec 2) (s : State), IssueReady s q →
    Queues (.saddi q rd ra imm) s q 1 (fun _ c => .scalar rd (c.s ra + imm.signExtend 64)) ∧
    Queues (.sshli q rd ra n) s q 1 (fun _ c => .scalar rd (c.s ra <<< n.toNat)) ∧
    Queues (.sshri q rd ra n) s q 1 (fun _ c => .scalar rd (c.s ra >>> n.toNat)) ∧
    Queues (.ssrai q rd ra n) s q 1 (fun _ c => .scalar rd ((c.s ra).sshiftRight n.toNat)) ∧
    Queues (.smini q rd ra imm) s q 1
      (fun _ c => .scalar rd (if (c.s ra).slt (imm.signExtend 64) then c.s ra else imm.signExtend 64)) ∧
    Queues (.smaxi q rd ra imm) s q 1
      (fun _ c => .scalar rd (if (c.s ra).slt (imm.signExtend 64) then imm.signExtend 64 else c.s ra)) ∧
    Queues (.sbset q rd ra n) s q 1 (fun _ c => .scalar rd (c.s ra ||| BitVec.ofNat 64 (2 ^ n.toNat))) ∧
    Queues (.sbclr q rd ra n) s q 1 (fun _ c => .scalar rd (c.s ra &&& ~~~BitVec.ofNat 64 (2 ^ n.toNat))) ∧
    Queues (.smovi q rd imm) s q 1 (fun _ _ => .scalar rd (imm.signExtend 64)) ∧
    Queues (.sins q rd hw imm) s q 1 (fun _ c => .scalar rd (withBits (c.s rd) (16 * hw.toNat) 16 imm.toNat))

/-- R261, R214: SMOVS gives the value that its selector names, SETCB sets base, length and head of a circular buffer. -/
def ScalarSelectorsAndBuffers : Prop :=
  ∀ (q : Issuer) (rd ra rb : BitVec 5) (sel : BitVec 16) (cb : BitVec 3) (s : State), IssueReady s q →
    (sel.toNat < 10 → Queues (.smovs q rd sel) s q 1 fun e _ => .scalar rd
      (match sel.toNat with
      | 0 => BitVec.ofNat 64 e.ci
      | 1 => BitVec.ofNat 64 e.ncore
      | 2 => BitVec.ofNat 64 e.hidx
      | 3 => BitVec.ofNat 64 e.hcnt
      | 8 => e.tag.setWidth 64
      | 9 => e.time
      | k => BitVec.ofNat 64 (nth 0 e.lc (k - 4)))) ∧
    Queues (.setcb q cb ra rb) s q 1 (fun _ c => .cbuf cb ((c.s ra).setWidth 25) ((c.s rb).setWidth 26)) ∧
    ∀ h l i, q = .hatch h → (s.hatch h).run = some l →
      (envOf s q i).ci = s.lidx i ∧ (envOf s q i).ncore = l.ncore.toNat + 1 ∧ (envOf s q i).hidx = l.hidx.toNat ∧
      (envOf s q i).hcnt = l.hcnt.toNat ∧ (envOf s q i).tag = l.tag ∧ (envOf s q i).time = s.mod.time

/-- R214, R260, R261, Table 6.6: every operation of the scalar slot that writes a register or a circular buffer.
The model's own choices are in assumption 11. -/
def Obligations.ScalarOperations : Prop := ScalarRegisterForms ∧ ScalarImmediateForms ∧ ScalarSelectorsAndBuffers

/-- R287, R288, R292: LOOP and LOOPI enter their body, or skip it for a count of 0 with two empty bundles before the next; a taken
branch issues two empty bundles and then its target; one that is not taken costs nothing.
The model's own choices are in assumptions 11 and 67. -/
def Obligations.LoopsAndBranches : Prop :=
  ∀ (q : Issuer) (lv : BitVec 2) (rc : BitVec 5) (count len : BitVec 12) (cond : BitVec 3) (off : BitVec 18) (s : State),
    IssueReady s q →
    let u := s.atIssue q
    let x := u.seq q
    let enter (n : Nat) (y : SeqSt) : SeqSt :=
      let y := { y with cyc := y.cyc + 1, issued := y.issued + 1, held := none, arrived := false, release := false, swap := none }
      if n = 0 then { y with pc := y.pc + len.toNat + 1, empty := 2 }
      else { y with pc := y.pc + 1, loops := setNth y.loops lv.toNat (some
        { first := x.pc + 1, last := x.pc + len.toNat, index := 0, remain := n - 1,
          depth := match innermost x.loops with | some l => l.2.depth + 1 | none => 0 }) }
    (loopFits x.loops x.pc (u.klen q) lv len.toNat = true →
      Steers (.loopi q lv count len) s q (enter count.toNat) ∧
      ∀ n, u.coresOf q ≠ [] → (∀ i ∈ u.coresOf q, ((u.core i).s rc).toNat % 2 ^ 32 = n) →
        Steers (.loop q lv rc len) s q (enter n)) ∧
    (∀ t : Nat, (x.pc : Int) + off.toInt = t → t < u.klen q → u.coresOf q ≠ [] →
      (∀ i ∈ u.coresOf q, brCond cond ((u.core i).s rc) = some true) →
      Steers (.br q cond rc off) s q fun y =>
        { y with cyc := y.cyc + 1, issued := y.issued + 1, held := none, arrived := false, release := false, swap := none, pc := t, empty := 2,
                 loops := branchEnds y.loops t }) ∧
    ((∀ i ∈ u.coresOf q, brCond cond ((u.core i).s rc) = some false) → Issues (.br q cond rc off) s q fun _ c => c)

/-! ### Vector slot -/

/-- R205, R206, R273, Table 6.9: moves between vector registers, two issue cycles ahead: VMOV copies the element of each lane, VBCAST
gives every lane the element in the low 32 bits of a scalar register, VSEL takes the element of VA where the predicate named by IMM is set
and that of VB elsewhere; the lane's other bits become copies of the sign or zeros, by the format. VIDX gives 128·CI + k whatever the
format. -/
def VectorMoves : Prop :=
  ∀ (q : Issuer) (f : VFields) (x : Fmt) (s : State), IssueReady s q → Fmt.ofCode f.fmt = some x →
    let copied (w : Nat) : Cvt := { code := lanePut x (laneGet x w) }
    (f.imm = 0 → fmtMove x = true ∨ x = .k4 ∨ x = .k5 ∨ x = .n4 →
      QueuesLanes (.vmov q f) s q 2 f fun _ c k => copied (laneOf (c.v f.va) k)) ∧
    (f.imm = 0 → fmtMove x = true → f.sb = true →
      QueuesLanes (.vbcast q f) s q 2 f fun _ c _ => copied ((c.s f.vb).toNat % 2 ^ 32)) ∧
    (f.imm = 0 → fmtMove x = true → QueuesLanes (.vidx q f) s q 2 f fun e _ k => { code := 128 * e.ci + k }) ∧
    (f.imm.toNat < 8 → fmtMove x = true → QueuesLanes (.vsel q f) s q 2 f fun _ c k =>
      copied (if (c.p (BitVec.ofNat 3 f.imm.toNat)).toNat.testBit k then laneOf (c.v f.va) k else laneB f c k))

/-- R205, R665: the bitwise operations and shifts of 32-bit lanes, two issue cycles ahead; the count is IMM below 32, or with SB the low
32 bits of a scalar register, and a count of 32 or more shifts every bit out. -/
def VectorLogicAndShifts : Prop :=
  ∀ (q : Issuer) (f : VFields) (x : Fmt) (s : State), IssueReady s q → Fmt.ofCode f.fmt = some x → fmtMove x = true →
    (f.imm = 0 →
      QueuesLanes (.vand q f) s q 2 f (fun _ c k => { code := laneOf (c.v f.va) k &&& laneB f c k }) ∧
      QueuesLanes (.vor q f) s q 2 f (fun _ c k => { code := laneOf (c.v f.va) k ||| laneB f c k }) ∧
      QueuesLanes (.vxor q f) s q 2 f (fun _ c k => { code := laneOf (c.v f.va) k ^^^ laneB f c k }) ∧
      QueuesLanes (.vnot q f) s q 2 f (fun _ c k => { code := 2 ^ 32 - 1 - laneOf (c.v f.va) k })) ∧
    ((if f.sb then f.imm = 0 else f.imm.toNat < 32) →
      let n (c : CoreSt) : Nat := if f.sb then (c.s f.vb).toNat % 2 ^ 32 else f.imm.toNat
      QueuesLanes (.vshl q f) s q 2 f (fun _ c k =>
        { code := if 32 ≤ n c then 0 else laneOf (c.v f.va) k * 2 ^ n c % 2 ^ 32 }) ∧
      QueuesLanes (.vshrl q f) s q 2 f (fun _ c k => { code := if 32 ≤ n c then 0 else laneOf (c.v f.va) k / 2 ^ n c }) ∧
      QueuesLanes (.vshra q f) s q 2 f (fun _ c k =>
        { code := unsgn 32 (sgn 32 (laneOf (c.v f.va) k) / (2 ^ min (n c) 31 : Nat)) }))

/-- R205, R206, R273, R665, Table 6.9: moves, logic and shifts of lanes.
The model's own choices are in assumptions 11, 17 and 104. -/
def Obligations.VectorMovesAndLogic : Prop := VectorMoves ∧ VectorLogicAndShifts

/-- R110, R210, R274: the comparisons of float and integer formats write a predicate three issue cycles ahead, the predicate operations two; PRED selects the bits
written.
The model's own choices are in assumptions 11 and 17. -/
def Obligations.ComparisonsAndPredicates : Prop :=
  ∀ (q : Issuer) (f : VFields) (x : Fmt) (s : State), IssueReady s q → Fmt.ofCode f.fmt = some x → fmtMove x = true →
    f.imm = 0 →
    let cmp (op : Nat) (e : Env) (c : CoreSt) : Target := .pred (f.vd.setWidth 3)
      (predOf fun k => laneCmp op x e.keep (laneGet x (laneOf (c.v f.va) k)) (laneGet x (laneB f c k))) (c.p f.pred)
    let p (c : CoreSt) (r : BitVec 5) : PReg := c.p (r.setWidth 3)
    (x ≠ .q15 → x ≠ .q31 → f.vd.toNat < 8 →
      Queues (.vcmpEq q f) s q 3 (cmp 0) ∧ Queues (.vcmpNe q f) s q 3 (cmp 1) ∧ Queues (.vcmpLt q f) s q 3 (cmp 2) ∧
      Queues (.vcmpLe q f) s q 3 (cmp 3) ∧ Queues (.vcmpGt q f) s q 3 (cmp 4) ∧ Queues (.vcmpGe q f) s q 3 (cmp 5)) ∧
    (Queues (.pand q f) s q 2 (fun _ c => .pred (f.vd.setWidth 3) (p c f.va &&& p c f.vb) (c.p f.pred)) ∧
      Queues (.por q f) s q 2 (fun _ c => .pred (f.vd.setWidth 3) (p c f.va ||| p c f.vb) (c.p f.pred)) ∧
      Queues (.pxor q f) s q 2 (fun _ c => .pred (f.vd.setWidth 3) (p c f.va ^^^ p c f.vb) (c.p f.pred)) ∧
      Queues (.pnot q f) s q 2 (fun _ c => .pred (f.vd.setWidth 3) (~~~p c f.va) (c.p f.pred))) ∧
    (f.sb = true → Queues (.pfirst q f) s q 2 fun _ c =>
      .pred (f.vd.setWidth 3) (predOf fun k => decide (k < min (c.s f.vb).toNat 128)) (c.p f.pred))

/-- R108, R207, R208: sums, differences, signs, maxima and minima of lanes, four issue cycles ahead. -/
def VectorSums : Prop :=
  ∀ (q : Issuer) (f : VFields) (x : Fmt) (s : State), IssueReady s q → Fmt.ofCode f.fmt = some x → fmtMove x = true →
    f.imm = 0 →
    let two (g : Bool → Nat → Nat → Cvt) (e : Env) (c : CoreSt) (k : Nat) : Cvt :=
      g e.keep (laneGet x (laneOf (c.v f.va) k)) (laneGet x (laneB f c k))
    QueuesLanes (.vadd q f) s q 4 f (two (laneAdd false x f.sat)) ∧
    QueuesLanes (.vsub q f) s q 4 f (two (laneAdd true x f.sat)) ∧
    QueuesLanes (.vabs q f) s q 4 f (two fun keep a _ => laneSign false x f.sat keep a) ∧
    QueuesLanes (.vneg q f) s q 4 f (two fun keep a _ => laneSign true x f.sat keep a) ∧
    QueuesLanes (.vmaxP q f) s q 4 f (two (laneMinMax true true x)) ∧
    QueuesLanes (.vmaxN q f) s q 4 f (two (laneMinMax true false x)) ∧
    QueuesLanes (.vminP q f) s q 4 f (two (laneMinMax false true x)) ∧
    QueuesLanes (.vminN q f) s q 4 f (two (laneMinMax false false x))

/-- R207, R211, R92: products and fused products five issue cycles ahead, conversions four. -/
def VectorProductsAndConversions : Prop :=
  ∀ (q : Issuer) (f : VFields) (x y : Fmt) (s : State), IssueReady s q → Fmt.ofCode f.fmt = some x →
    let a (c : CoreSt) (k : Nat) : Nat := laneGet x (laneOf (c.v f.va) k)
    let b (c : CoreSt) (k : Nat) : Nat := laneGet x (laneB f c k)
    let d (c : CoreSt) (k : Nat) : Nat := laneGet x (laneOf (c.v f.vc) k)
    (f.imm = 0 → fmtFloat x = true ∨ x = .s32 ∨ x = .s16 →
      QueuesLanes (.vmul q f) s q 5 f fun e c k => laneMul x f.sat e.keep (a c k) (b c k)) ∧
    (f.imm = 0 → fmtFloat x = true →
      QueuesLanes (.vfma q f) s q 5 f (fun e c k => laneFma false x f.sat e.keep (a c k) (b c k) (d c k)) ∧
      QueuesLanes (.vfms q f) s q 5 f (fun e c k => laneFma true x f.sat e.keep (a c k) (b c k) (d c k))) ∧
    (f.imm = 0 → x = .q15 ∨ x = .q31 → QueuesLanes (.vmulq q f) s q 5 f fun _ c k => laneMulq x f.sat (a c k) (b c k)) ∧
    (f.imm.toNat < 16 → Fmt.ofCode (f.imm.setWidth 4) = some y →
      QueuesLanes (.vcvt q f) s q 4 f fun e c k => laneCvt y x f.sat e.keep (laneOf (c.v f.va) k))

/-- R92, R108, R207, R208, R211: the lane arithmetic of the vector slot.
The model's own choices are in assumptions 11, 14 and 19. -/
def Obligations.VectorArithmetic : Prop := VectorSums ∧ VectorProductsAndConversions

/-- R212, R213: a rotation takes lane k from lane (k + s) mod 128, four issue cycles ahead; a reduction combines the lanes that PRED
selects by the seven-level tree and writes the result to every lane, nine issue cycles ahead. It reads subnormals by the commission's
mode and every NaN as the canonical one (R69, R103).
The model's own choices are in assumptions 11 and 15. -/
def Obligations.RotationAndReductions : Prop :=
  ∀ (q : Issuer) (f : VFields) (x : Fmt) (s : State), IssueReady s q → Fmt.ofCode f.fmt = some x → x = .b32 ∨ x = .s32 →
    ((if f.sb then f.imm = 0 else f.imm.toNat < 128) →
      Queues (.vrot q f) s q 4 fun _ c => .vector f.vd (ofLanes ((List.range 128).map fun k =>
        laneOf (c.v f.va) ((k + if f.sb then (c.s f.vb).toNat % 128 else f.imm.toNat) % 128))) (c.p f.pred)) ∧
    (f.imm = 0 →
      let red (g : Bool → Nat → Nat → Cvt) (e : Env) (c : CoreSt) : CoreSt :=
        let r := redTree (fun a b => ((g e.keep a b).code, (g e.keep a b).flags))
          ((List.range 128).map fun k => if (c.p f.pred).toNat.testBit k then some (laneRead x e.keep (laneOf (c.v f.va) k)) else none)
        { c with pend := c.pend ++ [{ due := e.cyc + 9, flags := r.2,
                                      tgt := .vector f.vd (ofLanes (List.replicate 128 (r.1.getD 0))) (BitVec.allOnes 128) }] }
      Issues (.vredSum q f) s q (red (laneAdd false x f.sat)) ∧
      Issues (.vredMaxP q f) s q (red (laneMinMax true true x)) ∧
      Issues (.vredMaxN q f) s q (red (laneMinMax true false x)) ∧
      Issues (.vredMinP q f) s q (red (laneMinMax false true x)) ∧
      Issues (.vredMinN q f) s q (red (laneMinMax false false x)))

/-- R215–R217: VTAP adds coefficient times sample to its accumulator lanes, five issue cycles ahead, and steps both heads.
The model's own choices are in assumptions 11 and 18. -/
def Obligations.FilterTap : Prop :=
  ∀ (q : Issuer) (f : VFields) (x : Fmt) (s : State), IssueReady s q → Fmt.ofCode f.fmt = some x → fmtFloat x = true ∨ x = .q15 →
    f.imm.toNat < 64 →
    let h (c : CoreSt) : CBuf := c.cb (f.imm.setWidth 3)
    let d (c : CoreSt) : CBuf := c.cb ((f.imm >>> 3).setWidth 3)
    let es := x.width / 8
    let n : Nat := if f.mod.toNat % 2 = 1 then 128 * es else es
    let fit (b : CBuf) : Prop := b.base.toNat % 128 = 0 ∧ b.len ≠ 0 ∧ b.len.toNat % 128 = 0
    (∀ i ∈ (s.atIssue q).coresOf q, let c := (s.atIssue q).core i
      fit (h c) ∧ fit (d c) ∧ (h c).base.toNat + (h c).len.toNat ≤ 0x1000000 ∧ 0x1000000 ≤ (d c).base.toNat ∧
        (d c).base.toNat + (d c).len.toNat ≤ storeSize) →
    Issues (.vtap q f) s q fun e c =>
      let el (b : CBuf) (k : Nat) : Nat := leNat (c.rdCb b (k * es : Nat) es)
      let w := laneWrite f (e.cyc + 5) (c.p f.pred) fun k =>
        laneTap x f.sat e.keep (laneOf (c.v f.vd) k) (el (h c) (if f.mod.toNat % 2 = 1 then k else 0)) (el (d c) k)
      let c1 := c.setCb (f.imm.setWidth 3) ((h c).step n)
      let c2 := c1.setCb ((f.imm >>> 3).setWidth 3) ((c1.cb ((f.imm >>> 3).setWidth 3)).step (-(n : Int)))
      { c2 with pend := c.pend ++ [w] }

/-- R224, R232, R233, R237, R239: the special functions, twelve issue cycles ahead, a lookup eight.
The model's own choices are in assumptions 11 and 20. -/
def Obligations.SpecialFunctions : Prop :=
  ∀ (q : Issuer) (f : VFields) (x y : Fmt) (s : State), IssueReady s q → Fmt.ofCode f.fmt = some x →
    let a (c : CoreSt) (k : Nat) : Nat := laneOf (c.v f.va) k
    (fmtFloat x = true → f.imm.toNat < 16 → Fmt.ofCode (f.imm.setWidth 4) = some y → fmtFloat y = true →
      let sfn (g : Sfn) (e : Env) (c : CoreSt) (k : Nat) : Cvt := laneSfn g y x e.kx4 e.keep f.sat (a c k)
      QueuesLanes (.exp2 q f) s q 12 f (sfn .exp2) ∧ QueuesLanes (.log2 q f) s q 12 f (sfn .log2) ∧
      QueuesLanes (.rcp q f) s q 12 f (sfn .rcp) ∧ QueuesLanes (.rsq q f) s q 12 f (sfn .rsq) ∧
      QueuesLanes (.sigm q f) s q 12 f (sfn .sigm) ∧ QueuesLanes (.tanh q f) s q 12 f (sfn .tanh) ∧
      QueuesLanes (.gglu q f) s q 12 f (sfn .gglu) ∧ QueuesLanes (.erf q f) s q 12 f (sfn .erf) ∧
      QueuesLanes (.sint q f) s q 12 f (sfn .sint) ∧ QueuesLanes (.cost q f) s q 12 f (sfn .cost)) ∧
    (fmtFloat x = true → f.imm.toNat < 64 → Fmt.ofCode (f.imm.setWidth 4) = some y → fmtFloat y = true →
      let bank (c : CoreSt) : Bank := c.activeBank (BitVec.ofNat 2 (f.imm.toNat / 16))
      (∀ i ∈ (s.atIssue q).coresOf q, hdrLut (bank ((s.atIssue q).core i)).hdr = false) →
      QueuesLanes (.ufn q f) s q 12 f fun e c k => laneUfn (bank c) y x e.kx4 e.keep f.sat (a c k)) ∧
    (fmtFloat x = true → f.imm = 0 →
      QueuesLanes (.poscS q f) s q 12 f (fun e c k => lanePosc false x e.keep f.sat (a c k) (laneB f c k) (laneOf (c.v f.vc) k)) ∧
      QueuesLanes (.poscC q f) s q 12 f (fun e c k => lanePosc true x e.keep f.sat (a c k) (laneB f c k) (laneOf (c.v f.vc) k))) ∧
    (fmtMove x = true → f.imm.toNat < 4 →
      let bank (c : CoreSt) : Bank := c.activeBank (BitVec.ofNat 2 f.imm.toNat)
      (∀ i ∈ (s.atIssue q).coresOf q, hdrLut (bank ((s.atIssue q).core i)).hdr = true) →
      QueuesLanes (.vlut q f) s q 8 f fun _ c k => laneLut (bank c) (a c k))

/-- R240, R242, R243, R245: clearing, folding and merging act on the statistics set when their latency has passed; the mean and the
variance are read at issue and written ten issue cycles ahead.
The model's own choices are in assumptions 11 and 16. -/
def Obligations.Statistics : Prop :=
  ∀ (q : Issuer) (f : VFields) (x : Fmt) (s : State), IssueReady s q → Fmt.ofCode f.fmt = some x → fmtFloat x = true → f.imm.toNat < 4 →
    let k : BitVec 2 := f.imm.setWidth 2
    Queues (.vstatClr q f) s q 2 (fun _ c => .stat 0 k 0 (c.p f.pred) []) ∧
    Queues (.vstatAdd q f) s q 6 (fun e c => .stat (if e.keep then 2 else 1) k (ofLanes ((List.range 128).map (laneOf (c.v f.va))))
      (c.p f.pred) [BitVec.ofNat 8 f.fmt.toNat]) ∧
    Queues (.vstatMerge q f) s q 24 (fun _ c => .stat 3 k 0 (c.p f.pred) []) ∧
    QueuesLanes (.vstatMean q f) s q 10 f (fun e c i =>
      { code := (statMean e.keep f.sat (nth {} (c.stat k) i)).1, flags := (statMean e.keep f.sat (nth {} (c.stat k) i)).2 }) ∧
    QueuesLanes (.vstatVar q f) s q 10 f fun e c i =>
      { code := (statVar (f.mod.toNat % 2 = 1) e.keep f.sat (nth {} (c.stat k) i)).1,
        flags := (statVar (f.mod.toNat % 2 = 1) e.keep f.sat (nth {} (c.stat k) i)).2 }

/-! ### Load and store slots -/

/-- What a load of `n` bytes at the slot's offset needs of its buffer: it is fit for a core-store access (R277), or in stand-alone mode
it goes to the plate bus and every byte lies in the window (R220). -/
def CanReach (f : LFields) (n : Nat) (e : Env) (c : CoreSt) : Prop :=
  (c.cb f.cb).ok = true ∨
    onPlateBus e (c.cb f.cb) = true ∧ ∀ j < n, inWindow e ((c.cb f.cb).addr (atOf f + (j : Nat))) = true

/-- Every core of an issuer meets a demand on its environment and itself when the bundle issues. -/
def Demand (s : State) (q : Issuer) (p : Env → CoreSt → Prop) : Prop :=
  ∀ i ∈ (s.atIssue q).coresOf q, p (envOf (s.atIssue q) q i) ((s.atIssue q).core i)

/-- R275, R277: VLD converts one element per active lane, SLD loads 8 bytes and PLD 16; each writes its register 16 issue cycles ahead,
48 over the plate bus, and steps the head of its buffer. -/
def Loads : Prop :=
  ∀ (q : Issuer) (f : LFields) (m r : Fmt) (s : State), IssueReady s q →
    let byte (e : Env) (c : CoreSt) (j : Nat) : Byte := bufByte e c (c.cb f.cb) (atOf f + (j : Nat))
    let ahead (e : Env) (c : CoreSt) : Nat := e.cyc + loadLat e (c.cb f.cb) 16
    (Fmt.ofCode f.mfmt = some m → Fmt.ofCode f.rfmt = some r → Demand s q (CanReach f (16 * m.width)) →
      Issues (.vld q f) s q fun e c =>
        let el (k : Nat) : Nat :=
          if m = .n4 then fld (byte e c (k / 2)).toNat (4 * (k % 2)) 4
          else leNat ((List.range (m.width / 8)).map fun j => byte e c (m.width / 8 * k + j))
        let x := vmap (c.p f.pred) fun k =>
          { code := lanePut r (convert m r f.sat e.keep (el k)).code, flags := (convert m r f.sat e.keep (el k)).flags }
        stepCb f { c with pend := c.pend ++
          [{ due := ahead e c, tgt := .vector f.r (ofLanes x.lanes) (c.p f.pred), flags := x.flags }] }) ∧
    (plainFields f = true → Demand s q (CanReach f 8) →
      Issues (.sld q f) s q fun e c => stepCb f { c with pend := c.pend ++
        [{ due := ahead e c, tgt := .scalar f.r (BitVec.ofNat 64 (leNat ((List.range 8).map (byte e c)))) }] }) ∧
    (plainFields f = true → Demand s q (CanReach f 16) →
      Issues (.pld q f) s q fun e c => stepCb f { c with pend := c.pend ++
        [{ due := ahead e c, tgt := .pred (f.r.setWidth 3) (BitVec.ofNat 128 (leNat ((List.range 16).map (byte e c))))
            (BitVec.allOnes 128) }] })

/-- R230, R247: TLOAD takes a table image for the bank that is not active; VSTAT.LOAD and VSTAT.LOADM restore or merge the 32-byte lane
records of a set 20 issue cycles ahead, 48 over the plate bus; the source is aligned to 128 bytes. -/
def TableAndStatisticsLoads : Prop :=
  ∀ (q : Issuer) (f : LFields) (s : State), IssueReady s q → plainFields f = true →
    let byte (e : Env) (c : CoreSt) (j : Nat) : Byte := bufByte e c (c.cb f.cb) (atOf f + (j : Nat))
    let aligned (c : CoreSt) : Prop := (c.cb f.cb).addr (atOf f) % 128 = 0
    (Demand s q (fun _ c => (c.cb f.cb).ok = true ∧ aligned c ∧ c.active1 (f.r.setWidth 2) ≠ f.r.toNat.testBit 2) →
      Issues (.tload q f) s q fun e c => stepCb f { c with tloads := c.tloads ++
        [{ t := f.r.setWidth 2, bank := f.r.toNat.testBit 2, data := tableImage (byte e c) }] }) ∧
    (Demand s q (fun e c => CanReach f 4096 e c ∧ aligned c) →
      Issues (.vstatLoad q f) s q (fun e c => stepCb f { c with pend := c.pend ++
        [{ due := e.cyc + loadLat e (c.cb f.cb) 20, tgt := .stat 4 (f.r.setWidth 2) 0 0 ((List.range 4096).map (byte e c)) }] }) ∧
      Issues (.vstatLoadm q f) s q (fun e c => stepCb f { c with pend := c.pend ++
        [{ due := e.cyc + loadLat e (c.cb f.cb) 20, tgt := .stat 5 (f.r.setWidth 2) 0 0 ((List.range 4096).map (byte e c)) }] }))

/-- R230, R247, R275, R277: the operations of the load slot that read core store or the plate bus.
The model's own choices are in assumptions 6, 7, 11 and 21. -/
def Obligations.LoadOperations : Prop := Loads ∧ TableAndStatisticsLoads

/-- R303–R305, R314, R319: FGET, FPUT and FRING append the transfer that their descriptor in core store describes; FDROP ends every FGET
of the queue and advances the fetch epoch.
The model's own choices are in assumption 11. -/
def Obligations.Transfers : Prop :=
  ∀ (h : HatchId) (sd : BitVec 5) (s : State), IssueReady s (.hatch h) →
    let q : Issuer := .hatch h
    let d (c : CoreSt) (o : Nat) : XDesc := xdescOf (c.rd ((c.s sd).toNat + o) 64)
    let good (ring : Bool) (_ : Env) (c : CoreSt) : Prop :=
      (c.s sd).toNat % 64 = 0 ∧ (c.s sd).toNat + 64 ≤ storeSize ∧ xdescZeros (c.rd (c.s sd).toNat 64) = true ∧ (d c 0).ok ring = true ∧
      ((d c 0).pair = true → (c.s sd).toNat + 128 ≤ storeSize ∧ xdescZeros (c.rd ((c.s sd).toNat + 64) 64) = true ∧
        (d c 64).ok ring = true ∧ (d c 64).pair = false ∧ (d c 64).tiles = (d c 0).tiles)
    let add (kind : XKind) (e : Env) (c : CoreSt) : CoreSt :=
      { c with tq := c.tq ++ [{ id := c.nextX, kind, d := d c 0, d2 := if (d c 0).pair then some (d c 64) else none,
                                bundle := BitVec.ofNat 16 e.bundle }],
               nextX := c.nextX + 1 }
    (Demand s q (good false) → Issues (.fget q sd) s q (add .get) ∧ Issues (.fput q sd) s q (add .put)) ∧
    (Demand s q (good true) → Issues (.fring q sd) s q (add .ring)) ∧
    Issues (.fdrop q) s q fun _ c => CoreSt.advanceEpoch { c with tq := c.tq.filter fun x => x.kind != XKind.get }

/-- R275, R268: SST stores 8 bytes, PST 16 and VSTAT.SAVE the 32-byte records of a set, effective for reads three issue cycles later;
VST stores one converted element per active lane, a nibble for N4. -/
def Stores : Prop :=
  ∀ (q : Issuer) (f : LFields) (m r : Fmt) (s : State), IssueReady s q →
    let place (e : Env) (c : CoreSt) (o : Nat) : Nat :=
      (if onPlateBus e (c.cb f.cb) then plateBus else 0) + (c.cb f.cb).addr (atOf f + (o : Nat))
    let put (e : Env) (c : CoreSt) (bs : List Byte) : CoreSt :=
      stepCb f { c with pendSt := c.pendSt ++
        [{ due := e.cyc + 3, bytes := (List.range bs.length).map fun j => (place e c j, nth 0 bs j, 0xFF) }] }
    (plainFields f = true → Demand s q (CanReach f 8) → Issues (.sst q f) s q fun e c => put e c (leBytes 8 (c.s f.r).toNat)) ∧
    (plainFields f = true → Demand s q (CanReach f 16) →
      Issues (.pst q f) s q fun e c => put e c (leBytes 16 (c.p (f.r.setWidth 3)).toNat)) ∧
    (plainFields f = true →
      Demand s q (fun e c => CanReach f 4096 e c ∧ (c.cb f.cb).addr (atOf f) % 128 = 0) →
      Issues (.vstatSave q f) s q fun e c => put e c ((c.stat (f.r.setWidth 2)).flatMap statBytes)) ∧
    (Fmt.ofCode f.mfmt = some m → Fmt.ofCode f.rfmt = some r → Demand s q (CanReach f (16 * m.width)) →
      Issues (.vst q f) s q fun e c =>
        let x := vmap (c.p f.pred) fun k => convert r m f.sat e.keep (laneGet r (laneOf (c.v f.r) k))
        let w := ((List.range 128).filter fun k => (c.p f.pred).toNat.testBit k).flatMap fun k =>
          if m = .n4 then
            [(place e c (k / 2), BitVec.ofNat 8 (nth 0 x.lanes k <<< (4 * (k % 2))), if k % 2 = 0 then (0x0F : Byte) else 0xF0)]
          else (List.range (m.width / 8)).map fun j =>
            (place e c (m.width / 8 * k + j), BitVec.ofNat 8 (nth 0 x.lanes k >>> (8 * j)), (0xFF : Byte))
        stepCb f { c with pendSt := c.pendSt ++ [{ due := e.cyc + 3, bytes := w }],
                          pend := c.pend ++ [{ due := e.cyc + 3, tgt := .none, flags := x.flags, flush := x.flush, nanz := x.nanz }] })

/-- R276: VST.E encodes its four blocks of 32 lanes, stores the codes of the active lanes and the scale byte of every block with an
active lane, and counts in the encoder slot that SE names. -/
def BlockStore : Prop :=
  ∀ (q : Issuer) (se : BitVec 5) (f : LFields) (m r : Fmt) (s : State), IssueReady s q →
    scaledOf f.mfmt = some m → Fmt.ofCode f.rfmt = some r → fmtFloat r = true →
    let g : LFields := { f with off := BitVec.ofNat 11 (64 * se.toNat) }
    Demand s q (fun _ c => (c.cb f.cb).ok = true ∧ bitsOf (c.s se) 61 3 = 0) →
    Issues (.vstE q se f) s q fun e c =>
      let w := c.s se
      let vals (i : Nat) : List (Option Nat) := (List.range 32).map fun j =>
        if (c.p f.pred).toNat.testBit (32 * i + j) then
          some (convert r .b32 false true (laneGet r (laneOf (c.v f.r) (32 * i + j)))).code
        else none
      let blk (i : Nat) : Option EncBlock :=
        if (vals i).all Option.isNone then none else some (encodeBlock m (bitsOf w 0 32) f.sat e.keep (vals i))
      let all := ((List.range 4).map blk).filterMap id
      let codes := (List.range 4).flatMap fun i => match blk i with
        | none => []
        | some x => (List.range 32).flatMap fun j => match nth none x.codes j with
          | none => []
          | some code =>
            if m = .n4 then [((c.cb f.cb).addr (((32 * i + j) / 2 : Nat) : Int), BitVec.ofNat 8 (code <<< (4 * (j % 2))),
              if j % 2 = 0 then (0x0F : Byte) else 0xF0)]
            else [((c.cb f.cb).addr ((32 * i + j : Nat) : Int), BitVec.ofNat 8 code, (0xFF : Byte))]
      let scales := (List.range 4).flatMap fun i => match blk i with
        | none => []
        | some x => [(bitsOf w 32 25 + i, BitVec.ofNat 8 x.e8, (0xFF : Byte))]
      stepCb g { c with pendSt := c.pendSt ++ [{ due := e.cyc + 3, bytes := codes }, { due := e.cyc + 3, bytes := scales }],
                        pend := c.pend ++
                          [{ due := e.cyc + 3, tgt := .none, flags := all.foldl (fun a x => a ||| x.flags) 0,
                             flush := (all.map (·.flush)).sum, nanz := (all.map (·.nanz)).sum,
                             slot := some (BitVec.ofNat 4 (bitsOf w 57 4)) }] }

/-- R268, R275, R276: the operations of the store slot.
The model's own choices are in assumptions 6, 11 and 19. -/
def Obligations.StoreOperations : Prop := Stores ∧ BlockStore

/-! ### Matrix slot -/

/-- The parameter word of an operation, when it can be read (R278). -/
def wordOf (e : Env) (c : CoreSt) (t : Bool) (sp : BitVec 5) : Word :=
  match paramWord e c t sp with
  | .ok w => w
  | .error _ => 0

/-- R140, R154, R269, R279: MWLOAD and MPASS enter the matrix queue with what they captured at issue, and step the head of their
buffer by one tile, or by the rows of the pass, when their step bit is set. -/
def MatrixOperationsQueue : Prop :=
  ∀ (q : Issuer) (fl : MwFields) (fp : MpFields) (a w : Fmt) (s : State), IssueReady s q →
    let shape (band : BitVec 2) (nb : BitVec 3) : Prop := (w = .t16 → band = 0) ∧ nb.toNat + 1 ≤ 2 ^ band.toNat
    let readable (t : Bool) (sp : BitVec 5) (e : Env) (c : CoreSt) : Prop := paramWord e c t sp = .ok (wordOf e c t sp)
    (pairFmts fl.pair = some (a, w) → shape fl.band fl.nb →
      Demand s q (fun e c => readable fl.t fl.sp e c ∧ bitsOf (wordOf e c fl.t fl.sp) 26 38 = 0 ∧ (c.cb fl.wcb).ok = true) →
      Issues (.mwload q fl) s q fun e c =>
        let c1 := if fl.step then c.setCb fl.wcb ((c.cb fl.wcb).step (tileBytes w fl.band fl.nb : Nat)) else c
        { c1 with mq := c.mq ++
                    [.load fl (wordOf e c fl.t fl.sp) (c.p fl.kpred) (c.cb fl.wcb) (BitVec.ofNat 16 e.bundle) c.ord],
                  ord := c.ord + 1 }) ∧
    (pairFmts fp.pair = some (a, w) → shape fp.band fp.nb →
      Demand s q (fun e c =>
        let p := wordOf e c fp.t fp.sp
        let n := bitsOf p 0 16 * 128 * (fp.nb.toNat + 1)
        readable fp.t fp.sp e c ∧ bitsOf p 58 6 = 0 ∧ (c.cb fp.acb).ok = true ∧ 1 ≤ bitsOf p 0 16 ∧ bitsOf p 0 16 ≤ 256 ∧
          n ≤ 32768 ∧ bitsOf p 16 15 + n ≤ 32768) →
      Issues (.mpass q fp) s q fun e c =>
        let p := wordOf e c fp.t fp.sp
        let c1 := if bitOf p 31 then c.setCb fp.acb ((c.cb fp.acb).step (bitsOf p 0 16 * rowPitch a w fp.band : Nat)) else c
        { c1 with mq := c.mq ++ [.pass fp p (c.p fp.kpred) (c.p fp.cpred) (c.cb fp.acb) (BitVec.ofNat 16 e.bundle) c.ord],
                  ord := c.ord + 1 })

/-- The row of an accumulator-class operation. -/
def drainRow (code : DCode) (q : Issuer) (f : AFields) : Instr :=
  match code with
  | .aclr => .aclr q f
  | .asave => .asave q f
  | .aload => .aload q f
  | .achainSend => .achainSend q f
  | .achainRecv => .achainRecv q f
  | .fdrain => .fdrain q f
  | .vdrain => .vdrain q f
  | .sreset => .sreset q f
  | .smax => .softmaxSmax q f
  | .sexp => .sexp q f
  | .sscale => .sscale q f
  | .sfin => .sfin q f

/-- R269, R663: ACLR, ASAVE, ALOAD, both ACHAIN forms, FDRAIN, VDRAIN, SRESET, SMAX, SEXP, SSCALE and SFIN enter the drain queue with
the parameter word, the scale, the encoder word and the buffers that they captured at issue; a VDRAIN to a vector register with an
event marks the register as awaited (R271). -/
def DrainOperationsQueue : Prop :=
  ∀ (code : DCode) (q : Issuer) (f : AFields) (s : State), IssueReady s q → aFieldsOk code f = true →
    (∀ i, q = .alone i → code ≠ .achainSend ∧ code ≠ .achainRecv) →
    let second : BitVec 3 := if code = .fdrain then f.ycb else f.bcb
    Demand s q (fun e c => paramWord e c f.t f.sp = .ok (wordOf e c f.t f.sp) ∧
      aValuesOk code f (wordOf e c f.t f.sp) ((c.s f.sg).setWidth 32) (c.s (f.sg + 1)) (c.cb (rngOf (wordOf e c f.t f.sp)).dcb)
        (c.cb second) = true) →
    Issues (drainRow code q f) s q fun e c =>
      let w := wordOf e c f.t f.sp
      { c with
        dq := c.dq ++ [{ code, f, word := w, g := (c.s f.sg).setWidth 32, enc := c.s (f.sg + 1), dcb := c.cb (rngOf w).dcb,
                         cb2 := c.cb second, bundle := BitVec.ofNat 16 e.bundle, ord := c.ord }]
        ord := c.ord + 1
        vregWait := if code = .vdrain ∧ (rngOf w).vreg = true then c.vregWait ++ [((rngOf w).vd, if f.sen then some f.sev else none)]
          else c.vregWait }

/-- R140, R154, R269, R278, R279: the operations that enter the matrix and drain queues.
The model's own choices are in assumption 11. -/
def Obligations.QueuedOperations : Prop := MatrixOperationsQueue ∧ DrainOperationsQueue


/-! ### Sync slot -/

/-- The sequencer holds a bundle with one sync operation, for a HOLD code (Table 6.19). -/
def holding (x : SeqSt) (y : YOp) (code : BitVec 4) : SeqSt := { x with held := some { sync := .op y }, hold := code }

/-- R258, R283: EVWAIT holds while the count of its event is 0 in a core, then takes one in every core; EVSIG puts one event of its
bundle on the way to each core, to itself or, with DEST 1, to the next of the ring; TSWAP makes the shadow bank active at once when no
TLOAD of the table is in flight and no vector drain reads it, and else holds the next bundle. -/
def EventsAndTableSwap : Prop :=
  ∀ (q : Issuer) (e : BitVec 4) (t : BitVec 2) (s : State), IssueReady s q →
    let u := s.atIssue q
    let x := u.seq q
    ((∀ i ∈ u.coresOf q, (u.core i).ev e ≠ 0) → Issues (.evwait q e) s q fun _ c =>
      CoreSt.setEv { c with vregWait := c.vregWait.eraseP fun y => y.2 == some e } e (c.ev e - 1)) ∧
    ((∃ i ∈ u.coresOf q, (u.core i).ev e = 0) →
      exec (.evwait q e) s = .next (settle (u.setSeq q (holding x (.evwait e) 1)))) ∧
    (∀ dest, (dest = true → ∃ h, q = .hatch h ∧ (u.activeCores h).map u.lidx = List.range (u.activeCores h).length) →
      Issues (.evsig q dest e) s q fun v c => { c with evs := c.evs ++ [(e, BitVec.ofNat 16 v.bundle)] }) ∧
    ((∀ i ∈ u.coresOf q, swapReady (u.core i) t = true) → Issues (.tswap q t) s q fun _ c => c.swapTable t) ∧
    (x.loops.all (·.isNone) = true → (∃ i ∈ u.coresOf q, swapReady (u.core i) t = false) →
      Steers (.tswap q t) s q fun y => { y with pc := y.pc + 1, cyc := y.cyc + 1, issued := y.issued + 1, held := none,
                                                arrived := false, release := false, swap := some t })

/-- R298: with tracing and kind 6 enabled and a ring, TRACE writes its 16-byte record at the index, which returns to 0 with a counted wrap
when the ring is full; without, it only issues. -/
def TraceRecords : Prop :=
  ∀ (h : HatchId) (code : BitVec 8) (s : State), IssueReady s (.hatch h) →
    let q : Issuer := .hatch h
    let u := s.atIssue q
    let ctl := u.reg (hatchAt h 0x40)
    let ring := u.reg (hatchAt h 0x48)
    let size := bitsOf ring 0 32
    let next := bitsOf ctl 8 24
    let on := bitOf ctl 0 = true ∧ bitOf ctl 6 = true ∧ size ≠ 0
    (¬ on → Issues (.trace q code) s q fun _ c => c) ∧
    (on → IssuesBeside (.trace q code) s q (fun _ c => c) fun u =>
      let rcd := leBytes 8 u.mod.time.toNat ++ leBytes 4 (u.tagQ q).toNat ++ leBytes 2 (u.seq q).pc
        ++ [BitVec.ofNat 8 (6 + 16 * h.h.val), code]
      let v := psWrite u h.p (bitsOf ring 32 32 + 16 * next) rcd
      if size ≤ 16 * (next + 1) then (v.setRf (hatchAt h 0x40) 8 24 0).satRf (hatchAt h 0x40) 32 32 1
      else v.setRf (hatchAt h 0x40) 8 24 (next + 1))

/-- R235, R258, R283, R298: events, the table swap and trace records.
The model's own choices are in assumptions 11, 12 and 27. -/
def Obligations.EventsAndTrace : Prop := EventsAndTableSwap ∧ TraceRecords

/-- A core once the stores on their way have taken effect in its store (R268). -/
def landed (c : CoreSt) : CoreSt :=
  c.pendSt.foldl (fun c x => c.wrMany (x.bytes.filter fun b => b.1 < plateBus)) { c with pendSt := [] }

/-- In every core of a hatch what it writes is complete, and what stores are on their way go to core store and raise no flag. -/
def Written (s : State) (h : HatchId) : Prop :=
  Demand s (.hatch h) fun _ c => writesDone c = true ∧ (∀ x ∈ c.pendSt, ∀ b ∈ x.bytes, b.1 < plateBus) ∧
    ∀ w ∈ c.pend, w.tgt ≠ .none

/-- R258, R413: BAR.H goes on when the writes of the hatch are complete and holds before; BAR.P and BAR.M then send one BARR with the
group, the count of the launch, the commission and the sender, and go on when they have been released. -/
def BarriersHold : Prop :=
  ∀ (h : HatchId) (g : BitVec 4) (s : State) (l : Launch), IssueReady s (.hatch h) → (s.hatch h).run = some l →
    let q : Issuer := .hatch h
    let u := s.atIssue q
    let x := u.seq q
    let arrive (y : YOp) : State := u.setSeq q { holding x y 3 with arrived := true }
    (Written s h → Issues (.barH q) s q fun _ c => landed c) ∧
    ((∃ i ∈ u.coresOf q, writesDone (u.core i) = false) →
      exec (.barH q) s = .next (settle (u.setSeq q (holding x .barH 3)))) ∧
    (x.arrived = false → x.release = false → (∀ i ∈ u.coresOf q, writesDone (u.core i) = true) →
      exec (.barP q g) s =
        .next (settle ((arrive (.barP g)).inject (hatchEpAddr h) (agentEp h.p) (.barr false g l.pcount l.key h))) ∧
      (l.mcount ≠ 0 → exec (.barM q g) s =
        .next (settle ((arrive (.barM g)).inject (hatchEpAddr h) moduleBarEp (.barr true g l.mcount l.key h))))) ∧
    (x.release = true → Written s h → (Issues (.barP q g) s q fun _ c => landed c) ∧
      (l.mcount ≠ 0 → Issues (.barM q g) s q fun _ c => landed c))

/-- R330–R332: HQTAKE moves the oldest handle of its source to the hatch and writes it to a scalar register four issue cycles ahead, and
waits while the source is empty, and with a routing record while no route leads to the queue and back; HQPUB by the producer publishes a
held handle once the writes are complete; HQFREE returns a held handle with GEN increased by one.
The model's own choices are in assumptions 8, 11, 70 and 129. -/
def Obligations.HandleQueueOperations : Prop :=
  ∀ (h : HatchId) (r : BitVec 5) (k : BitVec 4) (s : State) (p : Fin 8) (n : Nat) (prod : Bool), IssueReady s (.hatch h) →
    let q : Issuer := .hatch h
    let u := s.atIssue q
    let x := u.hq p n
    let ep := hatchEp h
    let y : HqSt := { x with wait := x.wait.filter fun w => w.1 != ep }
    let waits (z : Option CmsnKey) : HqSt := if x.wait.contains (ep, z) then x else { y with wait := y.wait ++ [(ep, z)] }
    let held (op : YOp) (z : Option CmsnKey) (v : State) : State := (v.setSeq q (holding (u.seq q) op 2)).setHq p n (waits z)
    u.boundQueue h k = some (p, n, prod) →
    let net := u.reaches (hatchEpAddr h) (hqBlockEp p)
    (∀ l, (s.hatch h).run = some l → net.1 = false →
      exec (.hqtake q r k) s = .next (settle (held (.hqtake r k) l.key net.2))) ∧
    (net.1 = true →
    (∀ w rest, (if prod then x.free else x.pub) = w :: rest →
      IssuesBeside (.hqtake q r k) s q (fun e c => { c with pend := c.pend ++ [{ due := e.cyc + 4, tgt := .scalar r w }] }) fun u =>
        let z : HqSt := { y with held := x.held ++ [(ep, w)], tag := u.tagQ q }
        u.setHq p n (if prod then { z with free := rest } else { z with pub := rest })) ∧
    (∀ l, (s.hatch h).run = some l → (if prod then x.free else x.pub) = [] →
      exec (.hqtake q r k) s = .next (settle (held (.hqtake r k) l.key u))) ∧
    (∀ v w, u.common h r = some v → x.holds ep v = some w →
      (prod = true → x.pub.length < 64 → Written s h → IssuesBeside (.hqpub q r k) s q (fun _ c => landed c) fun u =>
        u.setHq p n { y with pub := x.pub ++ [w], held := x.held.erase (ep, w) }) ∧
      IssuesBeside (.hqfree q r k) s q (fun _ c => c) fun u =>
        u.setHq p n { x with free := x.free ++ [genUp w], held := x.held.erase (ep, w) }))

/-- R222: HALT ends a stand-alone program with STATUS 2 and the bundle that would have issued next in CORE_SACTL.PC; what it has issued
completes. -/
def HaltStopsTheProgram : Prop :=
  ∀ (i : CoreId) (s : State), IssueReady s (.alone i) →
    let q : Issuer := .alone i
    let u := s.atIssue q
    let next : Nat := (u.seq q).pc + 1
    (u.seq q).loops.all (·.isNone) = true →
    (∃ t, exec (.halt q) s = .next t ∧ t.saStatus i = 2 ∧ t.rf (coreAt i 0xA40) 32 8 = next % 2 ^ 8 ∧ (t.core i).pend = [] ∧
      (t.core i).pendSt = [] ∧ (t.seq q).pc = next ∧ ∀ j, j ≠ i → t.core j = u.core j) ∧
    ((u.core i).pend = [] → (u.core i).pendSt = [] → IssuesBeside (.halt q) s q (fun _ c => c) fun u =>
      (u.setRf (coreAt i 0xA40) 8 4 2).setRf (coreAt i 0xA40) 32 8 next)

/-- R286: END with all work of the hatch complete takes the kernel off the hatch and reports its end to the commission, which is FINISHED
when every hatch of it has ended. -/
def EndReportsTheKernel : Prop :=
  ∀ (h : HatchId) (s : State) (l : Launch), IssueReady s (.hatch h) → (s.hatch h).run = some l →
    let q : Issuer := .hatch h
    let u := s.atIssue q
    Demand s q (fun _ c => allDone c = true ∧ c.pend = [] ∧ c.pendSt = [] ∧ c.evs = [] ∧ c.chainWay = [] ∧ c.recvWait = false ∧
      c.fastWait = false ∧ c.vecWait = false ∧ c.vres = none ∧ c.chainIn = [] ∧ c.vregWait = []) →
    bitOf (u.reg (hatchAt h 0x40)) 0 = false → (u.seq q).loops.all (·.isNone) = true →
    ∃ t, exec (.endOp q) s = .next t ∧ t.hatch h = { u.hatch h with run := none, seq := {}, ended := none, pre := false } ∧
      (∀ i, t.core i = u.core i) ∧
      (∀ c, l.key.bind u.cmsn = some c → t.cmsn c.key = some { c with
        ended := c.ended ++ [h],
        state := if c.state = .running ∧ (c.hatches.all fun y => (c.ended ++ [h]).contains y) = true then .finished else c.state }) ∧
      t.plates = u.plates ∧ t.rf (plateAt h.p 0x2010) (16 * h.h.val) 9 = 0 ∧ t.drams = u.drams ∧ t.routers = u.routers ∧
      t.ports = u.ports ∧ t.pair = u.pair ∧ t.gfc = u.gfc ∧ t.mgmt = u.mgmt ∧ t.nv = u.nv ∧
      ∀ a, a ≠ plateAt h.p 0x2010 → t.reg a = u.reg a

/-- R222, R286: HALT and END.
The model's own choices are in assumptions 11, 65 and 68. -/
def Obligations.EndsOfPrograms : Prop := HaltStopsTheProgram ∧ EndReportsTheKernel

/-! ### The sequencer itself -/

/-- R25, R135, R209, R258, R265: BUNDLE_ISSUE passes a hold cycle that is due; it issues an empty bundle while one is due and no queue is
full; it runs the bundle at the pc, from the bundle cache or the loop
cache, and holds on a miss; a bundle of one operation does what that operation's row does.
The model's own choices are in assumptions 11, 24, 55 and 69. -/
def Obligations.BundleIssueRunsTheBundle : Prop :=
  ∀ (q : Issuer) (s : State), s.canIssue q = true →
    let x := s.seq q
    let word (w : BitVec 256) : Prop := match q with
      | .alone i => loopBundle s i x.pc = w
      | .hatch h => (s.hatch h).bcpar = false ∧ bundleAt s h x.pc = some w
    (x.gap = true → exec (.bundleIssue q) s =
      .next (settle (s.setSeq q { x with hold := if x.hold = 6 && s.checkedOn q && x.issued % 32 == 0 then 7 else 0 }))) ∧
    (∀ k, x.gap = false → x.empty = k + 1 →
      (s.anyFull q = true → exec (.bundleIssue q) s = .next (settle (s.queueHold q))) ∧
      (s.anyFull q = false → exec (.bundleIssue q) s =
        .next (settle ((s.setSeq q { x with empty := k, cyc := x.cyc + 1, hold := 0 }).applyCycle q)))) ∧
    (x.gap = false → x.empty = 0 → x.held = none → x.pc < s.klen q →
      (∀ h, q = .hatch h → (s.hatch h).bcpar = false → bundleAt s h x.pc = none →
        exec (.bundleIssue q) s = .next (settle (s.setSeq q { x with hold := 5 }))) ∧
      ∀ w, word w →
        exec (.bundleIssue q) s = .next (settle (s.tryIssue q (decodeBundle w))) ∧
        (∀ rd ra rb, decodeBundle w = { scalar := .op (.alu 1 rd ra rb) } →
          exec (.bundleIssue q) s = exec (.sadd q rd ra rb) s) ∧
        (∀ f, decodeBundle w = { vector := .op (0x18, f) } → exec (.bundleIssue q) s = exec (.vadd q f) s) ∧
        (∀ f, decodeBundle w = { matrix := .op (.pass f) } → exec (.bundleIssue q) s = exec (.mpass q f) s) ∧
        (∀ f, decodeBundle w = { load := .op (1, f) } → exec (.bundleIssue q) s = exec (.vld q f) s) ∧
        (∀ f, decodeBundle w = { store := .op (1, f) } → exec (.bundleIssue q) s = exec (.vst q f) s) ∧
        (∀ e, decodeBundle w = { sync := .op (.evwait e) } → exec (.bundleIssue q) s = exec (.evwait q e) s))

/-- R258, R266, R268: a held EVWAIT bundle issues once its events have come; RESULT_WRITEBACK writes the results and stores that are due,
raising the flags of each, and nothing else. -/
def WaitsAndWriteBacks : Prop :=
  ∀ (q : Issuer) (e : BitVec 4) (s : State),
    let x := s.seq q
    let open_ := s.setSeq q { x with held := none }
    (x.held = some { sync := .op (.evwait e) } → IssueReady open_ q →
      ((∀ i ∈ (s.atIssue q).coresOf q, ((s.atIssue q).core i).ev e ≠ 0) → Issues (.bundleWaitRelease q) s q fun _ c =>
        CoreSt.setEv { c with vregWait := c.vregWait.eraseP fun y => y.2 == some e } e (c.ev e - 1)) ∧
      ((∃ i ∈ (s.atIssue q).coresOf q, ((s.atIssue q).core i).ev e = 0) → exec (.bundleWaitRelease q) s =
        .next (settle ((s.atIssue q).setSeq q (holding ((s.atIssue q).seq q) (.evwait e) 1))))) ∧
    (x.held = none → exec (.bundleWaitRelease q) s = .next (settle s)) ∧
    (∀ w : CoreId → PendW, (∀ i ∈ s.coresOf q, (w i).due ≤ x.cyc ∧ (s.core i).pend = [w i] ∧ (s.core i).pendSt = []) →
      ∃ t, exec (.resultWriteback q) s = .next t ∧
        (∀ i ∈ s.coresOf q, t.core i = (CoreSt.put { s.core i with pend := [] } (w i).tgt).1 ∧
          ∀ b < 4, (w i).flags.toNat.testBit b = true → bitOf (t.reg (coreAt i 0x400)) b = true) ∧
        (∀ i, i ∉ s.coresOf q → t.core i = s.core i) ∧ t.hatches = s.hatches ∧ t.plates = s.plates ∧ t.drams = s.drams ∧
        t.engine = s.engine ∧ t.pending = s.pending) ∧
    ((∀ i ∈ s.coresOf q, (∀ w ∈ (s.core i).pend, x.cyc < w.due) ∧ ∀ w ∈ (s.core i).pendSt, x.cyc < w.due) →
      ∃ t, exec (.resultWriteback q) s = .next t ∧ (∀ i, t.core i = s.core i) ∧ t.hatches = s.hatches ∧ t.regs = s.regs ∧
        t.plates = s.plates)

/-- R258, R285: the bundle at the pc enters the cache entry of its number mod 2,048 and issue may go on; a barrier, that of an HQPUB too,
that has waited too long sets BARTO in every active core, sends its record and aborts the commission. -/
def CacheFillAndBarrierTimeout : Prop :=
  ∀ (h : HatchId) (s : State) (l : Launch) (x : SeqSt), (s.hatch h).run = some l → (s.hatch h).seq = x →
    (x.hold = 5 → ∀ bs u, devRead s h.p none (s.hatchOwner h) (l.kaddr.toNat + 32 * x.pc) 32 (hatchEpAddr h) = (bs, none, u) →
      (u.mod.stall = true → exec (.bundleCacheFill h) s = .next (settle s)) ∧ (u.mod.stall = false →
      ∃ t, exec (.bundleCacheFill h) s = .next t ∧ bundleAt t h x.pc = some (BitVec.ofNat 256 (leNat bs)) ∧
        (∀ b, b % 2048 ≠ x.pc % 2048 → bundleAt t h b = bundleAt u h b) ∧
        (∀ b, b ≠ x.pc → b % 2048 = x.pc % 2048 → bundleAt t h b = none) ∧
        (t.hatch h).seq = { x with hold := 0 } ∧ (∀ k, k ≠ h → t.hatch k = u.hatch k) ∧ t.cores = u.cores ∧ t.regs = u.regs)) ∧
    (∀ b, x.held = some b → b.sync = .op .barH ∨ (∃ g, b.sync = .op (.barP g)) ∨ (∃ g, b.sync = .op (.barM g)) ∨
        (x.hold = 3 ∧ ∃ r n, b.sync = .op (.hqpub r n)) →
      exec (.barrierTimeout h) s = .next (settle
        ((((s.activeCores h).foldl (fun (t : State) i => t.flag (coreAt i 0x300) 2) s).reportFlag 0 (hatchUnit h) 0x01 2 l.tag x.pc 5 0).abortHatch h))) ∧
    (x.held = none → exec (.barrierTimeout h) s = .next (settle s))

/-- R258, R266, R268, R285: what lets an issuer go on between bundles.
The model's own choices are in assumptions 5, 9, 69 and 71. -/
def Obligations.IssueGoesOn : Prop := WaitsAndWriteBacks ∧ CacheFillAndBarrierTimeout

/-- R286, R295: a kernel that would issue beyond its last bundle raises ILLEGAL in every active core with SLOT 5, BUNDLE = KLEN − 1 and
cause PASTEND in CORE_FLOG; an operation whose opcode is not assigned is logged with its slot and cause; in stand-alone mode the core
halts with STATUS 3. -/
def IllegalOperations : Prop :=
  ∀ (q : Issuer) (s : State), s.canIssue q = true → (s.seq q).held = none → (s.seq q).empty = 0 → (s.seq q).gap = false →
    let logged (t : State) (bundle slot cause : Nat) : Prop := match q with
      | .alone i => t.saStatus i = 3
      | .hatch h => ∀ i ∈ s.activeCores h,
          t.reg (coreAt i 0x340) = flogOf (s.tagQ q) bundle slot cause ∧ bitOf (t.reg (coreAt i 0x300)) 0 = true
    (s.klen q ≤ (s.seq q).pc → ∃ t, exec (.bundleIssue q) s = .next t ∧ logged t (s.klen q - 1) 5 cPastEnd) ∧
    (IssueReady s q → ∀ g r n,
      (∀ i, q = .alone i → ∃ t, exec (.barP q g) s = .next t ∧ t.saStatus i = 3) ∧
      (∀ h, q = .hatch h → (∃ t, exec (.halt q) s = .next t ∧ logged t (s.seq q).pc 5 cMode) ∧
        ((s.atIssue q).boundQueue h n = none → ∃ t, exec (.hqtake q r n) s = .next t ∧ logged t (s.seq q).pc 5 cOperand)))

/-- R50, R295, R535, R537: an abort for re-run returns a RUNNING or PREEMPTED commission to READY and holds it, and none of its hatches runs
it any more; at the re-run limit it is FINISHED with status RETRY_LIMIT instead, and one that has begun to end with a reason is FINISHED
with that reason (assumption 115). -/
def AbortForRerun : Prop :=
  ∀ (s : State) (k : CmsnKey) (c : Cmsn) (g : Option Nat), s.cmsn k = some c → c.state = .running ∨ c.state = .preempted →
    let t := s.abortCmsn k g
    (∀ h l, (t.hatch h).run = some l → l.key ≠ some k) ∧ (∀ h v, (t.hatch h).saved = some v → v.launch.key ≠ some k) ∧
    (∀ h, ∀ y ∈ (t.hatch h).lq, y.2 ≠ some k) ∧
    let d := { c with hatches := [], ended := [], pgroups := [], mgroup := none, fault := g.map (BitVec.ofNat 25) }
    (∀ st, s.endReason c = some st → t.cmsn k = some { d with state := .finished, status := st, fault := none }) ∧
    (s.endReason c = none →
      (c.attempts < s.rf (engineAt 0) 32 8 + 1 → t.cmsn k = some { d with state := .ready, held := true }) ∧
      (s.rf (engineAt 0) 32 8 + 1 ≤ c.attempts → t.cmsn k = some { d with state := .finished, status := 0x28 } ∧
        bitOf (t.reg (engineAt 0x20)) 2 = true))

/-- R50, R286, R295, R535: an illegal operation and an abort stop a hatch.
The model's own choices are in assumptions 26 and 28. -/
def Obligations.StopsAndReruns : Prop := IllegalOperations ∧ AbortForRerun

/-! ### Inside a core -/

/-- The state but for one core and the counter of free values is the same, and every register reads the same. -/
structure OnlyCore (i : CoreId) (s t : State) : Prop where
  pending : t.pending = s.pending
  cores : ∀ j, j ≠ i → t.core j = s.core j
  hatches : t.hatches = s.hatches
  regs : ∀ a, t.reg a = s.reg a
  plates : t.plates = s.plates
  drams : t.drams = s.drams
  net : t.routers = s.routers ∧ t.inbox = s.inbox
  ports : t.ports = s.ports
  margin : t.regions = s.regions ∧ t.banks = s.banks
  engine : t.engine = s.engine
  pair : t.pair = s.pair
  gfc : t.gfc = s.gfc
  mgmt : t.mgmt = s.mgmt
  nv : t.nv = s.nv

/-- One event of a core counts (R283). -/
def countEvent (s : State) (i : CoreId) (e : BitVec 4) : State := s.modCore i fun c => c.setEv e (c.ev e + 1)

/-- R135, R139–R141: the head of the matrix queue leaves it and runs: a load stages its tile, a pass runs over the active weights; a pass
with NEWW waits while a load runs, and the stall counts; completions take the operation off, a load ends WLOAD, a pass signals its
event. -/
def MatrixQueueRuns : Prop :=
  ∀ (i : CoreId) (s : State), s.clocked i = true → (s.hatch i.hatch).ended = none →
    let c := s.core i
    (∀ f w kp cb b o rest, c.mq = .load f w kp cb b o :: rest → c.wload = false → CoreSound c →
      ∃ t, exec (.matrixOpStart i) s = .next t ∧ OnlyCore i s t ∧
        t.core i = { stageTile { c with mq := rest, mrun := c.mrun ++ [.load f w kp cb b o] } f w kp cb with rdLog := [] }) ∧
    (∀ f w kp cp cb b o rest, c.mq = .pass f w kp cp cb b o :: rest → bandBusy c f = false →
      (f.neww = true → c.wload = true → exec (.matrixOpStart i) s = .next (settle (s.satRf (coreAt i 0x8B0) 32 32 1))) ∧
      ((f.neww = true → c.wload = false) → (MatOp.pass f w kp cp cb b o).blocked c = true →
        exec (.matrixOpStart i) s = .next (settle (s.satRf (coreAt i 0x900) 32 32 1))) ∧
      (matrixReady c = true → skewRight s i = true → CoreSound c → c.accMarks = [] →
        let out := passRun { c with mq := rest } f w kp cp cb (s.spillOn i) true s.freeCtr
        out.cause = none → out.check = [] → ∃ t, exec (.matrixOpStart i) s = .next t ∧
          t.core i = { out.core with mrun := c.mrun ++ [.pass f w kp cp cb b o], rdLog := [] } ∧ (∀ j, j ≠ i → t.core j = s.core j) ∧
          (∀ k < 4, out.flags.toNat.testBit k = true → bitOf (t.reg (coreAt i 0x400)) k = true) ∧
          t.hatches = s.hatches ∧ t.plates = s.plates ∧ t.drams = s.drams ∧ t.routers = s.routers ∧ t.engine = s.engine)) ∧
    (c.mrun.any MatOp.isLoad = true → exec (.weightLoadComplete i) s =
      .next (settle (s.modCore i fun c => { c with wload := false, mrun := c.mrun.eraseP MatOp.isLoad }))) ∧
    (∀ f w kp cp cb b o, (c.mrun.find? fun m => !m.isLoad) = some (.pass f w kp cp cb b o) →
      let u := s.modCore i fun c => { c with mrun := c.mrun.eraseP fun m => !m.isLoad }
      (f.even = false → exec (.mpassComplete i) s = .next (settle u)) ∧
      (f.even = true → c.ev f.ev < 255 → exec (.mpassComplete i) s = .next (settle (countEvent u i f.ev))))

/-- R180, R191, R194, R201, R283, R663: the head of the drain queue starts on its unit, taking an event with WEN, and a receive from DCB
reads its blocks; its accesses wait,
and the waits count, while an earlier operation keeps it from them, and a receive waits for its blocks. -/
def DrainOperationsStart : Prop :=
  ∀ (i : CoreId) (s : State) (o : DrainOp) (rest : List DrainOp), s.clocked i = true → (s.hatch i.hatch).ended = none →
    let c := s.core i
    c.dq = o :: rest → drainReady c = true →
    let c0 : CoreSt := { (if o.f.wen then c.setEv o.f.wev (c.ev o.f.wev - 1) else c) with dq := rest }
    let cu : CoreSt := if o.code.onVec then { c0 with vec := some o } else { c0 with fast := some o }
    let c1 : CoreSt := if o.bufRecv then { cu.takeBuf o with rdLog := [] } else cu
    let c2 : CoreSt := if o.code.onVec then { c1 with vecWait := false } else { c1 with fastWait := false, recvWait := false }
    let u := s.setCore i c1
    let short := o.ringRecv && decide (c.chainIn.length < (rngOf o.word).groups.length)
    (drainBlocked c1 o = true → (o.bufRecv = true → CoreSound c) → exec (.drainOpStart i) s = .next (settle
      ((u.setCore i (if o.code.onVec then { c1 with vecWait := true } else { c1 with fastWait := true })).satRf (coreAt i 0x900) 32 32 1))) ∧
    (drainBlocked c1 o = false →
      (short = true → (o.bufRecv = true → CoreSound c) → exec (.drainOpStart i) s = .next (settle (u.setCore i { c1 with fastWait := false, recvWait := true }))) ∧
      (short = false → o.ringSend = false → CoreSound c → c.accMarks = [] →
        let out := drainRun c2 o (s.kx4On i) (s.keepOn i) (s.fixedOn i)
        out.cause = none → out.check = [] → ∃ t, exec (.drainOpStart i) s = .next t ∧
          t.core i = { out.core with rdLog := [] } ∧ (∀ j, j ≠ i → t.core j = s.core j) ∧
          (∀ k < 4, out.flags.toNat.testBit k = true → bitOf (t.reg (coreAt i 0x400)) k = true) ∧
          t.hatches = s.hatches ∧ t.plates = s.plates ∧ t.drams = s.drams ∧ t.routers = s.routers ∧ t.engine = s.engine))

/-- R113, R180, R191, R194, R201, R283, R663: a completion writes the register of a VREG drain with its flags and signals its event with
SEN; an operation that still waits for its accesses goes on waiting; a chain block of another epoch is discarded; a receive that has
waited too long aborts with the previous core of the ring as the suspect. -/
def DrainOperationsComplete : Prop :=
  ∀ (i : CoreId) (s : State), s.clocked i = true → (s.hatch i.hatch).ended = none →
    let c := s.core i
    (∀ o, c.fast = some o → c.recvWait = false → o.code.onVec = false →
      let u := s.setCore i { c with fast := none }
      (c.fastWait = false → o.f.sen = false → exec (.drainOpComplete i .fast) s = .next (settle u)) ∧
      (c.fastWait = false → o.f.sen = true → c.ev o.f.sev < 255 →
        exec (.drainOpComplete i .fast) s = .next (settle (countEvent u i o.f.sev))) ∧
      (c.fastWait = true → drainBlocked c o = true → exec (.drainOpComplete i .fast) s =
        .next (settle ((s.setCore i { c with fastWait := true }).satRf (coreAt i 0x900) 32 32 1)))) ∧
    (∀ o, c.vec = some o → c.vecWait = false → o.code.onVec = true → o.f.sen = false →
      let u := s.setCore i { c with vec := none, vres := none }
      (c.vres = none → exec (.drainOpComplete i .vector) s = .next (settle u)) ∧
      ∀ w, c.vres = some w → exec (.drainOpComplete i .vector) s = .next (settle (u.writeBack i w)) ∧
        ∀ r v m, w.tgt = .vector r v m → m ≠ BitVec.allOnes 128 →
          ((u.writeBack i w).core i) = CoreSt.setV { c with vec := none, vres := none } r (mergeLanes m (c.v r) v) ∧
          ∀ k < 4, w.flags.toNat.testBit k = true → bitOf ((u.writeBack i w).reg (coreAt i 0x400)) k = true) ∧
    (∀ b rest, c.chainWay = b :: rest →
      (b.epoch ≠ c.epoch → exec (.chainBlockArrive i) s = .next (settle (s.setCore i { c with chainWay := rest }))) ∧
      (b.epoch = c.epoch →
        let c1 := { c with chainWay := rest, chainIn := c.chainIn ++ [b] }
        (c.fast = none → exec (.chainBlockArrive i) s = .next (settle (s.setCore i c1))) ∧
        ∀ o, c.fast = some o → c.recvWait = true → o.ringRecv = true → drainBlocked c1 o = false →
          (c1.chainIn.length < (rngOf o.word).groups.length →
            exec (.chainBlockArrive i) s = .next (settle (s.setCore i c1))) ∧
          ((rngOf o.word).groups.length ≤ c1.chainIn.length → exec (.chainBlockArrive i) s =
            .next (settle ((((s.setCore i c1).setCore i { c1 with fastWait := false, recvWait := false }).drainGo i o).finishEnded i.hatch))))) ∧
    (∀ o, c.fast = some o → c.recvWait = true → exec (.chainTimeout i) s =
      .next (settle ((s.coreAbort i 0x908 0x03 2 (coreUnit (s.ringPrev i)) o.bundle.toNat 2 0).finishEnded i.hatch)))

/-- R113, R180, R191, R194, R201, R283, R663: the drain queue runs. -/
def DrainQueueRuns : Prop := DrainOperationsStart ∧ DrainOperationsComplete

/-- R135–R141, R180, R191, R194, R201, R283, R663: the heads of the matrix and drain queues run.
The model's own choices are in assumptions 5 and 24. -/
def Obligations.QueuesRun : Prop := MatrixQueueRuns ∧ DrainQueueRuns

/-- R230, R283, R284: a table image lands in its bank, or ends the commission with TABLE_FORMAT when its header may not be loaded; an
event that arrives adds 1 to its count, and a count of 255 is an illegal operation with cause EVOVF in its core; a core whose clock is
gated does neither (R299).
The model's own choices are in assumptions 5 and 21. -/
def Obligations.TablesAndEventsArrive : Prop :=
  ∀ (i : CoreId) (s : State),
    let c := s.core i
    (s.clocked i = false → exec (.tloadComplete i) s = .next (settle (s.finishEnded i.hatch)) ∧
      exec (.evsigDeliver i) s = .next (settle (s.finishEnded i.hatch))) ∧
    (s.clocked i = true → (∀ x rest, c.tloads = x :: rest →
      (hdrOk x.data.hdr = true → exec (.tloadComplete i) s = .next (settle ((s.setCore i
        { CoreSt.setBank { c with tloads := rest } x.t x.bank x.data with
          vpar := c.vpar.filter fun y => y != (1, BitVec.ofNat 5 (2 * x.t.toNat + if x.bank then 1 else 0)) }).finishEnded i.hatch))) ∧
      (hdrOk x.data.hdr = false → s.role i = 0 → exec (.tloadComplete i) s =
        .next (settle (((s.setCore i { c with tloads := rest }).endHatch i.hatch 0x20).finishEnded i.hatch)))) ∧
    (∀ e b rest, c.evs = (e, b) :: rest →
      let u := s.modCore i fun c => { c with evs := rest }
      (c.ev e < 255 → exec (.evsigDeliver i) s = .next (settle ((countEvent u i e).finishEnded i.hatch))) ∧
      (c.ev e = 255 → s.standAlone i = false → (s.hatch i.hatch).run = none → ∃ t, exec (.evsigDeliver i) s = .next t ∧
        t.reg (coreAt i 0x340) = flogOf 0 b.toNat 5 cEvOvf ∧ bitOf (t.reg (coreAt i 0x300)) 0 = true ∧ (t.core i).ev e = 255)))

/-! ### The fetch engine -/

/-- R306, R307, R310, R312, R398: the oldest transfer that can proceed issues one line request with a free tag: the request stands in flight with
its place in core store and in the line, and a RREQ, or a WREQ with its data behind it, leaves for the port of the line's stack; a granule
that no cache holds starts one walk, and a transfer that waits for a walk holds no other back. -/
def RequestsIssue : Prop :=
  ∀ (i : CoreId) (s : State) (x : Xfer) (l lo n : Nat), s.clocked i = true → (s.hatch i.hatch).pre = false →
    (s.hatch i.hatch).ended = none →
    let c := s.core i
    let g := lo / 16384
    (s.pickX i = none → exec (.fetchRequestIssue i) s = .next (settle s)) ∧
    (s.pickX i = some x → x.kind ≠ .ring → x.line = (l, lo, n) →
    (cached s i g = false → exec (.fetchRequestIssue i) s = .next (settle
      (s.modPlate i.p fun p => { p with walks := p.walks ++ [{ granule := BitVec.ofNat 25 g, core := some i.c }] }))) ∧
    (∀ e fr tag, sget 0 c.l1 g = e → e ≠ 0 → resolve s i.p e (s.hatchOwner i.hatch) (x.kind == .put) = .ok fr → freeTag c = some tag →
      CoreSound c →
      let st := frameStack fr
      let a := frameAddr fr (128 * l % 16384)
      let lines : BitVec 128 := predOf fun j => decide (lo - 128 * l ≤ j ∧ j < lo - 128 * l + n)
      let to_ := stackEp st ((locOf (s.order st) a).ch / 2)
      ∃ t, exec (.fetchRequestIssue i) s = .next t ∧
        (t.core i).outst = c.outst ++ [{ tag := BitVec.ofNat 10 tag, xid := x.id, bundle := x.bundle, epoch := c.epoch, write := x.kind == .put, tile := x.tile,
                                         daddr := BitVec.ofNat 39 lo, place := st.key * 2 ^ 34 + a, cs := x.place lo,
                                         off := lo - 128 * l, n }] ∧
        (t.core i).tq = c.tq.map (fun y => if y.id == x.id then x.next else y) ∧ (∀ j, j ≠ i → t.core j = s.core j) ∧
        (x.kind = .get → t.routers = (s.inject (coreEp i) to_
          (.rreq (BitVec.ofNat 34 a) (BitVec.ofNat 10 tag) 0 lines)).routers) ∧
        (x.kind = .put → meDur e = false → (t.core i).store = c.store ∧ t.routers = (s.inject (coreEp i) to_
          (.wreq (BitVec.ofNat 34 a) (BitVec.ofNat 10 tag) 0 lines none)
          (some (List.replicate (lo - 128 * l) 0 ++ c.rd (x.place lo) n))).routers)))

/-- R310, R316: a transfer at the head of the queue that wants a credit takes one of its event; an FRING takes one in every active core at
once. -/
def CreditsAreTaken : Prop :=
  ∀ (i : CoreId) (s : State) (x : Xfer) (rest : List Xfer), (s.core i).tq = x :: rest → x.wantsCredit = true →
    (s.core i).ev x.d.cev ≠ 0 →
    (x.kind ≠ .ring → exec (.transferCreditTake i) s = .next (settle ((s.setCore i
      (((s.core i).setEv x.d.cev ((s.core i).ev x.d.cev - 1)).setX { x with credit := true })).finishEnded i.hatch))) ∧
    (x.kind = .ring → (s.hatch i.hatch).ended = none →
      (∀ j ∈ s.activeCores i.hatch, ∃ y r, (s.core j).tq = y :: r ∧ y.kind = .ring ∧ y.bundle = x.bundle ∧ y.tile = x.tile ∧
        y.wantsCredit = true ∧ (s.core j).ev y.d.cev ≠ 0) →
      ∃ t, exec (.transferCreditTake i) s = .next t ∧ (∀ j ∈ s.activeCores i.hatch, ∀ y r, (s.core j).tq = y :: r →
        (∃ r', (t.core j).tq = { y with credit := true } :: r') ∧ (t.core j).ev y.d.cev = (s.core j).ev y.d.cev - 1) ∧
        (∀ j, j ∉ s.activeCores i.hatch → t.core j = s.core j) ∧ t.regs = s.regs ∧ t.plates = s.plates)

/-- R316, R319–R321, R324, R412: an answer to a request of the current epoch writes its bytes where the request says and frees its tag, one
of another epoch without a transfer is counted as discarded; a request that times out completes with UNREACH; a ring tile is written at
its place; a pending epoch advance completes when no request carries the next epoch, and drops the held faults of the old one. -/
def ResponsesArrive : Prop :=
  ∀ (i : CoreId) (s : State) (r : Req), r ∈ (s.core i).outst →
    let c := s.core i
    let a := coreEp i
    ((s.hatch i.hatch).ended = none → ∀ pk d, ((s.inboxOf a).find? fun pk => pk.kind == 4 || pk.kind == 5) = some pk →
      (∃ bad, pk.load = .rdata r.tag 0 d bad) → (c.outst.find? fun y => y.tag == r.tag) = some r → r.write = false →
      let u := s.setInbox a ((s.inboxOf a).eraseP fun pk => pk.kind == 4 || pk.kind == 5)
      ((c.tq.find? fun x => x.id == r.xid) = none → r.epoch ≠ c.epoch → exec (.fetchResponse i) s =
        .next (settle ((u.setCore i { c with outst := c.outst.erase r }).satRf (coreAt i 0xB20) 32 32 1))) ∧
      ((c.tq.find? fun x => x.id == r.xid) = none → r.epoch = c.epoch → c.held = [] → ∃ t, exec (.fetchResponse i) s = .next t ∧
        (t.core i).store = (c.wr r.cs (slice d r.off r.n)).store ∧ (t.core i).outst = c.outst.erase r ∧ ∀ b, t.reg b = s.reg b) ∧
      ∀ x, (c.tq.find? fun x => x.id == r.xid) = some x → x.d.even = false → c.held = [] →
        ∃ t, exec (.fetchResponse i) s = .next t ∧ (t.core i).store = (c.wr r.cs (slice d r.off r.n)).store ∧
          (t.core i).outst = c.outst.erase r ∧ (∀ j, j ≠ i → t.core j = s.core j) ∧ t.inbox = u.inbox ∧ t.plates = s.plates ∧
          t.drams = s.drams ∧ ∀ b, t.reg b = s.reg b) ∧
    ((c.outst.find? fun y => y.tag == r.tag) = some r → exec (.responseTimeout (BitVec.ofNat 10 a) r.tag) s =
      .next (settle ((s.complete i r 3 [] none).finishEnded i.hatch))) ∧
    (∀ x rest, c.ringIn = x :: rest → c.held = [] → c.tq = [] → (s.hatch i.hatch).ended = none →
      ∃ t, exec (.fringTileArrive i) s = .next t ∧ t.core i = CoreSt.wr { c with ringIn := rest } x.dst x.bytes ∧ OnlyCore i s t) ∧
    (0 < c.advance → (∀ y ∈ c.outst, y.epoch ≠ c.epoch + 1) →
      let drop := (c.held.filter fun h => h.epoch == c.epoch).length
      let u := s.setCore i { c with epoch := c.epoch + 1, advance := c.advance - 1, newX := c.newX.drop 1,
                                    held := c.held.filter fun h => h.epoch != c.epoch }
      exec (.epochAdvance i) s =
        .next (settle ((if drop = 0 then u else u.satRf (coreAt i 0xB20) 0 32 drop).finishEnded i.hatch))) ∧
    (0 < c.advance → (∃ y ∈ c.outst, y.epoch = c.epoch + 1) → exec (.epochAdvance i) s = .next (settle (s.finishEnded i.hatch)))

/-- R306–R321, R412: the transfers of a core take credits, issue line requests and take their answers.
The model's own choices are in assumptions 5 and 12. -/
def Obligations.TransfersRun : Prop := RequestsIssue ∧ CreditsAreTaken ∧ ResponsesArrive

/-! ### Registers of cores and hatches -/

/-- Every register but those at the listed addresses reads as before, and the rest of the state is the same but for one core, the counter
of free values and the outputs. -/
structure OnlyRegs (as : List Nat) (i : Option CoreId) (s t : State) : Prop where
  pending : t.pending = s.pending
  regs : ∀ a, a ∉ as → t.reg a = s.reg a
  crossing : t.crossing = s.crossing
  cores : ∀ j, i ≠ some j → t.core j = s.core j
  hatches : t.hatches = s.hatches
  plates : t.plates = s.plates
  drams : t.drams = s.drams
  net : t.routers = s.routers ∧ t.inbox = s.inbox
  ports : t.ports = s.ports
  margin : t.regions = s.regions ∧ t.banks = s.banks
  engine : t.engine = s.engine
  pair : t.pair = s.pair
  gfc : t.gfc = s.gfc
  mgmt : t.mgmt = s.mgmt
  boot : t.boot = s.boot
  nv : t.nv = s.nv

/-- R89: when a clear of an encoder slot takes effect in the cycle in which counts for it arrive, the slot holds those counts. -/
def Obligations.ClearedSlotHoldsItsCounts : Prop :=
  ∀ (h : HatchId) (clr : BitVec 16) (n : BitVec 4) (flushed nans : BitVec 32) (s : State), clr.toNat.testBit n.toNat = true →
    ∃ t, exec (.hatchEncclr h clr [(n, flushed, nans)]) s = .next t ∧
      t.reg (hatchAt h (0x1000 + 8 * n.toNat)) = BitVec.ofNat 64 (flushed.toNat * 2 ^ 32 + nans.toNat)

/-- R89, R160 and Tables 3.13, 3.14: HATCH_ENCCLR clears the counters of the slots named; CORE_ROWMAP.BYPASS takes 0 to 128 and CORE_SKEWn
its eight bytes in stand-alone mode, and other writes are discarded; that these are counted as other discarded writes are is the model's
choice for a BYPASS above 128 (assumption 112). -/
def EncoderAndRowMapWrites : Prop :=
  (∀ (h : HatchId) (clr : BitVec 16) (s : State),
    let a (k : Nat) : Nat := hatchAt h (0x1000 + 8 * k)
    ∃ t, exec (.hatchEncclr h clr []) s = .next t ∧ OnlyRegs ((List.range 16).map a) none s t ∧
      ∀ k < 16, t.reg (a k) = if clr.toNat.testBit k then 0 else s.reg (a k)) ∧
  (∀ (i : CoreId) (reg : Fin 17) (v : Word) (s : State),
    (s.standAlone i = true →
      (reg = 0 → bitsOf v 0 8 ≤ 128 →
        exec (.coreRowmapWrite i reg v) s = .next (settle (s.setRf (coreAt i 0x800) 0 8 (bitsOf v 0 8)))) ∧
      (reg = 0 → 128 < bitsOf v 0 8 → exec (.coreRowmapWrite i reg v) s = .next (settle s.discard)) ∧
      (reg ≠ 0 → exec (.coreRowmapWrite i reg v) s = .next (settle (s.setReg (coreAt i (0x808 + 8 * reg.val)) v)))) ∧
    (s.standAlone i = false → exec (.coreRowmapWrite i reg v) s = .next (settle s.discard)))

/-- R298, R346 and Tables 6.20, 6.24: a launch image at a multiple of 512 bytes enters a queue of four, and another write of HATCH_LAUNCH is
discarded; a trace base is stored and resets the index.  That a launch wakes a hatch that sleeps is the model's choice (assumption
121). -/
def LaunchAndTraceBaseWrites : Prop :=
  ∀ (h : HatchId) (v : Word) (s : State),
    let d := s.dom h.p (.hatch h.h)
    let u := s.modHatch h fun x => { x with lq := x.lq ++ [(BitVec.ofNat 28 (bitsOf v 0 28), none)] }
    (bitsOf v 0 28 % 512 = 0 → (s.hatch h).lq.length < 4 →
      (d.asleep = false → d.entering = false → exec (.hatchLaunchWrite h v) s = .next (settle u)) ∧
      (d.asleep = true ∨ d.entering = true → exec (.hatchLaunchWrite h v) s =
        .next (settle (u.setDom h.p (.hatch h.h) { d with waking := d.asleep, entering := false })))) ∧
    (bitsOf v 0 28 % 512 ≠ 0 ∨ 4 ≤ (s.hatch h).lq.length → exec (.hatchLaunchWrite h v) s = .next (settle s.discard)) ∧
    exec (.hatchTracebaseWrite h v) s = .next (settle ((s.setReg (hatchAt h 0x48) v).setRf (hatchAt h 0x40) 8 24 0))

/-- R41, R299, R300: roles change only while the hatch is idle or fenced with no launch queued and nothing saved, and when the indices of
the active cores are those from 0, each once; GLB_TOPO follows them; a program that runs on a core which leaves stand-alone mode halts
with STATUS 5.  Another write is discarded. -/
def RoleWrites : Prop :=
  ∀ (h : HatchId) (v : Word) (s : State),
    let x := s.hatch h
    let act := (List.range 9).filter fun j => bitsOf v (5 * j + 3) 2 == 0
    let legal : Prop := ∀ k < act.length, (act.filter fun j => bitsOf v (5 * j) 3 == k).length = 1
    let idle : Prop := s.activeCores h = [] ∨ (x.run = none ∧ x.pre = false)
    (idle → x.lq = [] → x.saved = none → legal →
      ((∀ i ∈ hatchCores h, s.standAlone i = true → bitsOf v (5 * i.pos + 3) 2 ≠ 2 → s.saStatus i ≠ 1) →
        exec (.hatchCoresWrite h v) s = .next (settle (s.setRf (hatchAt h 0x50) 0 45 v.toNat).topo)) ∧
      ∃ t, exec (.hatchCoresWrite h v) s = .next t ∧ t.rf (hatchAt h 0x50) 0 45 = v.toNat % 2 ^ 45 ∧
        ∀ i ∈ hatchCores h, s.standAlone i = true → bitsOf v (5 * i.pos + 3) 2 ≠ 2 → s.saStatus i = 1 → t.saStatus i = 5) ∧
    (¬ idle ∨ x.lq ≠ [] ∨ x.saved ≠ none ∨ ¬ legal → exec (.hatchCoresWrite h v) s = .next (settle s.discard))

/-- R41, R89, R160, R298–R300, R346 and Tables 3.13, 3.14, 6.20, 6.24: writes of the registers of a hatch and of the row map of a core, each
for every state and value: what it changes, or that it is discarded.
The model's own choices are in assumptions 72, 112 and 121. -/
def Obligations.HatchRegistersAct : Prop := EncoderAndRowMapWrites ∧ LaunchAndTraceBaseWrites ∧ RoleWrites

/-- R161, R162, R164, R219, R222, R254 and Table 3.19: the known-pattern test starts in stand-alone mode and passes when every faulty row is
the bypassed one, nothing else is faulty and the skew table agrees; a residue that does not fit sets its flag; a stand-alone program starts at its entry with its modes in force, and is
halted with STATUS 5. -/
def StandAloneRegistersAct : Prop :=
  ∀ (i : CoreId) (s : State),
    (s.standAlone i = true → ∃ t, exec (.mxtestStart i) s = .next t ∧ t.core i = { s.core i with mxRun := true, lastBand := 0 } ∧
      t.rf (coreAt i 0x8B8) 1 1 = 0 ∧ OnlyRegs [coreAt i 0x8B8] (some i) s t) ∧
    (s.standAlone i = false → exec (.mxtestStart i) s = .next (settle s)) ∧
    (s.clocked i = false → ∀ faulty other, exec (.mxtestDone i faulty other) s = .next (settle s)) ∧
    (s.clocked i = true → (s.core i).mxRun = true → ∀ faulty other,
      let good : Prop := other = false ∧ (s.core i).residue = [] ∧ skewRight s i = true ∧
        ∀ r ∈ faulty, r.toNat = s.rf (coreAt i 0x800) 0 8
      ∃ t, exec (.mxtestDone i faulty other) s = .next t ∧ (t.core i).mxRun = false ∧ bitOf (t.reg (coreAt i 0x8B8)) 1 = true ∧
        (t.core i).active = {} ∧ (t.core i).staged = {} ∧
        ((s.core i).residue = [] → OnlyRegs [coreAt i 0x8B8] (some i) s t) ∧
        ((s.core i).residue ≠ [] → bitOf (t.reg (coreAt i 0x898)) 1 = true) ∧
        (good → bitOf (t.reg (coreAt i 0x8B8)) 2 = true ∧ t.rf (coreAt i 0x8B8) 32 32 = mxGold.toNat) ∧
        (¬ good → bitOf (t.reg (coreAt i 0x8B8)) 2 = false ∧ t.rf (coreAt i 0x8B8) 32 32 ≠ mxGold.toNat)) ∧
    (s.standAlone i = true → s.saStatus i ≠ 1 → ∀ entry keep kx4,
      ∃ t, exec (.sactlStart i entry keep kx4) s = .next t ∧ t.saStatus i = 1 ∧ t.keepOn i = keep ∧ t.kx4On i = kx4 ∧
        t.core i = { s.core i with sa := { pc := entry.toNat, swap := (s.core i).sa.swap } } ∧ OnlyRegs [coreAt i 0xA40, coreAt i 0xA00] (some i) s t) ∧
    (s.standAlone i = true → s.saStatus i = 1 → (s.core i).pend = [] → (s.core i).pendSt = [] →
      ∃ t, exec (.sactlHalt i) s = .next t ∧ t.saStatus i = 5 ∧ t.rf (coreAt i 0xA40) 32 8 = (s.core i).sa.pc % 256 ∧
        t.core i = (s.core i).haltSwap ∧ OnlyRegs [coreAt i 0xA40] (some i) s t) ∧
    (s.standAlone i = false → exec (.sactlHalt i) s = .next (settle s.discard))

/-- R299, R391–R394: a start of the check-value unit in a core in service, with a non-zero count and none running, captures CORE_CVSRC and clears the result; a run over
core store in the mode without addresses gives the CRC-32C of its bytes with VALID set. -/
def CheckValues : Prop :=
  ∀ (i : CoreId) (s : State),
    (∀ v, s.standAlone i = false → s.role i = 3 → exec (.coreCvctlStart i v) s =
      .next (settle (s.setRf (coreAt i 0xC20) 2 4 (bitsOf v 2 4)).discard)) ∧
    (∀ v, s.standAlone i = false → s.role i ≠ 3 → s.rf (coreAt i 0xC20) 8 3 ≠ 1 → bitsOf v 2 2 < 2 → bitsOf (s.reg (coreAt i 0xC28)) 40 24 ≠ 0 →
      ∃ t, exec (.coreCvctlStart i v) s = .next t ∧ t.core i = { s.core i with cvRun := some (v ||| 1, s.reg (coreAt i 0xC28)) } ∧
        t.rf (coreAt i 0xC20) 8 3 = 1 ∧ t.rf (coreAt i 0xC20) 2 4 = bitsOf v 2 4 ∧ t.reg (coreAt i 0xC30) = 0 ∧
        OnlyRegs [coreAt i 0xC20, coreAt i 0xC30] (some i) s t) ∧
    (∀ ctl src, s.clocked i = true → s.mod.stall = false → (s.core i).cvRun = some (ctl, src) → bitsOf ctl 2 2 ≠ 1 → 2 ≤ bitsOf ctl 4 2 → (s.core i).csMarks = [] →
      ∃ t, exec (.cvRunComplete i) s = .next t ∧ t.core i = { s.core i with cvRun := none } ∧ t.rf (coreAt i 0xC20) 8 3 = 2 ∧
        t.reg (coreAt i 0xC30) =
          BitVec.ofNat 64 (2 ^ 32 + (crc32c ((s.core i).rd (bitsOf src 0 25) (128 * bitsOf src 40 24))).toNat) ∧
        OnlyRegs [coreAt i 0xC20, coreAt i 0xC30] (some i) s t)

/-- R161, R162, R219, R222, R391–R394: the stand-alone and check-value registers of a core.
The model's own choices are in assumptions 13, 79 and 80. -/
def Obligations.StandAloneAndCheckValues : Prop := StandAloneRegistersAct ∧ CheckValues

/-! ### Planner, loader and handle queues -/

/-- R329, R337, R338, R348: HQ_CFG with legal values sets the queue up with every buffer free in slot order and GEN 0; HQ_POOL moves the free
handles to the new pool; writes to a queue that is not quiescent are discarded; a reset returns every handle; a wait of HQ_CFG.TOUT ends
the commission of the endpoint that has waited longest with the reason HQ_TIMEOUT. -/
def HandleQueueRegisters : Prop :=
  ∀ (p : Fin 8) (q : Byte) (v : Word) (s : State),
    let n := q.toNat
    let x := s.hq p n
    let quiet : Prop := x.pub = [] ∧ x.held = []
    let legal : Prop := 1 ≤ bitsOf v 16 9 ∧ bitsOf v 16 9 ≤ 256 ∧ bitsOf v 48 16 ≠ 0 ∧ bitsOf v 0 8 ≠ bitsOf v 8 8
    let kept := v &&& 0xFFFFFFFF03FFFFFF#64
    (quiet → bitOf v 25 = true → legal → exec (.hqCfgWrite p q true v) s = .next (settle
      ((s.setReg (queueAt p n 8) kept).setHq p n
        { x with free := (List.range (bitsOf v 16 9)).map fun k =>
                   handleOf n ((s.setReg (queueAt p n 8) kept).rf (queueAt p n 0) 0 39) (bitsOf v 48 16) k 0 }))) ∧
    (quiet → bitOf v 25 = true → ¬ legal → exec (.hqCfgWrite p q true v) s =
      .next (settle (s.setReg (queueAt p n 8) (withBits kept 25 1 0)))) ∧
    (quiet → bitOf v 25 = false → exec (.hqCfgWrite p q true v) s = .next (settle (s.setReg (queueAt p n 8) kept))) ∧
    (quiet → exec (.hqCfgWrite p q false v) s = .next (settle
      ((s.setReg (queueAt p n 0) (BitVec.ofNat 64 (bitsOf v 0 39))).setHq p n
        { x with free := x.free.map fun w =>
                   handleOf n (bitsOf v 0 39) (s.rf (queueAt p n 8) 48 16) (hSlot w) (bitsOf w 56 8) }))) ∧
    (¬ quiet → ∀ cfg, exec (.hqCfgWrite p q cfg v) s = .next (settle s.discard)) ∧
    (∃ t, exec (.hqCtlReset p q) s = .next t ∧ (t.hq p n).pub = [] ∧ (t.hq p n).held = [] ∧
      (t.hq p n).free.Perm (x.free ++ x.held.map (fun y => genUp y.2) ++ x.pub.map genUp) ∧
      (t.hq p n).free.Pairwise (fun a b => hSlot a ≤ hSlot b) ∧ (∀ m, m ≠ n → t.hq p m = s.hq p m) ∧ t.regs = s.regs) ∧
    (∀ ep k rest c, x.wait = (ep, some k) :: rest → s.cmsn k = some c → s.rf (queueAt p n 8) 32 16 ≠ 0 → exec (.hqTimeout p q) s = .next (settle
      ((((s.setHq p n { x with wait := rest }).flag (queueAt p n 0x20) 0).reportFlag 0 (unitId 7 p.val 0) 0x0A 0 c.tag).endCmsn k 0x24))) ∧
    (x.wait = [] ∨ s.rf (queueAt p n 8) 32 16 = 0 → exec (.hqTimeout p q) s = .next (settle s))

/-- R339–R341, R344, R667 and Table 13.4: the first ready commission of a plate launches with the first plan entry that serves it, on up to HMAX
free hatches when a plate barrier group is free: it is RUNNING with one launch more, and each of its hatches has one launch image waiting;
with no entry it is FINISHED with status NO_PLAN.  A launch that waits for an access launches nothing yet (R386, R389). -/
def PlannerLaunches : Prop :=
  ∀ (p : Fin 8) (s u : State) (c : Cmsn) (e : Option PlanEntry), s.plateUp p = true → s.pair.state ≠ .fenced →
    s.engine.inReset = false → s.firstReady p = some c → s.cmsn c.key = some c →
    planScan c p (s.rf (plateAt p 0x1000) 0 28) (s.hatchesUp p).length (s.otherPlates p).length (s.rf (plateAt p 0x1000) 32 13) 0 s
      = (e, u) → u.cmsn c.key = some c →
    ((planGo s p).mod.stall = true → exec (.planLaunch p) s = .next (settle s)) ∧
    (e = none → u.mod.stall = false → exec (.planLaunch p) s =
      .next (settle (u.setCmsn { c with state := .finished, status := 0x25, held := false }))) ∧
    (∀ x tmpl u1 args u2, e = some x → u.saving c.key = false → x.pspan = 0 →
      x.foot % 256 = 0 → 0xA800000 ≤ x.foot → x.foot + 256 ≤ 0xB000000 →
      psRead u c.plate x.foot 256 = (tmpl, false, u1) → argsOf c x tmpl 24 0 u1 [] = (.ok args, u2) → u2.cmsn c.key = some c →
      u2.hatches = u.hatches → u2.mod.stall = false →
      let hs := (u.takeable c x).take x.hmax
      (x.hmin ≤ hs.length → u2.freePgroup c.plate = none → exec (.planLaunch p) s = .next (settle u2)) ∧
      (x.hmin ≤ hs.length → u2.freePgroup c.plate ≠ none → ∃ t d, exec (.planLaunch p) s = .next t ∧ t.cmsn c.key = some d ∧
        d.state = .running ∧ d.attempts = c.attempts + 1 ∧ d.hatches = hs ∧ d.held = false ∧ d.body = c.body ∧
        (∀ h ∈ hs, ∃ a, (t.hatch h).lq = [(a, some c.key)]) ∧ (∀ h, h ∉ hs → t.hatch h = s.hatch h) ∧ t.cores = u2.cores))

/-- R259, R294, R346, R347: an image that passes the loader's checks starts its kernel: the pc at ENTRY, the arguments in S1 to S24 and
every other register 0, the modes of the launch in force in each active core; an image that fails one is rejected with its reason, and
with the first ARG whose tensor fails a check, in HATCH_LAUNCHERR; a loader whose read waits has not checked. -/
def LoaderStartsKernels : Prop :=
  ∀ (h : HatchId) (s : State) (a : BitVec 28) (key : Option CmsnKey) (rest : List (BitVec 28 × Option CmsnKey)) (b : List Byte) (u : State),
    (s.hatch h).lq = (a, key) :: rest → (s.hatch h).run = none → (s.hatch h).pre = false → s.hatchUp h = true →
    s.awake h.p (.hatch h.h) = true → s.pair.state ≠ .fenced → psRead (s.modHatch h fun x => { x with lq := rest }) h.p a.toNat 512 = (b, false, u) →
    let l := launchOf b key
    ((loaderGo s h).mod.stall = true → exec (.loaderCheck h) s = .next (settle s)) ∧
    (∀ w, loadImage u h b = none → loadTensors h b 24 0 u = (none, w) → w.mod.stall = false →
      ∃ t, exec (.loaderCheck h) s = .next t ∧ (t.hatch h).run = some l ∧ (t.hatch h).seq = { pc := l.entry.toNat } ∧
        (t.hatch h).ended = none ∧ (∀ i ∈ w.activeCores h,
          (∀ k : BitVec 5, (t.core i).s k = if 1 ≤ k.toNat ∧ k.toNat ≤ 24 then nth 0 l.args (k.toNat - 1) else 0) ∧
          (∀ k, (t.core i).v k = 0) ∧ (∀ k, (t.core i).cb k = {}) ∧ (∀ k, (t.core i).ev k = 0) ∧
          t.keepOn i = l.modes.keep ∧ t.kx4On i = l.modes.kx4 ∧ t.fixedOn i = l.modes.det ∧ t.spillOn i = l.modes.spill.toNat) ∧
        (∀ i, i ∉ w.activeCores h → t.core i = w.core i)) ∧
    (key = none →
      let rejected (w : State) (arg r : Nat) : State :=
        (w.setReg (hatchAt h 0x80) (BitVec.ofNat 64 (leAt b 12 4 * 2 ^ 32 + 2 ^ 16 + arg * 256 + r))).setOwner h 0
      (∀ r, loadImage u h b = some r → u.mod.stall = false → exec (.loaderCheck h) s = .next (settle (rejected u 0 r))) ∧
      ∀ r arg w, loadImage u h b = none → loadTensors h b 24 0 u = (some (.check r arg), w) → w.mod.stall = false →
        exec (.loaderCheck h) s = .next (settle (rejected w arg r)))

/-- R259, R294, R339–R347: the planner launches ready commissions and the loader starts their kernels.
The model's own choices are in assumptions 13, 74, 75 and 76. -/
def Obligations.PlannerAndLoader : Prop := PlannerLaunches ∧ LoaderStartsKernels

/-- R350, R572, R574: a hatch that pre-empts saves its kernel, its sequencer and its cores when nothing runs, and is idle; its save region
in plate store holds the image; a resume puts the kernel and the sequencer back, and the registers of each core, while core store stays
as it stands.
The model's own choices are in assumptions 77 and 114. -/
def Obligations.PreemptionSavesAndRestores : Prop :=
  (∀ (h : HatchId) (s : State) (l : Launch), (s.hatch h).run = some l → (s.hatch h).pre = true → (s.hatch h).ended = none →
    (∀ i ∈ s.activeCores h, saveQuiet (s.core i) = true) → saveFault s h = false →
    ∃ t, exec (.preemptSaveComplete h) s = .next t ∧ (t.hatch h).run = none ∧ (t.hatch h).pre = false ∧
      (t.hatch h).saved = some { launch := l, seq := (s.hatch h).seq, cores := (s.activeCores h).map fun i => (i.key, s.core i) } ∧
      (∀ a, saveBase h.h ≤ a → a < saveBase h.h + saveSize →
        (t.plate h.p).byte a = Config.saveByte (s.freeCtr + 1) (a - saveBase h.h)) ∧
      (∀ k, k ≠ h → t.hatch k = s.hatch k) ∧ (∀ i, i ∉ s.activeCores h → t.core i = s.core i)) ∧
  (∀ (k : CmsnKey) (s : State) (c : Cmsn) (h : HatchId) (v : Saved), s.cmsn k = some c → c.state = .preempted → c.byCmsn = none →
    c.hatches = [h] → c.ended = [] → (s.hatch h).run = none → (s.hatch h).lq = [] → (s.hatch h).saved = some v →
    s.hatchUp h = true → v.cores.map (·.1) = (s.activeCores h).map (·.key) → (s.readImages [h]).1 = false →
    ∃ t, exec (.resume k) s = .next t ∧ (t.hatch h).run = some v.launch ∧ (t.hatch h).seq = v.seq ∧ (t.hatch h).saved = none ∧
      (∃ d, t.cmsn k = some d ∧ d.state = .running) ∧
      ∀ i ∈ s.activeCores h, ∀ y, v.cores.find? (fun y => y.1 == i.key) = some y →
        (t.core i).sregs = y.2.sregs ∧ (t.core i).vregs = y.2.vregs ∧ (t.core i).acc = y.2.acc ∧ (t.core i).tq = y.2.tq ∧
        (t.core i).store = (s.core i).store)

/-- R14, R339, R359, R666: PLAN_BASE and PLAN_KREG take legal values until they are locked; XLT_INVAL with GO drops the granules from the
caches of the plate and waits for the requests translated before, and DONE reads 1 again when those have completed. -/
def PlateRegistersAct : Prop :=
  ∀ (p : Fin 8) (v : Word) (s : State),
    (s.mod.locked = true → exec (.planBaseWrite p v) s = .next (settle s.discard) ∧
      exec (.planKregWrite p v) s = .next (settle s.discard)) ∧
    (s.mod.locked = false → bitsOf v 32 13 ≤ 4096 → bitsOf v 0 28 % 64 = 0 →
      exec (.planBaseWrite p v) s = .next (settle (s.setReg (plateAt p 0x1000) (v &&& 0x1FFF0FFFFFFF#64)))) ∧
    (s.mod.locked = false → bitsOf v 14 25 * 16384 + 16384 * bitsOf v 39 25 ≤ 2 ^ 39 →
      exec (.planKregWrite p v) s = .next (settle (s.setReg (plateAt p 0x1010) v))) ∧
    (bitOf (s.reg (plateAt p 0x2008)) 62 = true →
      let first := bitsOf v 0 25
      let n := if bitsOf v 25 25 = 0 then 2 ^ 25 else bitsOf v 25 25
      ∃ t, exec (.xltInvalGo p v) s = .next t ∧ bitOf (t.reg (plateAt p 0x2008)) 62 = false ∧ (t.plate p).inval.isSome = true ∧
        (t.plate p).l2 = sclear (s.plate p).l2 first n ∧ (∀ c, (t.core ⟨p, c⟩).l1 = sclear (s.core ⟨p, c⟩).l1 first n) ∧
        (∀ r, r ≠ p → t.plate r = s.plate r) ∧ (∀ i, (t.core i).outst = (s.core i).outst)) ∧
    (∀ cs, (s.plate p).inval = some (cs, []) →
      let waits (d : DReq) : Prop := (d.src, d.tag, d.line) ∈ (s.plate p).invalWay ∨ ∃ x ∈ cs, d.src.toNat = coreEp ⟨p, fin 36 x.1⟩ ∧
        d.tag = x.2.tag ∧ d.line.toNat / 128 = x.2.place % 2 ^ 34 / 128
      ((∃ d ∈ s.onWay, waits d) → exec (.xltInvalDone p) s = .next (settle s)) ∧
      ((∀ x ∈ cs, ∀ r ∈ (s.core ⟨p, fin 36 x.1⟩).outst, { r with mine := x.2.mine } ≠ x.2) → (∀ d ∈ s.onWay, ¬ waits d) →
        s.engine.moves = [] →
      ∃ t, exec (.xltInvalDone p) s = .next t ∧ (t.plate p).inval = none ∧ bitOf (t.reg (plateAt p 0x2008)) 62 = true))

/-- R14, R329, R337–R339, R348, R359, R666: writes of a plate controller's registers.
The model's own choices are in assumptions 70 and 78. -/
def Obligations.PlateRegisterWrites : Prop := HandleQueueRegisters ∧ PlateRegistersAct

/-! ### The plate network -/

/-- R401, R404, R408, R411, R415, R416: the oldest packet that can move takes its next step to the neighbouring router over a group with a
link up, where the next group accepts it on the link of its source and destination; or it reaches its endpoint; or it waits at a domain
that sleeps or enters sleep, and wakes it. -/
def PacketsHop : Prop :=
  (∀ (i : RouterId) (s : State),
    let r := s.router i
    ∀ pk rest, r.q = pk :: rest → movable s i pk = true →
      let g := pk.route.toNat % 8
      let u := s.setRouter i (RouterSt.rehash { r with q := rest } g)
      (∀ n, g < 4 → meshNext i g = some n → sget 0 r.up g ≠ 0 → exec (.packetHop i) s = .next (settle (u.modRouter n fun x =>
        let p : Packet := { pk with route := pk.route >>> 3, vc1 := pk.vc1 || (g == 3 && pk.nonW), nonW := pk.nonW || g != 3 }
        let k := p.route.toNat % 8
        { x with q := x.q ++ [{ p with link :=
          if k < 4 && !x.stopped.contains k then pickLink (sget 0 x.up k) pk.src pk.dst else none }] }))) ∧
      (∀ n, g < 4 → meshNext i g = some n → sget 0 r.up g = 0 → exec (.packetHop i) s =
        .next (settle (u.netFault i 5 (linkGroup i (meshOf g))))) ∧
      (∀ j, 4 ≤ g → let a := i.p.val * 128 + i.q.val * 32 + (g - 4) * 8 + pk.route.toNat / 8 % 8
        epOf a = .core j → 1 ≤ pk.kind.toNat → pk.kind.toNat < 14 → u.epFenced (.core j) = false →
        let d : Domain := .hatch j.hatch.h
        let y := s.dom j.p d
        (y.asleep = false → y.entering = false → y.waking = false → y.reset = false →
          exec (.packetHop i) s = .next (settle (u.setInbox a (s.inboxOf a ++ [pk])))) ∧
        (y.asleep = true ∨ y.entering = true → y.waking = false → exec (.packetHop i) s = .next (settle
          ((u.satRf (netAt j.p 8) 32 32 1).setDom j.p d
            { y with waking := true, entering := false, entry := y.entry ++ [{ pk with dst := BitVec.ofNat 10 a }] }))))) ∧
  (∀ (up : Byte) (src dst : BitVec 10), (∀ l, pickLink up src dst = some l → up.toNat.testBit l.val = true) ∧
    (up ≠ 0 → pickLink up src dst ≠ none))

/-- R403, R409–R411: links come up and go down, and their group accepts no packet until those it holds have gone on; with no link left the
packets that wait for the group are discarded and counted; more than RMAX replays of a link within 1 ms take it down; a route-table write
that breaks a rule is refused with BADROUTE. -/
def LinksAndRoutes : Prop :=
  ∀ (i : RouterId) (s : State),
    let r := s.router i
    (∀ m l, (meshNext i (meshCode m)).isSome = true →
      let k := meshCode m
      let up := sget 0 r.up k
      let key := 8 * k + l.val
      let off := up &&& ~~~(BitVec.ofNat 8 (2 ^ l.val))
      let changed (now : Byte) : RouterSt :=
        { r with up := sset 0 r.up k now, replays := sdel r.replays key,
                 stopped := if r.stopped.contains k then r.stopped else r.stopped ++ [k] }
      let aft := changed (up ||| BitVec.ofNat 8 (2 ^ l.val))
      ((∃ pk ∈ r.q, pk.route.toNat % 8 = k ∧ pk.link ≠ none) → exec (.linkUp i m l) s = .next (settle (s.setRouter i aft))) ∧
      ((∀ pk ∈ r.q, pk.route.toNat % 8 = k → pk.link = none) → exec (.linkUp i m l) s = .next (settle (s.setRouter i
        { aft with stopped := aft.stopped.filter (· != k),
                   q := r.q.map fun pk => if pk.route.toNat % 8 = k then { pk with link := pickLink (sget 0 aft.up k) pk.src pk.dst } else pk }))) ∧
      (up.toNat.testBit l.val = true →
        let down := (s.setRouter i (RouterSt.rehash (changed off) k)).netFault i 4 (linkGroup i m)
        (off ≠ 0 → exec (.linkDown i m l) s = .next (settle down)) ∧
        (off = 0 → (∀ pk ∈ r.q, pk.route.toNat % 8 ≠ k) → ∃ t, exec (.linkDown i m l) s = .next t ∧ sget 0 (t.router i).up k = 0 ∧
          (t.router i).q = r.q ∧ t.gfc = down.gfc) ∧
        (off = 0 → ∃ t, exec (.linkDown i m l) s = .next t ∧ (t.router i).q = r.q.filter (fun pk => pk.route.toNat % 8 != k) ∧
          ∀ j, j ≠ i → t.router j = s.router j) ∧
        let ts := (sget [] r.replays key).filter (fun t => (s.mod.time - t).toNat < 1000000) ++ [s.mod.time]
        let again := (s.setRouter i { r with replays := sput r.replays key ts }).netFault i 3 (linkGroup i m)
        (ts.length ≤ s.rf (netAt i.p 0) 16 8 → exec (.linkReplay i m l) s = .next (settle again)) ∧
        (s.rf (netAt i.p 0) 16 8 < ts.length → exec (.linkReplay i m l) s = exec (.linkDown i m l) again))) ∧
    (∀ e v, (routeOk i v = true → exec (.netRteWrite i e v) s =
        .next (settle (s.setReg (routerAt i (0x800 + 8 * e.val)) (v &&& 0x1FFFFFFFFFFFFF)))) ∧
      (routeOk i v = false → exec (.netRteWrite i e v) s = .next (settle (s.flag (routerAt i 8) 2).discard)))

/-- R401, R403, R404, R408–R411, R415, R416: packets and links of the plate network.
The model's own choices are in assumptions 5, 86 and 118. -/
def Obligations.PacketsAndLinks : Prop := PacketsHop ∧ LinksAndRoutes

/-- R414: when the arrivals of a group reach the participant count of its first arrival, a BREL goes to every participant that arrived and
the counter is cleared; an arrival of another count sends a fault record and aborts the commission of its sender. -/
def Obligations.BarriersCount : Prop :=
  ∀ (p : Option (Fin 8)) (s : State) (pk : Packet) (md : Bool) (g : BitVec 4) (n : Byte) (k : Option CmsnKey) (h : HatchId),
    let a := match p with
      | some p => agentEp p
      | none => moduleBarEp
    ((s.inboxOf a).find? fun pk => pk.kind == 10) = some pk → pk.load = .barr md g n k h →
    (∃ l, (s.hatch h).run = some l ∧ l.key = k) → (s.hatch h).seq.arrived = true →
    let u := s.setInbox a ((s.inboxOf a).eraseP fun pk => pk.kind == 10)
    let x := s.bar p g
    (x.arrived = [] ∨ x.count = n →
      (x.arrived.length + 1 < n.toNat → exec (.barr p) s =
        .next (settle (u.setBar p g { count := n, arrived := x.arrived ++ [h] }))) ∧
      (n.toNat ≤ x.arrived.length + 1 → exec (.barr p) s = .next (settle
        ((x.arrived ++ [h]).foldl (fun (t : State) y => t.inject a (hatchEpAddr y) .brel) (u.setBar p g {}))))) ∧
    (x.arrived ≠ [] → x.count ≠ n → exec (.barr p) s = .next (settle
      ((u.reportFlag 0 (hatchUnit h) 0x01 2 (s.tagQ (.hatch h)) (s.hatch h).seq.pc 5).abortHatch h)))

/-- R413: a barrier message of a hatch that no longer waits is dropped; a release lets a waiting hatch go on. -/
def BarrierMessages : Prop :=
  (∀ (p : Option (Fin 8)) (s : State) (pk : Packet) (md : Bool) (g : BitVec 4) (n : Byte) (k : Option CmsnKey) (h : HatchId),
    let a := match p with
      | some p => agentEp p
      | none => moduleBarEp
    ((s.inboxOf a).find? fun pk => pk.kind == 10) = some pk → pk.load = .barr md g n k h →
    ¬ ((∃ l, (s.hatch h).run = some l ∧ l.key = k) ∧ (s.hatch h).seq.arrived = true) →
      exec (.barr p) s = .next (settle (s.setInbox a ((s.inboxOf a).eraseP fun pk => pk.kind == 10)))) ∧
  (∀ (h : HatchId) (s : State),
    let a := hatchEpAddr h
    (∃ pk ∈ s.inboxOf a, pk.kind = 11) →
    let u := s.setInbox a ((s.inboxOf a).eraseP fun pk => pk.kind == 11)
    ((s.hatch h).seq.arrived = true → exec (.brel h) s =
      .next (settle (u.modHatch h fun x => { x with seq := { x.seq with release := true } }))) ∧
    ((s.hatch h).seq.arrived = false → exec (.brel h) s = .next (settle u)))

/-- R258, R413: the barrier operations of a hatch and their messages.
The model's own choices are in assumptions 5, 11 and 68. -/
def Obligations.BarriersHoldAndRelease : Prop := BarriersHold ∧ BarrierMessages

/-- R353–R356, R415, R416, R418: sleep requests are stored and clearing one wakes its domain; an idle domain with a request enters sleep and
then sleeps, unless a condition fails between; a domain that wakes hands its queued packets over in order; a walk that finds a legal entry puts it into the caches, and one that finds a fault leaves
them; one whose read has to wait has not completed.
The model's own choices are in assumptions 5, 13 and 119. -/
def Obligations.DomainsAndWalks : Prop :=
  ∀ (p : Fin 8) (d : Domain) (v : Word) (s : State),
    let x := s.dom p d
    (∃ t, exec (.netPwrWrite p v) s = .next t ∧ t.rf (netAt p 8) 0 12 = bitsOf v 0 12 ∧
      t.dom p d = (if bitOf v (sleepBit d) = true then x else if x.asleep = true then { x with waking := true }
        else { x with entering := false }) ∧
      (∀ r, r ≠ p → t.plate r = s.plate r) ∧ (∀ a, a ≠ netAt p 8 → t.reg a = s.reg a)) ∧
    (bitOf (s.reg (netAt p 8)) (sleepBit d) = true → domIdle s p d = true →
      (x = {} → exec (.domainSleepEnter p d) s = .next (settle (s.setDom p d { entering := true }))) ∧
      (x = { entering := true } → (∀ r, d = .region r → (s.region ⟨p, r⟩).state ≠ .opened) →
        exec (.domainSleepEnter p d) s = .next (settle (s.setDom p d { asleep := true })))) ∧
    (bitOf (s.reg (netAt p 8)) (sleepBit d) = false ∨ domIdle s p d = false →
      (x.entering = false → exec (.domainSleepEnter p d) s = .next (settle s)) ∧
      (x.entering = true → exec (.domainSleepEnter p d) s = .next (settle (s.setDom p d { x with entering := false })))) ∧
    (x.waking = true → x.reset = false → (∀ pk ∈ x.entry, s.epFenced (epOf pk.dst.toNat) = false ∧ epOf pk.dst.toNat = .absent) →
      let awake := { x with asleep := false, waking := false }
      exec (.domainWakeComplete p d) s = .next (settle (x.entry.foldl (fun (t : State) pk =>
          t.setInbox pk.dst.toNat (t.inboxOf pk.dst.toNat ++ [pk]))
        ((s.setDom p d awake).setDom p d { awake with entry := [] })))) ∧
    (∀ w rest y u, (s.plate p).walks = w :: rest →
      walkEntry (s.modPlate p fun z => { z with walks := rest }) p w.granule.toNat = (y, u) →
      (∀ e, y = .ok e → u.mod.stall = true → exec (.walkComplete p) s = .next (settle s)) ∧
      (∀ e, y = .ok e → u.mod.stall = false →
        let c := u.modPlate p fun z => { z with l2 := sput z.l2 w.granule.toNat e }
        (w.core = none → exec (.walkComplete p) s = .next (settle c)) ∧
        ∀ k, w.core = some k → exec (.walkComplete p) s =
          .next (settle (c.modCore ⟨p, k⟩ fun z => { z with l1 := sput z.l1 w.granule.toNat e }))) ∧
      (∀ cause, y = .error cause → w.core = none → exec (.walkComplete p) s = .next (settle (if u.mod.stall then s else u))))

/-! ### Stacked DRAM -/

/-- R375–R379, R385, R388: a stack serves the request that its order picks: enabled bytes are stored, or the line is read, and the answer
leaves for the requester; a failed stack answers UNREACH; a missed panic deadline, a closed page, the refresh rate with its hysteresis,
and the patrol. -/
def DramServes : Prop :=
  ∀ (i : StackId) (s : State),
    let x := s.stack i
    (∀ ch d, x.state = 1 → x.resetting = false → x.marks = [] → pickReq s i ch.val = some d → d.line.toNat % 128 = 0 → d.mir = none →
      let a := d.line.toNat
      let reply (y : Payload) : SMap RouterSt := (s.inject (stackEp i d.port.val) d.src.toNat y).routers
      let left := (x.queue.erase d).map fun e => if (reqLoc s i e).ch = ch.val then { e with age := e.age + 1 } else e
      ∃ t, exec (.dramSchedule i ch) s = .next t ∧ (t.stack i).queue = left ∧ (∀ j, j ≠ i → t.stack j = s.stack j) ∧
        (d.write = true → (∀ j < 128, d.en.toNat.testBit j = true → sget 0 (t.stack i).mem (a + j) = nth 0 d.data j) ∧
          (∀ b, (∀ j < 128, d.en.toNat.testBit j = true → b ≠ a + j) → sget 0 (t.stack i).mem b = sget 0 x.mem b) ∧
          t.routers = reply (.wack d.tag 0)) ∧
        (d.write = false → d.en = BitVec.allOnes 128 → (t.stack i).mem = x.mem ∧
          t.routers = reply (.rdata d.tag 0 (readMem x.mem a 128)))) ∧
    (∀ ch d rest, x.state = 3 → x.queue = d :: rest → exec (.dramSchedule i ch) s =
      .next (settle ((s.setStack i { x with queue := rest }).answer i d 3 (List.replicate 128 0)))) ∧
    (∀ port cycles, x.panic.toNat.testBit port.val = true →
      let a := stackAt i 0x50
      exec (.panicDeadlineMiss i port cycles) s = .next (settle
        (((s.setRf a 32 32 (max (s.rf a 32 32) cycles.toNat)).flag (stackAt i 0x18) 2).reportFlag (stackUnit i) (stackUnit i) 0x09 2))) ∧
    (∀ port cycles, x.panic.toNat.testBit port.val = false → exec (.panicDeadlineMiss i port cycles) s = .next (settle s)) ∧
    (∀ ch sid bank, exec (.pageIdleClose i ch sid bank) s = .next (settle (s.modStack i fun x =>
      { x with rows := sdel x.rows ((ch.val * 3 + sid.val) * 16 + bank.val) }))) ∧
    (∀ temp : BitVec 8, ∃ t, exec (.refresh i temp) s = .next t ∧ (t.stack i).temp = temp ∧
      (95 ≤ temp.toNat → (t.stack i).refrate = 2) ∧
      (85 ≤ temp.toNat → temp.toNat < 95 → (t.stack i).refrate = if x.refrate = 2 ∧ 92 < temp.toNat then 2 else 1) ∧
      (temp.toNat ≤ 82 → (t.stack i).refrate = 0) ∧
      (82 < temp.toNat → temp.toNat < 85 → (t.stack i).refrate = if x.refrate = 0 then 0 else 1) ∧
      (∀ j, j ≠ i → t.stack j = s.stack j) ∧ t.regs = s.regs) ∧
    (s.rf (stackAt i 0) 24 8 ≠ 0 → x.state = 1 → x.resetting = false → s.mustWait i (x.patrol % 0xC000000 * 64) = true →
      exec (.patrolRead i) s = .next (settle s)) ∧
    (s.rf (stackAt i 0) 24 8 ≠ 0 → x.state = 1 → x.resetting = false → x.marks = [] → s.mod.stall = false →
      s.mustWait i (x.patrol % 0xC000000 * 64) = false →
      exec (.patrolRead i) s = .next (settle ((s.openRow i (x.patrol % 0xC000000 * 64)).modStack i fun x =>
        { x with patrol := (x.patrol + 1) % 0xC000000 }))) ∧
    (s.rf (stackAt i 0) 24 8 ≠ 0 → x.state = 1 → x.resetting = false → s.mod.stall = false → ∀ u, u = x.patrol % 0xC000000 →
      s.mustWait i (64 * u) = false → x.mark u = some .uncorrectable →
      ∃ t, exec (.patrolRead i) s = .next t ∧ bitOf (t.reg (stackAt i 0x18)) 1 = true ∧ t.gfc.frec = s.gfc.frec ++
        [memRec s { cause := cDataUe, phys := some (i, 64 * u, 0x7F), suspect := stackUnit i } 8 i.s.val i.p.val (stackUnit i) false
          false 0 0])

/-- R386, R387, R389, R390: GO starts the copy of a row unless one runs; its completion enters the mapping in the first free entry, or sets
RETFULL, whereupon the granules of the row are moved; a second row of a bank goes to the next spare; a per-function reset answers what is queued with UNREACH, keeps the address order and waits for retraining; a stack that has
trained serves what waited, and one that has failed stays so. -/
def RowsRetireAndStacksReset : Prop :=
  ∀ (i : StackId) (s : State),
    let x := s.stack i
    let a := stackAt i 0x48
    (∀ v, bitOf v 0 = true → bitOf (s.reg a) 1 = false → bitsOf v 40 2 ≠ 3 →
      let row := v &&& 0xFFFFFF0000000000
      exec (.stackRetireGo i v) s = .next (settle
        (((s.setReg a (row ||| (s.reg a &&& 6))).setRf a 1 1 1).modStack i fun x => { x with retire := some row }))) ∧
    (∀ v, bitOf v 0 = true → bitOf (s.reg a) 1 = true ∨ bitsOf v 40 2 = 3 → exec (.stackRetireGo i v) s = .next (settle s.discard)) ∧
    (∀ w, x.retire = some w → x.due = [] → x.failed = [] →
      ((∀ k < 256, bitOf (sget 0 s.nv.ret (256 * i.key + k)) 0 = false) → ∃ t, exec (.rowRetireComplete i) s = .next t ∧
        (t.stack i).retire = none ∧ sget 0 t.nv.ret (256 * i.key) = w ||| 1 ∧ t.rf a 1 2 = 0 ∧
        (∀ k, k ≠ 256 * i.key → sget 0 t.nv.ret k = sget 0 s.nv.ret k) ∧ (t.stack i).mem = x.mem) ∧
      (∀ e, sget 0 s.nv.ret (256 * i.key) = e → bitOf e 0 = true → bitsOf e 40 10 = bitsOf w 40 10 → bitsOf e 1 2 = 0 →
        (∀ k < 256, k ≠ 0 → bitOf (sget 0 s.nv.ret (256 * i.key + k)) 0 = false) → ∃ t, exec (.rowRetireComplete i) s = .next t ∧
        sget 0 t.nv.ret (256 * i.key) = e ∧ sget 0 t.nv.ret (256 * i.key + 1) = w ||| 3) ∧
      ((∀ k < 256, bitOf (sget 0 s.nv.ret (256 * i.key + k)) 0 = true) →
        let u := ((((s.modStack i fun y => { y with retire := none }).setRf a 1 1 0).setRf a 2 1 1).flag (stackAt i 0x18) 3).modStack i
          fun y => { y with failed := [w] }
        u.rf a 1 2 = 2 ∧ bitOf (u.reg (stackAt i 0x18)) 3 = true ∧ (u.stack i).retire = none ∧
        exec (.rowRetireComplete i) s = .next (settle (u.moveRow i w)) ∧
        (mapped u = [] → exec (.rowRetireComplete i) s = .next (settle u)))) ∧
    (x.resetting = true → exec (.stackReset i) s = .next (settle s.discard)) ∧
    (x.resetting = false → x.queue = [] → x.state ≠ 3 → ∃ t, exec (.stackReset i) s = .next t ∧
      t.stack i = { x with queue := [], resetting := true, state := 2, rows := [], panic := 0, retire := none, temp := 0,
                           refrate := 0, due := x.due ++ x.retire.toList } ∧
      t.rf (stackAt i 0) 16 2 = s.rf (stackAt i 0) 16 2 ∧ (∀ o ∈ [8, 0x18, 0x40, 0x48, 0x50], t.reg (stackAt i o) = resetOf (stackAt i o)) ∧
      (∀ j, j ≠ i → t.stack j = s.stack j) ∧ t.routers = s.routers) ∧
    (∀ d, x.resetting = false → x.queue = [d] → epOf d.src.toNat = .absent → ∃ t, exec (.stackReset i) s = .next t ∧ (t.stack i).queue = [] ∧
      t.routers = (s.inject (stackEp i d.port.val) d.src.toNat
        (if d.write then .wack d.tag 3 else .rdata d.tag 3 (List.replicate 128 0))).routers) ∧
    (x.resetting = true → x.state = 3 → ∀ b, exec (.stackResetComplete i b) s =
      .next (settle (s.setStack i { x with resetting := false }).topo)) ∧
    (x.resetting = true → x.state ≠ 3 →
      (x.due = [] → ∃ t, exec (.stackResetComplete i true) s = .next t ∧ t.stack i =
        { x with resetting := false, state := 1, fails := 0, queue := x.queue ++ x.wait, wait := [] } ∧
        (∀ b, b ≠ 8 → t.reg b = s.reg b)) ∧
      (x.fails < 2 → ∃ t, exec (.stackResetComplete i false) s = .next t ∧ t.stack i =
        { x with resetting := false, state := 0, fails := x.fails + 1, queue := x.queue ++ x.wait, wait := [] }) ∧
      (2 ≤ x.fails → ∃ t, exec (.stackResetComplete i false) s = .next t ∧ (t.stack i).state = 3 ∧ t.pins.faultN = false)) ∧
    (x.resetting = false → ∀ b, exec (.stackResetComplete i b) s = .next (settle s.topo))

/-- R375–R390: what a DRAM stack does.
The model's own choices are in assumptions 5, 13, 29, 95 and 139. -/
def Obligations.StackedDram : Prop := DramServes ∧ RowsRetireAndStacksReset

/-! ### The global fault collector -/

/-- R403, R565, R566 and §9.4: a record of a new key is latched while an entry is free, one of a known key counts in its entry, one more is
counted as overflow; the end of a window ranks the entries and holds them until the bank is released; a window without records ends
silently; the steward keeps a route whose groups are all up, and puts the default route back where that one avoids the failure.
The model's own choices are in assumptions 5, 28 and 86. -/
def Obligations.FaultsAreCollected : Prop :=
  ∀ (s : State),
    let g := s.gfc
    (∀ r rest, g.frec = r :: rest →
      let key := if r.suspect = 0 then r.reporter else r.suspect
      let u := (s.modGfc fun g => { g with frec := rest, seen := true }).tel 0x0701 0
      ((∀ e ∈ g.opened, e.key ≠ key) → g.opened.length < 256 → exec .faultRecord s = .next (settle (u.modGfc fun g =>
        { g with opened := g.opened ++ [{ key, info := r.suspect == 0, own := r.suspect == r.reporter, wit := 0, rcd := r }] }))) ∧
      ((∀ e ∈ g.opened, e.key ≠ key) → 256 ≤ g.opened.length → exec .faultRecord s = .next (settle (u.satRf 0x1008 0 9 1))) ∧
      ((∃ e ∈ g.opened, e.key = key) → exec .faultRecord s = .next (settle (u.modGfc fun g =>
        { g with opened := g.opened.map fun e => if e.key = key then e.take r else e })))) ∧
    (g.seen = false → exec .faultWindowEnd s = .next (settle s)) ∧
    (g.seen = true → g.held = true → exec .faultWindowEnd s = .next (settle (s.satRf 0x1008 20 8 1))) ∧
    (g.seen = true → g.held = false → ∃ t, exec .faultWindowEnd s = .next t ∧ t.gfc.opened = [] ∧ t.gfc.held = true ∧
      t.gfc.seen = false ∧ t.gfc.closed.Perm g.opened ∧
      (t.gfc.closed.filter fun e => !e.info && e.own) = (g.opened.filter fun e => !e.info && e.own) ∧
      (t.gfc.closed.filter fun e => !e.info && !e.own).Pairwise (fun a b => b.wit.toNat ≤ a.wit.toNat) ∧
      bitOf (t.reg 0x1010) 0 = true ∧ t.mod.lines.toNat.testBit 0 = true) ∧
    exec .gfcRelease s = .next (settle { s with gfc := { g with closed := [], held := false, tested := 0 } }) ∧
    (∀ i e, let a := routerAt i (0x800 + 8 * e.val)
      let steps (v : Word) : List Nat := (List.range (bitsOf v 48 4 - 1)).map fun k => bitsOf v (3 * k) 3
      (bitOf (s.reg a) 52 = true → routeLive s i (steps (s.reg a)) = true →
        exec (.stewardRouteRewrite i e) s = .next (settle s.topo)) ∧
      (routeLive s i (steps (s.reg a)) = false → routeLive s i (steps (resetOf a)) = true →
        exec (.stewardRouteRewrite i e) s = .next (settle (s.setReg a (resetOf a)).topo)))

/-! ### The commission engine -/

/-- The body of a VERDICT (Table 13.2). -/
def verdictMsg (s : State) (k : CmsnKey) (body : List Byte) (flags reason : Nat) : Msg :=
  { kind := BitVec.ofNat 8 2, once := false, stream := k.stream, seq := k.seq,
    body := leBytes 4 (leAt body 8 4) ++ leBytes 1 flags ++ leBytes 1 reason ++ leBytes 2 0 ++ leBytes 8 s.mod.time.toNat }

/-- R42, R44, R526–R533 and Table 13.3: a commission that meets every check is accepted: in Solo mode at once, with its ACCEPT record and its
verdict, the stream goes on, and it is READY when it has no outputs; in Paired mode with a tie port Active it waits for the JACK that covers its record, and is
refused with TIE_TIMEOUT when none comes; a submission again is answered without effect, and one out of order is refused. -/
def CommissionsAreAccepted : Prop :=
  ∀ (port : Fin 8) (k : CmsnKey) (body : List Byte) (s : State), (∀ x ∈ s.engine.pending, x.key.stream ≠ k.stream) →
    let say (u : State) (flags reason : Nat) : State := u.send (fabPort port) (verdictMsg s k body flags reason)
    let serving : Prop := s.engine.ready = true ∧ s.engine.inReset = false ∧ (s.rf (engineAt 8) 0 8).testBit port.val = true ∧
      cmsnForm body = true
    let next := sget none s.engine.streams k.stream.toNat
    let record : JRec := { jseq := s.engine.jseq + 1, time := s.mod.time, type := .accept, modes := s.modesOf port, port,
                           stream := k.stream, status := 0, attempts := 0, seq := k.seq, body, crcOk := true }
    (s.engine.ready = false → exec (.commission port k body) s = .next (settle (say (s.tel 0x0302 1) 1 1))) ∧
    (serving → s.pair.state = .solo →
      (∀ n, next = some n → 1 ≤ (n - k.seq).toNat → (n - k.seq).toNat ≤ 2 ^ 31 →
        exec (.commission port k body) s = .next (settle (say s 2 0))) ∧
      (∀ n, next = some n → 2 ^ 31 < (n - k.seq).toNat →
        exec (.commission port k body) s = .next (settle (say (s.tel 0x0302 6) 1 6))) ∧
      (next = none ∨ next = some k.seq → s.engine.own.length + 2 ≤ 65536 → s.cmsn k = none →
        ∃ t c, exec (.commission port k body) s = .next t ∧ t.cmsn k = some c ∧ c.body = body ∧ c.modes = s.modesOf port ∧ c.port = port ∧
          c.tag = BitVec.ofNat 32 (leAt body 8 4) ∧ c.state = (if leAt body 6 2 = 0 then .ready else .accepted) ∧ c.attempts = 0 ∧
          sget none t.engine.streams k.stream.toNat = some (k.seq + 1) ∧ t.engine.own = s.engine.own ++ [record] ∧
          t.engine.jseq = record.jseq ∧ t.ports = (say s 0 0).ports ∧ t.hatches = s.hatches ∧ t.cores = s.cores)) ∧
    (serving → s.pair.state = .paired ∨ (s.pair.state = .isolated ∧ s.degrade = true) → s.tieUp = true → next = none ∨ next = some k.seq → s.engine.own.length + 2 ≤ 65536 →
      ∃ t, exec (.commission port k body) s = .next t ∧ t.engine.own = s.engine.own ++ [record] ∧
        t.engine.sentJ = s.engine.sentJ ++ [record] ∧ t.engine.cmsns = s.engine.cmsns ∧ t.engine.streams = s.engine.streams ∧
        t.engine.pending = s.engine.pending ++ [{ key := k, port, modes := s.modesOf port, body, jseq := record.jseq, come := s.mod.time }] ∧
        t.ports = (s.send s.tiePort (tieMsg 0x10 (journalBody record))).ports)

/-- R44, R530, R532: a JACK that covers an undecided commission's record accepts it; without one in time it is refused with TIE_TIMEOUT, its
record is freed and a VOID record follows; in DETACHING the last one to be decided lets DETACHED leave (R557). -/
def UndecidedCommissionsAreDecided : Prop :=
  ∀ (x : PendAcc) (s : State), s.engine.pending = [x] → s.engine.late = [] → s.cmsn x.key = none →
    (∀ c ∈ s.engine.cmsns, c.state ≠ .committing) → (∀ y ∈ s.engine.slots, s.slotOwes y.1 y.2 = false) →
    (∀ hi : Word, hi.toNat ≤ s.engine.jseq.toNat → x.jseq.toNat ≤ hi.toNat → ∃ t c, exec (.jack hi) s = .next t ∧ t.engine.pending = [] ∧
      t.cmsn x.key = some c ∧ c.body = x.body ∧ c.modes = x.modes ∧ c.port = x.port ∧
      sget none t.engine.streams x.key.stream.toNat = some (x.key.seq + 1) ∧ t.engine.jacked.toNat = max s.engine.jacked.toNat hi.toNat ∧
      (∀ r ∈ t.engine.sentJ, hi.toNat < r.jseq.toNat) ∧ t.engine.own = s.engine.own) ∧
    (∀ hi : Word, hi.toNat < x.jseq.toNat → hi.toNat ≤ s.engine.jseq.toNat → ∃ t, exec (.jack hi) s = .next t ∧ t.engine.pending = [x] ∧
      t.engine.cmsns = s.engine.cmsns) ∧
    (s.pair.state = .detaching → s.engine.cmsns = [] → ∃ t, exec (.tieTimeout x.key) s = .next t ∧ t.engine.pending = [] ∧
      (if s.pair.gotDet = true then t.pair.state = .solo else t.pair.sentDet = true)) ∧
    (s.pair.state ≠ .detaching → ∃ t, exec (.tieTimeout x.key) s = .next t ∧ t.engine.pending = [] ∧ t.engine.cmsns = s.engine.cmsns ∧
      t.engine.own = (s.engine.own.filter fun r => !(r.stream == x.key.stream && r.seq == x.key.seq)) ∧
      t.engine.streams = s.engine.streams ∧ bitOf (t.reg (engineAt 0x20)) 0 = true ∧ t.engine.jseq = s.engine.jseq + 1)

/-- R42, R44, R526–R533: a commission is accepted or refused, at once or when the twin has answered.
The model's own choices are in assumptions 5 and 40. -/
def Obligations.AcceptanceOfCommissions : Prop := CommissionsAreAccepted ∧ UndecidedCommissionsAreDecided

/-- R327, R361, R362, R372, R535 and Table 13.4: the first waiting commission whose output granules are not pending opens the lowest free
slot and is READY; the steward releases a held commission whose fault is resolved, resolves a fault by allocation, by page-in or as fatal,
and a page-in makes its granule valid again.
The model's own choices are in assumptions 5 and 32. -/
def Obligations.SlotsAndFaults : Prop :=
  ∀ (k : CmsnKey) (s : State) (c : Cmsn), s.cmsn k = some c →
    (∀ gs u es v n fs, c.state = .accepted → c.held = false → s.engine.inReset = false → s.pair.state ≠ .fenced →
      (∀ d ∈ s.engine.cmsns, d.state = .accepted → c.order ≤ d.order) → outGranules s c.body = (gs, u) → u.engine = s.engine →
      readEntries u.enginePlate gs u [] = (.ok es, v) → v.engine = s.engine → (∀ e ∈ es, mePend e.2 = false) →
      firstIdx 255 (fun n => (sget ({} : SlotSt) s.engine.slots (n + 1)).state == 0) = some n →
      freeFrames v es.length (framesUsed v) 0 = some fs → (slotOpen s k).mod.stall = false →
      ∃ t d, exec (.proofSlotOpen k) s = .next t ∧ t.cmsn k = some d ∧ d.state = .ready ∧ d.slot = n + 1 ∧ d.body = c.body ∧
        sget ({} : SlotSt) t.engine.slots (n + 1) = { state := 1, key := k, granules := gs } ∧ t.hatches = v.hatches) ∧
    ((slotOpen s k).mod.stall = true → exec (.proofSlotOpen k) s = .next (settle s)) ∧
    (c.held = true → c.fault = none → exec (.stewardRelease k) s = .next (settle (s.setCmsn { c with held := false }))) ∧
    (c.held = true → c.fault ≠ none → exec (.stewardRelease k) s = .next (settle s)) ∧
    (c.held = true → exec (.stewardFaultResolve k .fatal) s = .next (settle
      (s.setCmsn { c with state := .finished, status := 0x26, held := false, fault := none, hatches := [], ended := [] }))) ∧
    (∀ g f o m, c.held = true → s.frameFree (framesUsed s) f.toNat = true →
      (∀ x ∈ s.engine.pageIns, x.1 ≠ g.toNat) → (∀ x ∈ s.engine.moves, x.1 ≠ g.toNat) →
      mapRead s g.toNat = (some o, m) → meV o = false →
      (∀ wr,
        let u := (mapWrite m g.toNat (mkEntry wr (s.inDurable g.toNat) false 0 f.toNat 0)).releaseAll g.toNat
        exec (.stewardFaultResolve k (.allocate g f wr)) s = .next (settle (if u.mod.stall then s else u))) ∧
      (
        let u := (mapWrite m g.toNat ((o &&& ~~~1#64) ||| BitVec.ofNat 64 (2 ^ 62))).modEngine fun e =>
          { e with pageIns := e.pageIns ++ [(g.toNat, f.toNat)] }
        exec (.stewardFaultResolve k (.pageIn g f)) s = .next (settle (if u.mod.stall then s else u)))) ∧
    (∀ g f, c.held = true → ((∃ x ∈ s.engine.pageIns, x.1 = g.toNat) ∨ ∃ x ∈ s.engine.moves, x.1 = g.toNat) →
      (∀ wr, exec (.stewardFaultResolve k (.allocate g f wr)) s = .next (settle s)) ∧
      exec (.stewardFaultResolve k (.pageIn g f)) s = .next (settle s)) ∧
    (∀ (g : BitVec 25) f o m, s.engine.pageIns = [(g.toNat, f)] → (s.stack (frameStack f)).state ≠ 3 → s.engine.restoring = none →
      mapRead s g.toNat = (some o, m) → mePend o = false → meV o = false →
      let u := ((mapWrite (freeFrame f 256 m) g.toNat (mkEntry (meW o) (meDur o) false 0 f 0)).modEngine fun e =>
        { e with pageIns := e.pageIns.filter fun x => x.1 != g.toNat }).releaseAll g.toNat
      exec (.pageInComplete g) s = .next (settle (if u.mod.stall then s else u)))

/-- R365, R538–R543, R547: a FINISHED commission whose predecessor has committed commits: in Solo mode without a slot its COMMIT record is
written and its COMPLETION leaves at once, else it waits; an uncovered COMMIT is sent again on the other tie port; an acknowledged
COMPLETION retires it; plates acknowledge slot changes; a cancel acts by the state; a reset of the engine stops what runs.
The model's own choices are in assumptions 5, 40 and 83. -/
def Obligations.CommissionsCommit : Prop :=
  ∀ (k : CmsnKey) (s : State),
    let u := s.setReg (engineAt 0x18) (BitVec.ofNat 64 (k.stream.toNat * 2 ^ 32 + k.seq.toNat))
    let dead (c : Cmsn) : Cmsn := { c with state := .finished, status := 0x27, held := false, fault := none, hatches := [], ended := [] }
    let before := s.cmsn { k with seq := k.seq - 1 }
    (∀ c, s.cmsn k = some c →
      (c.state = .finished → before = none → s.pair.state = .solo → s.engine.inReset = false → c.slot = 0 → c.jcommit = none →
        (commitStart s k).mod.stall = false → ∃ t d, exec (.commitStart k) s = .next t ∧ t.cmsn k = some d ∧ d.state = .committed ∧ d.status = c.status ∧
          (∃ r, t.engine.own = s.engine.own ++ [r] ∧ r.type = .commit ∧ r.stream = k.stream ∧ r.seq = k.seq ∧ r.status = c.status) ∧
          t.ports = (s.send (fabPort c.port) (completionMsg { c with ctime := s.mod.time })).ports) ∧
      ((commitStart s k).mod.stall = true → exec (.commitStart k) s = .next (settle s)) ∧
      (∀ d, before = some d → d.state ≠ .committed → d.state ≠ .retired → exec (.commitStart k) s = .next (settle s)) ∧
      (∀ j r, c.jcommit = some j → (s.engine.sentJ.find? fun r => r.jseq == j) = some r → c.state = .committing → c.step = 2 →
        s.tieUp = true →
        let other : Fin 10 := if c.onTie9 then 8 else 9
        let to_ : Fin 10 := if s.portUp other then other else s.tiePort
        exec (.commitResend k) s =
          .next (settle ((s.enqueue to_ (tieMsg 0x10 (journalBody r))).setCmsn { c with onTie9 := to_ == 9 }))) ∧
      (c.state = .committed → s.pair.state ≠ .detaching → ∃ t, exec (.completionAcked k) s = .next t ∧ t.cmsn k = none ∧
        (∀ d ∈ s.engine.cmsns, d.key ≠ k → d ∈ t.engine.cmsns) ∧ (∀ r ∈ t.engine.own, ¬(r.stream = k.stream ∧ r.seq = k.seq)) ∧
        t.engine.jseq = s.engine.jseq + 1) ∧
      (c.state = .accepted ∨ c.state = .ready → exec (.cmsnCancelGo k) s = .next (settle (u.setCmsn (dead c)))) ∧
      (c.state = .running ∨ c.state = .preempted → exec (.cmsnCancelGo k) s =
        .next (settle ((u.stopCmsn k c.tag).setCmsn { dead c with pgroups := [], mgroup := none }))) ∧
      (c.state = .finished → exec (.cmsnCancelGo k) s = .next (settle (u.setCmsn { c with status := 0x27 }))) ∧
      (c.state = .committing ∨ c.state = .committed ∨ c.state = .retired →
        exec (.cmsnCancelGo k) s = .next (settle (u.flag (engineAt 0x20) 3)))) ∧
    (s.cmsn k = none → exec (.cmsnCancelGo k) s = .next (settle (u.flag (engineAt 0x20) 3))) ∧
    (∀ p, (∀ c ∈ s.engine.cmsns, c.state ≠ .committing) → (∀ x ∈ s.engine.slots, x.2.state.toNat < 2 ∨ x.2.rewrote = true) →
      exec (.proofStateSync p) s = .next (settle (s.modEngine fun e =>
      { e with slots := e.slots.map fun (x : Nat × SlotSt) => (x.1, { x.2 with acks := x.2.acks ||| BitVec.ofNat 8 (2 ^ p.val) }) }))) ∧
    (s.mod.busy.contains 0x3A0 = true → exec .cmsnEngineReset s = .next (settle s.discard)) ∧
    (s.mod.busy.contains 0x3A0 = false → s.engine.pending = [] → s.pair.state ≠ .detaching → ∃ t, exec .cmsnEngineReset s = .next t ∧ t.engine.inReset = true ∧ 0x3A0 ∈ t.mod.busy ∧
      t.engine.own = s.engine.own ∧
      (∀ c ∈ s.engine.cmsns, c.state = .running → ∀ h l, (t.hatch h).run = some l → l.key ≠ some c.key)) ∧
    (s.mod.busy.contains 0x3A0 = false → s.engine.cmsns = [] → s.engine.pending = [] → s.pair.state = .detaching → s.pair.gotDet = false →
      ∃ t, exec .cmsnEngineReset s = .next t ∧ t.engine.inReset = true ∧ t.pair.sentDet = true)

/-! ### The twin pair -/

/-- R369, R370, R545, R546, R554, R555: the twin stores the next record in order and answers with a JACK of the last one stored; it applies a
mirror write and acknowledges it; an acknowledged mirror write is forgotten; heartbeats leave on both tie ports, one of this epoch
restarts the count, and their loss isolates.
The model's own choices are in assumptions 5, 30 and 34. -/
def Obligations.TwinStoresAndBeats : Prop :=
  ∀ (s : State), s.pairedMode = true →
    let jack (u : State) : State := u.tieSend 0x11 (leBytes 8 u.engine.stored.toNat)
    (∀ r : JRec, let kept (f : List JRec → List JRec) : State :=
        (s.ringWrite true r).modEngine fun e => { e with stored := r.jseq, partner := f e.partner }
      (r.crcOk = true → r.jseq = s.engine.stored + 1 →
        (r.type = .accept → exec (.journal r) s = .next (settle (jack (kept fun l => l ++ [r])))) ∧
        (r.type = .commit → ∃ t, exec (.journal r) s = .next t ∧ t.engine.stored = r.jseq ∧ t.engine.partner = s.engine.partner ++ [r] ∧
          t.ports = (jack (kept fun l => l ++ [r])).ports) ∧
        (r.type = .done ∨ r.type = .void → exec (.journal r) s = .next (settle (jack (kept fun l =>
          l.filter fun x => !(x.stream == r.stream && x.seq == r.seq)))))) ∧
      (r.crcOk = false ∨ r.jseq ≠ s.engine.stored + 1 → exec (.journal r) s = .next (settle (jack s)))) ∧
    (∀ w : MirrorMsg, w.proof = false → ∃ t, exec (.mirror w) s = .next t ∧
      t.pair.mirror = writeMem s.pair.mirror (w.granule.toNat * 16384 + w.offset.toNat) w.bytes ∧
      t.ports = (s.tieSend 0x13 (leBytes 4 w.granule.toNat)).ports ∧ t.drams = s.drams) ∧
    (∀ (w : MirrorMsg) rest, s.pair.mirOut = w :: rest → (∀ c ∈ s.engine.cmsns, c.state ≠ .committing ∧ c.mirWait = []) →
      (∀ y ∈ s.engine.slots, s.slotOwes y.1 y.2 = false) →
      ∃ t, exec (.mack w.granule) s = .next t ∧ t.pair.mirOut = rest ∧ t.engine.cmsns = s.engine.cmsns ∧ t.ports = s.ports) ∧
    (∃ t, exec .heartbeatSend s = .next t ∧ t.ports = (([(8 : Fin 10), 9].foldl (fun (u : State) p => u.send p (tieMsg 0x14 (heartbeatBody
      { mid := Config.mid, epoch := s.pair.epoch, state := BitVec.ofNat 8 (pcode s.pair.state), sentHi := s.engine.jseq,
        storedHi := s.engine.stored }))) s).ports) ∧ t.engine = s.engine ∧ t.pair = s.pair) ∧
    (∀ h : HeartbeatMsg,
      (h.epoch ≠ s.pair.epoch → exec (.heartbeat h) s = .next (settle s)) ∧
      (h.epoch = s.pair.epoch → s.pair.state ≠ .isolated → exec (.heartbeat h) s =
        .next (settle ((s.modPair fun x => { x with hbLoss := false }).setRf (engineAt 0x108) 16 8 0))) ∧
      (h.epoch = s.pair.epoch → s.pair.state = .isolated → ∃ t, exec (.heartbeat h) s = .next t ∧ t.pair.state = .paired ∧
        t.pair.hbLoss = false)) ∧
    (s.pair.token = false → ∃ t, exec .heartbeatLoss s = .next t ∧ t.pair.hbLoss = true ∧
      t.pair.state = (if s.pair.state = .paired then .isolated else s.pair.state) ∧ 1 ≤ t.rf (engineAt 0x108) 16 8)

/-- R58, R553, R556–R558: in SOLO a PROPOSE waits for this side's own pairing; in PAIRING one that fits is answered with AGREE of the next epoch, one that does not with REFUSE and SOLO; AGREE fixes the
epoch; both READYs make the pair PAIRED; a timeout or a REFUSE ends pairing in SOLO; DETACH starts detaching, and DETACHED of both sides
ends in SOLO; an invalid fence token is counted, a valid one is held, and takes over in isolation with heartbeat loss.
The model's own choices are in assumptions 33, 35 and 85. -/
def Obligations.PairingAgrees : Prop :=
  ∀ (m : PairMsg) (s : State),
    (s.pair.state = .pairing →
      (s.rangesFit (s.peersWith m.ranges) = true → ∃ t, exec (.pairPropose m) s = .next t ∧ t.pair.state = .pairing ∧ t.pair.peer = m.mid ∧
        t.pair.sentAgree = true ∧ t.ports = (s.tieSend 0x15 (pairBody 2
          { rejoin := false, mid := Config.mid, epoch := BitVec.ofNat 32 (max s.pair.proposed.toNat m.epoch.toNat + 1),
            version := s.version, cap := BitVec.ofNat 64 (s.rf (engineAt 0x100) 48 16 * 2 ^ 30), ranges := [] })).ports) ∧
      (s.rangesFit (s.peersWith m.ranges) = false → ∃ t, exec (.pairPropose m) s = .next t ∧ t.pair.state = .solo) ∧
      (s.pair.gotAgree = false → s.pair.regions = [] → exec (.pairAgree m) s = .next (settle
        ((s.modPair fun x => { x with gotAgree := true, epoch := m.epoch }).setRf (engineAt 0x108) 32 32 m.epoch.toNat))) ∧
      (∃ t, exec (.pairRefuse m) s = .next t ∧ t.pair.state = .solo) ∧ (∃ t, exec .pairTimeout s = .next t ∧ t.pair.state = .solo) ∧
      (s.pair.sentReady = false → ∃ t, exec (.pairReady m) s = .next t ∧ t.pair = { s.pair with gotReady := true }) ∧
      (s.pair.sentReady = true → ∃ t, exec (.pairReady m) s = .next t ∧ t.pair.state = .paired) ∧
      (s.pair.mirOut = [] → s.pair.gotAgree = true → s.pair.sentReady = false →
        (s.pair.gotReady = true → ∃ t, exec .durableCopyComplete s = .next t ∧ t.pair.state = .paired) ∧
        (s.pair.gotReady = false → ∃ t, exec .durableCopyComplete s = .next t ∧ t.pair = { s.pair with sentReady := true }))) ∧
    (s.pair.state = .solo → exec (.pairPropose m) s = .next (settle (s.modPair fun x => { x with proposal := some m }))) ∧
    (s.pair.state = .paired → ∃ t, exec (.pairDetach m) s = .next t ∧
      (s.engine.cmsns ≠ [] → t.pair.state = .detaching ∧ t.pair.sentDet = false) ∧
      (s.engine.cmsns = [] → s.engine.pending = [] → t.pair.sentDet = true)) ∧
    (s.pair.state = .detaching →
      (s.pair.sentDet = true → ∃ t, exec (.pairDetached m) s = .next t ∧ t.pair.state = .solo ∧ t.pair.mirror = [] ∧ t.engine.partner = []) ∧
      (s.pair.sentDet = false → s.engine.cmsns ≠ [] → ∃ t, exec (.pairDetached m) s = .next t ∧ t.pair.state = .detaching ∧
        t.pair.gotDet = true ∧ t.pair.mirror = []) ∧
      (∃ t, exec .detachTimeout s = .next t ∧ t.pair = { s.pair with sentDet := false, gotDet := false, state := .paired })) ∧
    (∀ x : FenceToken,
      (s.tokenOk 1 x = false → exec (.fence x) s = .next (settle (s.satRf (engineAt 0x108) 8 8 1))) ∧
      (s.tokenOk 1 x = true → ¬(s.pair.state = .isolated ∧ s.pair.hbLoss = true) →
        exec (.fence x) s = .next (settle (s.modPair fun y => { y with token := true }))) ∧
      (s.tokenOk 1 x = true → s.pair.state = .isolated → s.pair.hbLoss = true →
        ∃ t, exec (.fence x) s = .next t ∧ t.pair.state = .solo))

/-! ### Margin regions -/

/-- R471–R473, Table 11.3: a request of an open region's network port is translated with the region's own slot and leaves for the stack
of its line, a write raises the panic of the write buffer that follows from its input; a request that the translation refuses ends with
status 3 and a fault; with gates closed, or with the tag outstanding, nothing is taken. -/
def RegionNetwork : Prop :=
  ∀ (i : RegionId) (addr : BitVec 39) (tag : Byte) (data : List Byte) (en : BitVec 128) (s : State),
    let line := addr.toNat / 128 * 128
    let tr (w : Bool) := translate s i.p none (s.regionOwner i) w line
    let dest (fr : Nat) : Nat :=
      stackEp (frameStack fr) ((locOf (s.order (frameStack fr)) (frameAddr fr (line % 16384))).ch / 2)
    let place (fr : Nat) : BitVec 39 × Nat :=
      (BitVec.ofNat 39 line, (frameStack fr).key * 2 ^ 34 + frameAddr fr (line % 16384))
    (s.regionOpen i = true → (∀ y ∈ (s.region i).reads, y.1 ≠ tag.toNat) →
      (∀ e fr u, tr false = (.ok (e, fr), u) → exec (.regionNetRd i addr tag) s = .next (settle
        ((u.modRegion i fun x => { x with reads := sput x.reads tag.toNat (place fr), netRsp := [] }).inject (regionEpAddr i) (dest fr)
          (.rreq (BitVec.ofNat 34 (frameAddr fr (line % 16384))) (BitVec.ofNat 10 tag.toNat) 2 (BitVec.allOnes 128))))) ∧
      (∀ e u, tr false = (.error e, u) → exec (.regionNetRd i addr tag) s = .next (settle
        ((u.modRegion i fun x => { x with netRsp := [(tag, 3, List.replicate 128 0)] }).regionFault i
          { cause := e.1, daddr := some line, suspect := e.2 } false)))) ∧
    (s.regionOpen i = true → (∀ y ∈ (s.region i).writes, y.1 ≠ tag.toNat) → data.length = 128 →
      (∀ e fr u, tr true = (.ok (e, fr), u) → meDur e = false → exec (.regionNetWr i addr data en tag) s = .next (settle
        (((u.modRegion i fun x => { x with writes := sput x.writes tag.toNat (place fr), netRsp := [] }).regionPanic i).inject
          (regionEpAddr i) (dest fr)
          (.wreq (BitVec.ofNat 34 (frameAddr fr (line % 16384))) (BitVec.ofNat 10 tag.toNat) 2 en none) (some data)))) ∧
      (∀ e u, tr true = (.error e, u) → exec (.regionNetWr i addr data en tag) s = .next (settle
        ((u.modRegion i fun x => { x with netRsp := [(tag, 3, [])] }).regionFault i
          { cause := e.1, daddr := some line, suspect := e.2 } true)))) ∧
    (s.regionOpen i = false ∨ (∃ y ∈ (s.region i).reads, y.1 = tag.toNat) →
      exec (.regionNetRd i addr tag) s = .next (settle s)) ∧
    (data.length = 128 → s.regionOpen i = false ∨ (∃ y ∈ (s.region i).writes, y.1 = tag.toNat) →
      exec (.regionNetWr i addr data en tag) s = .next (settle s)) ∧
    (data.length ≠ 128 → exec (.regionNetWr i addr data en tag) s = .fault .illFormed) ∧
    ∀ level, exec (.userPanicInput i level) s =
      .next (settle ((s.modRegion i fun x => { x with panicIn := level }).regionPanic i))

/-- R334, Table 11.3: the handle-queue port takes the head of the list that its role names, publishes and frees handles that it holds,
each once, with the generation raised when a handle is freed; a queue with nothing to give waits; an operation that R333 makes invalid is
refused; with gates closed nothing is taken. -/
def RegionHandles : Prop :=
  ∀ (i : RegionId) (b p : Fin 8) (n : Nat) (h w : Word) (s : State), s.regionOpen i = true →
    s.hqFind i.p (s.rf (regionAt i 0x18) (8 * b.val) 8) (regionEp i) = some (p, n) →
    let x := s.hq p n
    let ep := regionEp i
    let prod : Prop := s.hqRole p n ep = some true
    let reg := s.reg (regionAt i 0x20)
    let tag : BitVec 32 := if bitOf reg 32 then BitVec.ofNat 32 (bitsOf reg 0 32) else x.tag
    let answer (u : State) (r : Option Word) : State := u.modRegion i fun y => { y with hqRsp := [(b, r)] }
    let wait := x.wait.filter fun y => y.1 != ep
    let net := s.reaches (regionEpAddr i) (hqBlockEp p)
    (net.1 = false → ∀ row ∈ [Instr.regionHqtake i b, .regionHqpub i b h, .regionHqfree i b h],
      exec row s = .next (settle (net.2.hqWait i p n))) ∧
    (net.1 = true →
    (∀ r, prod → x.free = w :: r → exec (.regionHqtake i b) s = .next (settle (answer
      (s.setHq p n { x with free := r, held := x.held ++ [(ep, w)], tag, wait }) (some w)))) ∧
    (∀ r, ¬ prod → x.pub = w :: r → exec (.regionHqtake i b) s = .next (settle (answer
      (s.setHq p n { x with pub := r, held := x.held ++ [(ep, w)], tag, wait }) (some w)))) ∧
    ((prod → x.free = []) → (¬ prod → x.pub = []) → exec (.regionHqtake i b) s = .next (settle (s.hqWait i p n))) ∧
    (x.holds ep h = some w → prod → (s.region i).writes = [] → x.pub.length < 64 → exec (.regionHqpub i b h) s =
      .next (settle (answer (s.setHq p n { x with pub := x.pub ++ [w], held := x.held.erase (ep, w), wait }) (some w)))) ∧
    (x.holds ep h = some w → prod → (s.region i).writes ≠ [] ∨ 64 ≤ x.pub.length →
      exec (.regionHqpub i b h) s = .next (settle (s.hqWait i p n))) ∧
    (x.holds ep h = some w → exec (.regionHqfree i b h) s =
      .next (settle (answer (s.setHq p n { x with free := x.free ++ [genUp w], held := x.held.erase (ep, w) }) (some w)))) ∧
    (x.holds ep h = none ∨ ¬ prod → exec (.regionHqpub i b h) s = .next (settle (s.hqBad i b p n))) ∧
    (x.holds ep h = none → exec (.regionHqfree i b h) s = .next (settle (s.hqBad i b p n))))

/-- R333: with no queue of that number for the region, an operation of the handle-queue port is invalid. -/
def RegionHandlesUnbound : Prop :=
  ∀ (i : RegionId) (b : Fin 8) (h : Word) (s : State), s.regionOpen i = true →
    let n := s.rf (regionAt i 0x18) (8 * b.val) 8
    s.hqFind i.p n (regionEp i) = none → ∀ row ∈ [Instr.regionHqtake i b, .regionHqpub i b h, .regionHqfree i b h],
      exec row s = .next (settle (s.hqBad i b i.p n))

/-- R475, Table 11.3: the control window forwards one access at a time to the user logic; its answer gives the value of a read; an access
that is not answered in time reads as zeros and is reported; with gates closed a read gives zeros and a write is discarded. -/
def RegionWindow : Prop :=
  ∀ (i : RegionId) (off : BitVec 15) (write : Bool) (v : Word) (s : State),
    (s.regionOpen i = false → exec (.userCtlAccess i off write v) s =
      .next (settle (if write then s.discard else s.modRegion i fun x => { x with answer := some 0 }))) ∧
    (s.regionOpen i = true → (s.region i).ctl = none → exec (.userCtlAccess i off write v) s =
      .next (settle (s.modRegion i fun x => { x with ctl := some (off &&& 0x7FF8, write, v), answer := none }))) ∧
    (s.regionOpen i = true → (s.region i).ctl ≠ none → exec (.userCtlAccess i off write v) s = .next (settle s)) ∧
    (∀ o w u, (s.region i).ctl = some (o, w, u) →
      exec (.userCtlAnswer i v) s =
        .next (settle (s.modRegion i fun x => { x with ctl := none, answer := if w then none else some v })) ∧
      exec (.userCtlTimeout i) s = .next (settle
        (((s.modRegion i fun x => { x with ctl := none, answer := if w then none else some 0 }).flag (regionAt i 0x28) 3).reportFlag
          (regionUnit i) (regionUnit i) 0x07 3))) ∧
    ((s.region i).ctl = none →
      exec (.userCtlAnswer i v) s = .next (settle s) ∧ exec (.userCtlTimeout i) s = .next (settle s))

/-- The ports of a margin region (R334, R471–R473, R475).
The model's own choices are in assumptions 5, 89 and 129. -/
def Obligations.RegionPorts : Prop := RegionNetwork ∧ RegionHandles ∧ RegionHandlesUnbound ∧ RegionWindow

/-- R464: an access at one port of margin RAM reads or writes one word of the width of its block: the bytes enabled by a write change,
every other byte and region stays, and the port gives the word, before or after its own write as its configuration says. -/
def MarginMemory : Prop :=
  ∀ (i : RegionId) (block : Byte) (op : RamPortOp) (within bFirst : Bool) (s : State),
    let x := s.region i
    let c := Config.ramCfg (s.regionFrames i) block
    let n := 2 ^ c.wa.val
    let lo := block.toNat * 4096 + op.addr.toNat % (4096 / n) * n
    (x.state ≠ .empty → s.regionAwake i = true → x.ramMarks = [] →
      ∃ t, exec (.marginRamAccess i block (some op) none within bFirst) s = .next t ∧
        (∀ a, sget 0 (t.region i).ram a =
          if op.write = true ∧ lo ≤ a ∧ a < lo + n ∧ op.en.toNat.testBit (a - lo) = true then
            BitVec.ofNat 8 (bitsOf op.data (8 * (a - lo)) 8)
          else sget 0 x.ram a) ∧
        (t.region i).ramOut = [some (BitVec.ofNat 64 (leNat (readMem
          (if op.write && c.firstA then (t.region i).ram else x.ram) lo n)), false), none] ∧
        (∀ j, j ≠ i → t.region j = s.region j) ∧ t.regs = s.regs ∧ t.plates = s.plates ∧ t.cores = s.cores) ∧
    (x.state = .empty ∨ s.regionAwake i = false → ∀ a b, exec (.marginRamAccess i block a b within bFirst) s = .next (settle s))

/-- R462, R467, R474: a region opens while its request is 1, once the module is ready and no reset runs, and closes when it is cleared;
a clock generator is written behind closed gates only, loses its lock when it changes, and locks with an enabled frequency of 10 to
1,000 MHz and SREF; the queue bindings are not written while the region holds a handle. -/
def GatesAndClocks : Prop :=
  ∀ (i : RegionId) (n : Fin 4) (v : Word) (s : State),
    let a := regionAt i (0x60 + 8 * n.val)
    let y := v &&& 0x3FF1
    let bit : BitVec 4 := BitVec.ofNat 4 (2 ^ n.val)
    (∃ t, exec (.gateReqWrite i v) s = .next t ∧ t.reg (regionAt i 8) = v &&& 0xFFFF0001 ∧
      (t.region i).state = (if bitOf v 0 then
          if (s.region i).state = .closed ∧ s.engine.ready = true ∧ (s.dom i.p (.region i.r)).reset = false then .opened
          else (s.region i).state
        else if (s.region i).state = .opened then .closed else (s.region i).state) ∧
      (∀ j, j ≠ i → t.region j = s.region j) ∧ (∀ b, b ≠ regionAt i 8 → t.reg b = s.reg b)) ∧
    ((s.region i).state = .opened → exec (.mrgClkWrite i n v) s = .next (settle s.discard)) ∧
    ((s.region i).state ≠ .opened → y ≠ s.reg a → exec (.mrgClkWrite i n v) s =
      .next (settle ((s.setReg a y).modRegion i fun x => { x with clkLock := x.clkLock &&& ~~~bit }))) ∧
    ((s.region i).state ≠ .opened → y = s.reg a → exec (.mrgClkWrite i n v) s = .next (settle s)) ∧
    (bitOf (s.reg a) 0 = true → 10 ≤ s.rf a 4 10 → s.rf a 4 10 ≤ 1000 → s.pins.sref = true → exec (.clkgenLock i n) s =
      .next (settle (s.modRegion i fun x => { x with clkLock := x.clkLock ||| bit }))) ∧
    (bitOf (s.reg a) 0 = false ∨ s.rf a 4 10 < 10 ∨ 1000 < s.rf a 4 10 ∨ s.pins.sref = false →
      exec (.clkgenLock i n) s = .next (settle s)) ∧
    ((∀ p, ∀ q ∈ (s.plate p).hq, ∀ h ∈ q.2.held, h.1 ≠ regionEp i) →
      exec (.mrgQbindWrite i v) s = .next (settle (s.setReg (regionAt i 0x18) v))) ∧
    ((∃ p, ∃ q ∈ (s.plate p).hq, ∃ h ∈ q.2.held, h.1 = regionEp i) → exec (.mrgQbindWrite i v) s = .next (settle s.discard))

/-- R459, R476, R479 and Table 11.7: as the gates of an OPEN region close, its boundary wires read 0 in the neighbouring regions, and each
of its user pins that is in use goes to its SAFE state. -/
def UserSignals : Prop :=
  ∀ (i : RegionId) (v : Word) (s : State), (s.region i).state = .opened → s.awake i.p (.region i.r) = true → bitOf v 0 = false →
    ∃ t, exec (.gateReqWrite i v) s = .next t ∧ (∀ up : Bool, t.wireIn (nextRegion i up) (!up) = 0) ∧
      ∀ (b : BankId) (n : Fin 24), pinRegion b n = i →
        let w := s.reg (bankAt b (0x100 + 8 * n.val))
        s.test.instr ≠ 0 ∨ s.test.tlr = true → s.pins.cfgDone = true → s.pins.cfgErr = false → (s.bank b).ok = true →
        1 ≤ bitsOf w 0 4 → bitsOf w 0 4 ≤ 12 → s.badPins b / 2 ^ n.val % 2 = 0 →
        (bitsOf w 15 2 = 0 → t.pinOut b n = .tri 1) ∧ (bitsOf w 15 2 = 1 → t.pinOut b n = .drive false) ∧
        (bitsOf w 15 2 = 2 → t.pinOut b n = .drive true) ∧
        (bitsOf w 15 2 = 3 → bitsOf w 4 2 = 1 →
          t.pinOut b n = .drive ((Config.userPins i.p i.r s.mod.time).toNat.testBit (n.val % 6)))

/-- What a margin region holds: its RAM, its gates, its clocks and its user signals (R459, R462, R464, R467,
R474, R476, R479).  The model's own choices are in assumptions 5, 42, 90 and 124. -/
def Obligations.RegionLogic : Prop := MarginMemory ∧ GatesAndClocks ∧ UserSignals

/-! ### Configuration -/

/-- R507–R511: a channel starts with STATUS 1 and waits for the signature engine, unless a load is under way or the module is not ready;
the manifest at the head of the queue is checked, and its first failing check rejects the stream; each record must carry its frame
address and is written; the load completes when the digest of its records agrees, with golden copy and signatures following the frames.  A check or a fetch
whose read has to wait has not been done (R386, R389). -/
def PartialLoads : Prop :=
  ∀ (i : RegionId) (s : State),
    let a := channelAt i 0x10
    let x := s.region i
    let status := s.rf a 0 3
    let src := s.rf (channelAt i 0) 0 39
    let out (t : State) : Host.Outcome State Fault Refusal := .next (settle (edgeIf a s t))
    let start (t : State) : State :=
      (t.modRegion i fun x => { x with entries := [], recNo := 0, written := [], data := [], digest := [] }).modPlate i.p
        fun y => { y with icpQ := y.icpQ.filter (· != i.r) ++ [i.r] }
    (∀ adr, status ≠ 1 → status ≠ 2 → s.engine.ready = true →
      exec (.icpStart i) s = out (start (s.setReg a 0x101)) ∧
      exec (.icpUserStart i adr) s = out (start ((s.setReg (channelAt i 0) (adr.setWidth 64)).setReg a 1))) ∧
    (∀ adr, status = 1 ∨ status = 2 ∨ s.engine.ready = false →
      exec (.icpStart i) s = .next (settle s.discard) ∧ exec (.icpUserStart i adr) s = .next (settle s.discard)) ∧
    (status = 1 → (s.plate i.p).icpQ.head? = some i.r →
      (src % 128 ≠ 0 → s.mod.stall = false → exec (.manifestCheck i) s = out (s.icpReject i 0x10)) ∧
      ∀ h u es v, src % 128 = 0 → devRead s i.p none none src 0x4400 (agentEp i.p) = (h, none, u) → leAt h 8 4 ≤ 4096 →
        devRead u i.p none none (src + 0x4400) (8 * leAt h 8 4) (agentEp i.p) = (es, none, v) →
        let m := manifestReason v i (h ++ es) (leAt h 8 4)
        (v.mod.stall = true → exec (.manifestCheck i) s = .next (settle s)) ∧ (v.mod.stall = false →
        (m.1 ≠ 0 → exec (.manifestCheck i) s = out (v.icpReject i m.1)) ∧
        (m.1 = 0 → exec (.manifestCheck i) s = out (((((v.leaveQ i).abortRegion i).shut i).setRf a 0 3 2).modRegion i fun x =>
          { x with state := .loading, entries := m.2, recNo := 0, written := [], data := [], digest := slice h 16 48 })))) ∧
    (status ≠ 1 ∨ (s.plate i.p).icpQ.head? ≠ some i.r → exec (.manifestCheck i) s = .next (settle s)) ∧
    (status = 2 → s.nextWriter i.p ≠ some i.r → exec (.partialRecordFetch i) s = .next (settle s)) ∧
    (∀ f b u, status = 2 → s.nextWriter i.p = some i.r → recordAddr x.entries x.recNo = some f →
      let from0 := src + (0x4400 + 8 * x.entries.length + 127) / 128 * 128 + 132 * x.recNo
      (devRead s i.p none none from0 132 (agentEp i.p) = (b, none, u) →
        (u.mod.stall = true → exec (.partialRecordFetch i) s = .next (settle s)) ∧ (u.mod.stall = false →
        (leAt b 0 4 ≠ f → exec (.partialRecordFetch i) s = out (u.icpAbort i 0x20)) ∧
        (leAt b 0 4 = f → exec (.partialRecordFetch i) s = out
          (((((u.writeFrame i.p f (frameOf (b.drop 4))).modPlate i.p fun z => { z with writer := i.r }).satRf a 32 32 1).satRf (channelAt i 0x38) 0 32 1).modRegion i fun x =>
            { x with recNo := x.recNo + 1, data := x.data ++ b,
                     written := if fKind f = 0 then x.written ++ [(f, frameOf (b.drop 4))] else x.written })))) ∧
      ∀ e, u.mod.stall = false → devRead s i.p none none from0 132 (agentEp i.p) = (b, some e, u) → exec (.partialRecordFetch i) s = out (u.icpAbort i 0x21)) ∧
    (status = 2 → recordAddr x.entries x.recNo = none →
      exec (.partialRecordFetch i) s = .next (settle s) ∧
      (sha384 x.data ≠ x.digest → exec (.partialLoadComplete i) s = out (s.icpAbort i 0x22)) ∧
      (sha384 x.data = x.digest → ∃ t, exec (.partialLoadComplete i) s = .next t ∧ t.rf a 0 3 = 3 ∧ t.rf a 16 8 = 0 ∧
        ((t.region i).state = .closed ∨ (t.region i).state = .opened) ∧ (t.region i).entries = [] ∧ (t.region i).ram = x.ram ∧
        (∀ f ∈ x.written, (∀ g ∈ x.written, frameNo g.1 = frameNo f.1 → g = f) →
          sget 0 (t.plate i.p).sigs (frameNo f.1) = signature f.1 f.2) ∧
        ∀ j, j ≠ i → t.region j = s.region j)) ∧
    (status ≠ 2 ∨ (recordAddr x.entries x.recNo).isSome = true → exec (.partialLoadComplete i) s = .next (settle s))

/-- R516–R522: every cycle the three copies of a scrubber's sequencing state are voted, and a copy that differs is rewritten; the scrubber
reads the frame at its position, passes over the frames of a region that is loading or incoherent, goes on after a sound frame, repairs a
frame from a golden copy that agrees with its signature and gives up one that it cannot repair; the steward's watch resets a scrubber
whose sweeps do not advance and fails it after its limit of resets. -/
def Scrubbing : Prop :=
  ∀ (p : Fin 8) (minority : Option (Fin 3)) (s : State),
    let y := (s.plate p).scrub
    let z := vote3 y.copies
    let busy := s.mod.busy.contains (0x118 + p.val * 0x20)
    let n := z.pos
    let f := frameOfNo n
    let i : RegionId := ⟨p, fin 8 (n / 20000)⟩
    let u := if minority.isSome || y.copies != [z, z, z]
      then (s.modPlate p fun w => { w with scrub := { y with copies := [z, z, z] } }).flag (scrubAt p 0x10) 2 else s
    let sig := sget 0 (s.plate p).sigs n
    (∀ a b c : ScrubSeq, (a = b ∨ a = c → vote3 [a, b, c] = a) ∧ (b = c → vote3 [a, b, c] = b)) ∧
    (z.ctl.toNat.testBit 0 = true → y.failed = false → busy = false →
      ((s.region i).state = .loading ∨ (s.region i).state = .incoherent → exec (.scrubFrameCheck p minority) s =
        .next (settle (u.scrubTo p ((n / 20000 + 1) * 20000)))) ∧
      ((s.region i).state ≠ .loading → (s.region i).state ≠ .incoherent → (∀ m ∈ (s.plate p).sigMarks, m.1 ≠ n) →
        (signature f (s.frame p f) = sig → exec (.scrubFrameCheck p minority) s = .next (settle (u.scrubTo p (n + 1)))) ∧
        (∀ g v, signature f (s.frame p f) ≠ sig → readGolden u p f = (g, false, v) →
          (signature f g ≠ sig → exec (.scrubFrameCheck p minority) s = .next (settle ((v.frameLost p f).scrubTo p (n + 1)))) ∧
          (signature f g = sig →
            let w := v.writeFrame p f g
            (signature f (w.frame p f) = sig → exec (.scrubFrameCheck p minority) s =
              .next (settle ((w.frameRepaired p f).scrubTo p (n + 1)))) ∧
            (signature f (w.frame p f) ≠ sig → exec (.scrubFrameCheck p minority) s =
              .next (settle ((w.frameLost p f).scrubTo p (n + 1)))))))) ∧
    (z.ctl.toNat.testBit 0 = false ∨ y.failed = true → busy = false → exec (.scrubFrameCheck p minority) s = .next (settle u)) ∧
    (busy = true → exec (.scrubFrameCheck p minority) s = .next (settle s)) ∧
    (busy = true → exec (.scrubberReset p) s = .next (settle s.discard)) ∧
    (busy = false → ∃ t, exec (.scrubberReset p) s = .next t ∧
      (t.plate p).scrub = { y with copies := List.replicate 3 { z with pos := 0 } } ∧
      t.reg (scrubAt p 0x10) = 0 ∧ t.reg (scrubAt p 0x38) = 0 ∧
      (∀ a, a ≠ scrubAt p 0x10 → a ≠ scrubAt p 0x38 → t.reg a = s.reg a) ∧ t.mod.busy = s.mod.busy ++ [0x118 + p.val * 0x20]) ∧
    let sweeps := BitVec.ofNat 32 (s.rf (scrubAt p 8) 32 32)
    let now := s.mod.time
    let limit := max 20000000 (s.policy 0x0C * (160000 * max 8 (z.ctl.toNat / 256)) / 2)
    let recent := y.resets.filter fun t => decide ((now - t).toNat ≤ s.policy 0x0E * 1000000)
    let set (z : ScrubSt) : State := s.modPlate p fun w => { w with scrub := z }
    (sweeps ≠ y.lastSeen → exec (.sweepWatch p) s = .next (settle (set { y with lastSeen := sweeps, since := now, resets := [] }))) ∧
    (sweeps = y.lastSeen → y.failed = true ∨ (now - y.since).toNat < limit → exec (.sweepWatch p) s = .next (settle s)) ∧
    (sweeps = y.lastSeen → y.failed = false → limit ≤ (now - y.since).toNat →
      (s.policy 0x0D ≤ recent.length → exec (.sweepWatch p) s =
        .next (settle ((set { y with failed := true }).event 0x06 (scrubUnit p) 0))) ∧
      (recent.length < s.policy 0x0D → exec (.sweepWatch p) s =
        .next (settle (scrubReset (set { y with since := now, resets := recent ++ [now] }) p))))

/-- The internal configuration port and the scrubbers (R507–R522).
The model's own choices are in assumptions 5, 92 and 93. -/
def Obligations.PartialLoadsAndScrubbing : Prop := PartialLoads ∧ Scrubbing

/-- What a stream command of `n` bytes does whose operands are in range when `ok` holds and whose effect is `f` (R489, R490, R497, R500);
`fits` says that the body holds it where the stream stands.  Once the segments that end before its last byte have passed, it takes
effect, the segment that ends with it is checked, and the stream goes on behind it; an unassigned command word, a command past the
end of the body or one with operands out of range fails the image with COMMAND, and one at the very end with NO_END.  A command that is
not the next one of the body does nothing, and so does every command with no stream under way. -/
def StreamRow (row : Instr) (fits : Bool) (n : Nat) (ok : Prop) (f : State → State) (s : State) : Prop :=
  let b := s.boot
  let e := b.offset + n
  let u := s.rollKey (b.offset / 2 ^ 26) ((e - 1) / 2 ^ 26)
  let t := f u
  (b.loading = false → exec row s = .next (settle s)) ∧
  (b.loading = true → wordOk s.cmdWord = false → exec row s = .next (settle (s.bootFail b.image 0x19 b.offset))) ∧
  (b.loading = true → wordOk s.cmdWord = true → fits = false → exec row s = .next (settle s)) ∧
  (b.loading = true → wordOk s.cmdWord = true → fits = true →
    (b.bodyLen < e → exec row s = .next (settle (s.bootFail b.image 0x19 b.offset))) ∧
    (e ≤ b.bodyLen → u.boot.loading = false → exec row s = .next (settle u)) ∧
    (e ≤ b.bodyLen → u.boot.loading = true → ¬ ok → exec row s = .next (settle (u.bootFail b.image 0x19 b.offset))) ∧
    (e ≤ b.bodyLen → u.boot.loading = true → ok → t.boot.loading = false → exec row s = .next (settle t)) ∧
    (e < b.bodyLen → u.boot.loading = true → ok → t.boot.loading = true →
      let v := t.rollKey ((e - 1) / 2 ^ 26) (e / 2 ^ 26)
      (v.boot.loading = true → exec row s = .next (settle (v.modBoot fun x => { x with offset := e }))) ∧
      (v.boot.loading = false → exec row s = .next (settle v))) ∧
    (e = b.bodyLen → u.boot.loading = true → ok → t.boot.loading = true →
      let v := t.rollKey ((e - 1) / 2 ^ 26) (segments e)
      (v.boot.loading = true → exec row s = .next (settle (v.bootFail b.image 0x1C b.offset))) ∧
      (v.boot.loading = false → exec row s = .next (settle v))))

/-- R490–R492, R494, R498: PLATE chooses the plate of the commands that follow; FRAME, FRAMES, REPEAT and ZERO write frames there, each
with its golden copy and signature. -/
def StreamFrames : Prop :=
  ∀ (s : State),
    (∀ q : Fin 8, StreamRow (.plateCmd q) (s.spells 0 (cmdBytes 0x01 q.val)) 4 True (fun t => t.modBoot fun x => { x with plate := q }) s) ∧
    (∀ (a : BitVec 24) (d : BitVec 1024), StreamRow (.frame a d) (s.spells 0 (cmdBytes 0x02 a.toNat ++ leBytes 128 d.toNat)) 132
      (frameValid a.toNat = true) (fun t => t.loadFrame t.boot.plate a.toNat d) s) ∧
    (∀ (a : BitVec 32) (ds : List (BitVec 1024)), StreamRow (.frames a ds)
      (runLength ds.length && s.spells 0 (cmdBytes 0x03 (ds.length - 1) ++ leBytes 4 a.toNat ++ ds.flatMap fun d => leBytes 128 d.toNat))
      (8 + 128 * ds.length) (runValid a.toNat ds.length = true) (fun t => t.loadRun t.boot.plate a.toNat ds) s) ∧
    (∀ (d : BitVec 1024) (as : List (BitVec 32)), StreamRow (.repeatCmd d as)
      (runLength as.length && s.spells 0 (cmdBytes 0x04 (as.length - 1) ++ leBytes 128 d.toNat ++ as.flatMap fun a => leBytes 4 a.toNat))
      (132 + 4 * as.length) (∀ a ∈ as, frameValid a.toNat = true)
      (fun t => as.foldl (fun (t : State) a => t.loadFrame t.boot.plate a.toNat d) t) s) ∧
    (∀ (n : Nat) (a : BitVec 32), StreamRow (.zero n a) (runLength n && s.spells 0 (cmdBytes 0x05 (n - 1) ++ leBytes 4 a.toNat)) 8
      (runValid a.toNat n = true) (fun t => t.loadRun t.boot.plate a.toNat (List.replicate n 0)) s) ∧
    (∀ (t : State) (a : Nat) (p : Fin 8), t.loadRun p a [] = t) ∧
    (∀ (t : State) (a : Nat) (p : Fin 8) (d : BitVec 1024) (ds : List (BitVec 1024)),
      t.loadRun p a (ds ++ [d]) = (t.loadRun p a ds).loadFrame p (a + ds.length) d)

/-- R493, R495, R496: REGION sets the window and the gate of a region once; BLOB puts its bytes into plate store, or stages them there for
the stacks, of which a plate takes 80 MiB. -/
def StreamRegionsAndBlobs : Prop :=
  ∀ (s : State),
    let b := s.boot
    (∀ (r : Fin 8) (w : Word), StreamRow (.region r w) (s.spells 0 (cmdBytes 0x10 r.val ++ leBytes 8 w.toNat)) 12
      (w &&& ~~~0x3FFFF07FF07FF#64 = 0 ∧ bitsOf w 0 11 ≤ bitsOf w 16 11 ∧ bitsOf w 16 11 < 1250 ∧ bitsOf w 32 8 ≤ bitsOf w 40 8 ∧
        bitOf (s.reg (channelAt ⟨b.plate, r⟩ 0x18)) 49 = false)
      (fun t => (t.setReg (channelAt ⟨b.plate, r⟩ 0x18) w).setRf (regionAt ⟨b.plate, r⟩ 8) 0 1 (bitsOf w 48 1)) s) ∧
    ∀ (d : Word) (bs : List Byte),
      let n := 20 + (bs.length + 15) / 16 * 16
      let fits (dram : Bool) : Bool := decide (bs.length < 2 ^ 32) &&
        s.spells 0 (cmdBytes 0x20 dram.toNat ++ leBytes 8 d.toNat ++ leBytes 4 bs.length) && s.spells 20 bs
      let pad := (s.plain 16 4).all (· == 0) = true
      StreamRow (.blob false d bs) (fits false) n
        ((0xA800000 ≤ d.toNat ∧ d.toNat + bs.length ≤ 0xB000000 ∨
          0xB000000 ≤ d.toNat ∧ d.toNat + bs.length ≤ 0x10000000) ∧ pad) (fun t => psWrite t t.boot.plate d.toNat bs) s ∧
      StreamRow (.blob true d bs) (fits true) n
        ((d.toNat < 2 ^ 36 ∧ d.toNat % 2 ^ 34 + bs.length ≤ 0x300000000) ∧ pad)
        (fun t =>
          let used := ((t.boot.staged.filter fun x => x.1 == t.boot.plate).map fun x => x.2.2.1).sum
          if 80 * 2 ^ 20 < used + bs.length then t.bootFail t.boot.image 0x1A t.boot.offset
          else (psWrite t t.boot.plate (0xB000000 + used) bs).modBoot fun x =>
            { x with staged := x.staged ++ [(t.boot.plate, used, bs.length, d)] }) s

/-- R487–R489: a segment passes when its tag is that of its bytes under its key, and the key of the next segment is made from it; a
segment that fails fails the image with TAG.  R489, R497: behind END, segment by segment, every byte must be 0, and every tag must pass. -/
def SegmentsRoll : Prop :=
  ∀ (s : State) (i j n : Nat),
    let b := s.boot
    let rd (o n : Nat) : List Byte := readMem (s.flash b.image) o n
    let c := b.offset / 2 ^ 26
    let e := min b.bodyLen ((c + 1) * 2 ^ 26)
    let zeros := (s.plain 0 (e - b.offset)).all (· == 0)
    s.rollKey i i = s ∧
    (i ≤ j → s.rollKey i (j + 1) = (s.rollKey i j).rollKey j (j + 1)) ∧
    (b.loading = true → segmentOk rd b.key i = true → s.rollKey i (i + 1) =
      s.modBoot fun x => { x with key := (hmac384 (slice (rd 0 256) 32 12) (b.key ++ beBytes 4 (i + 1))).take 32 }) ∧
    (b.loading = true → segmentOk rd b.key i = false → s.rollKey i (i + 1) = s.bootFail b.image 0x18 (i * 2 ^ 26)) ∧
    (b.loading = false → s.rollKey i (i + 1) = s) ∧
    s.tailGo 0 = s ∧
    (b.loading = false → s.tailGo (n + 1) = s) ∧
    (b.loading = true → zeros = false → s.tailGo (n + 1) = s.bootFail b.image 0x1C b.offset) ∧
    (b.loading = true → zeros = true → segmentOk rd b.key c = false → s.tailGo (n + 1) = s.bootFail b.image 0x18 (c * 2 ^ 26)) ∧
    (b.loading = true → zeros = true → segmentOk rd b.key c = true → s.tailGo (n + 1) =
      (s.modBoot fun x => { x with key := nextKey (slice (rd 0 256) 32 12) b.key c, offset := e }).tailGo n)

/-- R489, R497, R499: SVAPIN_END closes the regions that hold frames when nothing but zeros follows and every tag has passed; else the
image fails with its reason.  It acts when the body holds END, with the operands of the command, where the stream stands. -/
def StreamEnds : Prop :=
  ∀ (arg : BitVec 24) (rest : List Byte) (s : State),
    let b := s.boot
    let u := s.rollKey (b.offset / 2 ^ 26) ((b.offset + 4) / 2 ^ 26)
    let v := (u.modBoot fun x => { x with offset := if x.loading then b.offset + 4 else x.offset }).tailGo
      (segments b.bodyLen - (b.offset + 4) / 2 ^ 26)
    (b.loading = false → exec (.svapinEnd arg rest) s = .next (settle s)) ∧
    (b.loading = true → wordOk s.cmdWord = false → exec (.svapinEnd arg rest) s = .next (settle (s.bootFail b.image 0x19 b.offset))) ∧
    (b.loading = true → wordOk s.cmdWord = true → s.spells 0 (cmdBytes 0x3F arg.toNat ++ rest) = false → exec (.svapinEnd arg rest) s = .next (settle s)) ∧
    (b.loading = true → wordOk s.cmdWord = true → s.spells 0 (cmdBytes 0x3F arg.toNat ++ rest) = true →
      (v.boot.loading = false → exec (.svapinEnd arg rest) s = .next (settle v)) ∧
      (v.boot.loading = true → ∃ t, exec (.svapinEnd arg rest) s = .next t ∧
        t.boot = { v.boot with loading := false, offset := b.bodyLen, key := [] } ∧ t.rf (confAt 0) 8 4 = 5 ∧
        t.rf (confAt 0) 2 1 = b.image.val ∧ t.rf 0x300 0 4 = 5 ∧ t.rf (confAt (8 + 8 * b.image.val)) 0 32 = 1 ∧
        ∀ i, (t.region i).state = if s.holdsFrame i then .closed else (s.region i).state))

/-- R499, R503, R643: the build sweep measures the banks and asserts CONFIG_DONE.  R481, R485, R486, R500, R653: the boot ROM tries the
next image that BOOTSEL allows: FL_RST_N is low at its start, the module is cleared, and its stream starts when header, signatures and key
pass; else the image fails with its reason. -/
def BuildAndBoot : Prop :=
  ∀ (s : State),
    let b := s.boot
    let stage := s.rf (confAt 0) 8 4
    (stage = 5 → ∃ t, exec .buildSweep s = .next t ∧ t.pins.cfgDone = true ∧ t.rf (confAt 0) 8 4 = 6 ∧
      t.rf 0x300 0 4 = 6 ∧ t.test = (if s.pins.testkeep then s.test else {}) ∧
      ∀ k, t.bank k = { s.bank k with measured := if (s.bank k).ok then (s.bank k).level else 0 }) ∧
    (stage ≠ 5 → exec .buildSweep s = .next (settle s)) ∧
    ∀ answers flashOk,
      (s.mod.inReset = true ∨ b.loading = true ∨ (stage ≠ 0 ∧ stage ≠ 1 ∧ stage ≠ 3) →
        exec (.bootRomStart answers flashOk) s = .next (settle s)) ∧
      (s.mod.inReset = false → b.loading = false → stage = 0 ∨ stage = 1 ∨ stage = 3 →
        (s.pins.bootsel = 3 → exec (.bootRomStart answers flashOk) s =
          .next (settle ((s.setCfgState 9).modMod fun m => { m with server := 2 }))) ∧
        (s.pins.bootsel ≠ 3 → s.nextImage = none → exec (.bootRomStart answers flashOk) s = .next (settle s)) ∧
        ∀ n, s.pins.bootsel ≠ 3 → s.nextImage = some n →
          let u := (((s.clearConfig).setCfgState (if n = 0 then 1 else 3)).setRf 0x300 0 4 4).modPins fun x =>
            { x with flResets := x.flResets + 1 }
          let rd (o k : Nat) : List Byte := readMem (s.flash n) o k
          let v := u.setRf (confAt (8 + 8 * n.val)) 32 32 (leAt (rd 0 256) 16 4)
          (answers = false ∨ leAt (rd 0 256) 0 4 ≠ 0x49505653 → exec (.bootRomStart answers flashOk) s =
            .next (settle (u.bootFail n 0x10 0))) ∧
          (answers = true → leAt (rd 0 256) 0 4 = 0x49505653 → flashOk = false → exec (.bootRomStart answers flashOk) s =
            .next (settle (u.bootFail n 0x11 0))) ∧
          (answers = true → leAt (rd 0 256) 0 4 = 0x49505653 → flashOk = true →
            (imageReason v (Config.flashSize n) rd ≠ 0 → exec (.bootRomStart answers flashOk) s = .next (settle (v.bootFail n (imageReason v (Config.flashSize n) rd) 0))) ∧
            (imageReason v (Config.flashSize n) rd = 0 → imageKey (rd 0 256) = none → exec (.bootRomStart answers flashOk) s =
              .next (settle (v.bootFail n 0x17 0))) ∧
            ∀ key, imageReason v (Config.flashSize n) rd = 0 → imageKey (rd 0 256) = some key → exec (.bootRomStart answers flashOk) s =
              .next (settle ((v.setCfgState (if n = 0 then 2 else 4)).modBoot fun x =>
                { x with loading := true, plate := 0, offset := 0, bodyLen := leAt (rd 0 256) 24 8, key, image := n }))))

/-- R481, R485–R500, R503, R643, R653: the boot ROM, its command stream and the build sweep.
The model's own choices are in assumptions 5, 44, 45 and 91. -/
def Obligations.CommandStream : Prop := StreamFrames ∧ StreamRegionsAndBlobs ∧ SegmentsRoll ∧ StreamEnds ∧ BuildAndBoot

/-- R493: a REGION command for a region that already has a window fails the image with COMMAND: no stream runs, and the reason stands in
the image's CFG_RESULT.  The body holds the command where the stream stands, in one segment; where a segment ends inside it, the
segment's tag decides first (`StreamRow`). -/
def Obligations.RegionWindowIsSetOnce : Prop :=
  ∀ (r : Fin 8) (w : Word) (s : State), s.boot.loading = true → bitOf (s.reg (channelAt ⟨s.boot.plate, r⟩ 0x18)) 49 = true →
    wordOk s.cmdWord = true → s.spells 0 (cmdBytes 0x10 r.val ++ leBytes 8 w.toNat) = true → s.boot.offset + 12 ≤ s.boot.bodyLen →
    s.boot.offset % 2 ^ 26 + 12 ≤ 2 ^ 26 →
    ∃ t, exec (.region r w) s = .next t ∧ t.rf (confAt (8 + 8 * s.boot.image.val)) 0 8 = 0x19 ∧ t.boot.loading = false ∧
      t.cores = s.cores ∧ t.nv = s.nv

/-! ### Control space -/

/-- Whether a write of the register at an offset of a block does something of its own, beside storing the bits that its fields accept. -/
def actsOnWrite (b : Blk) (o : Nat) : Bool :=
  match b with
  | .glob => [0x18, 0x20, 0x108, 0x118, 0x200, 0x1000].contains o
  | .plate _ => [0x1000, 0x1010, 0x2008].contains o
  | .hatch _ => [8, 0x48, 0x50, 0x1080].contains o
  | .core _ => [0x800, 0x8B8, 0xA40, 0xA48, 0xC20].contains o || inArr 0x810 8 16 o || inArr 0x1000 8 512 o
  | .stack _ => o == 0x48
  | .router _ => inArr 0x800 8 256 o
  | .netPlate _ => o == 8
  | .region _ => [8, 0x10, 0x18].contains o || inArr 0x60 8 4 o
  | .channel _ => o == 8
  | .queue _ _ => [0, 8, 0x18].contains o
  | .port _ => [0, 0x18, 0x28].contains o
  | .conf => o == 0x208
  | .scrub _ => o == 0
  | .engine => o == 0x18
  | _ => false

/-- R9–R14, R18, R497, R520: a write by a port that may not write changes nothing; one that is narrow, misaligned or hits no register is recorded
as an access fault; a register takes the bits that its fields accept and keeps the others, a write that no field accepts is discarded and
counted, and a clear of W1C flags sets out for their owner; some registers are commands, and act when their answer comes back; one with no route to its block sends nothing; and the stream command REG writes as the control
complex does and fails the image when the write has no effect.
The model's own choices are in assumptions 5, 51, 52, 53, 55, 91 and 129. -/
def Obligations.ControlSpaceWrites : Prop :=
  (∀ (src : PortClass) (addr : BitVec 40) (size : Nat) (v : Word) (s : State),
    let row : Instr := .registerWrite src addr size v
    let a := addr.toNat
    (s.mayWrite src = false → exec row s = .next (settle s)) ∧
    (s.mayWrite src = true →
      (size ≠ 8 ∨ a % 8 ≠ 0 ∨ locate a = none → exec row s = .next (settle (s.accessFault src true a))) ∧
      (∀ b o u, size = 8 → a % 8 = 0 → locate a = some (b, o) → s.carry (s.sourceEp src) (s.windowEp b) = (.refused, u) →
        exec row s = .next (settle u)) ∧
      (∀ b o u, size = 8 → a % 8 = 0 → locate a = some (b, o) → s.carry (s.sourceEp src) (s.windowEp b) = (.lost, u) →
        exec row s = .next (settle (u.accessFault src true a))) ∧
      ∀ b o, size = 8 → a % 8 = 0 → locate a = some (b, o) → (s.carry (s.sourceEp src) (s.windowEp b)).1 = .taken (s.windowEp b) →
        let answers (t : State) : Prop := (t.carry (s.windowEp b) (s.sourceEp src)).1 = .taken (s.sourceEp src)
        let acts (c : Instr) : Prop := ∀ t, exec c s = .next t → answers t → exec row s = .next t
        let c := b.base + o
        (userWindow b o = none → regIn b o = none → answers s → exec row s = .next (settle (s.accessFault src true a))) ∧
        (∀ i, userWindow b o = some i → acts (.userCtlAccess i (BitVec.ofNat 15 (o - 0x8000)) true v)) ∧
        (∀ r, userWindow b o = none → regIn b o = some r →
          let mask := r.rw ||| (if s.mod.locked then 0 else r.rwl)
          let kept := (s.reg c &&& ~~~mask) ||| (v &&& mask)
          (actsOnWrite b o = false → answers s →
            (r.w1c = 0 → mask ||| r.w1p ≠ 0 → ∃ t, exec row s = .next t ∧ t.reg c = kept ∧
              (∀ d, d ≠ c → t.reg d = s.reg d) ∧ t.crossing = s.crossing ∧ t.plates = s.plates ∧ t.cores = s.cores ∧ t.hatches = s.hatches) ∧
            (r.w1c = 0 → mask ||| r.w1p = 0 → exec row s = .next (settle s.discard)) ∧
            (r.w1c ≠ 0 → ∃ t, exec row s = .next t ∧ t.regs = s.regs ∧
              t.crossing = if v &&& r.w1c = 0 then s.crossing else s.crossing ++ [(c, v &&& r.w1c)])) ∧
          ∀ p, b = .scrub p → o = 0 → answers s → ∃ t, exec row s = .next t ∧ t.reg c = kept ∧
            ∀ z ∈ (t.plate p).scrub.copies, z.ctl = kept.setWidth 16) ∧
        (b = .glob → o = 0x108 → acts (.clkmodeWrite false v)) ∧
        (b = .glob → o = 0x118 → acts (.clkmodeWrite true v)) ∧
        (∀ p, b = .plate p → o = 0x1000 → acts (.planBaseWrite p v)) ∧
        (∀ h, b = .hatch h → o = 8 → acts (.hatchLaunchWrite h v)) ∧
        (∀ h, b = .hatch h → o = 0x50 → acts (.hatchCoresWrite h v)) ∧
        (∀ i, b = .core i → o = 0x800 → acts (.coreRowmapWrite i 0 v)) ∧
        (∀ p, b = .netPlate p → o = 8 → acts (.netPwrWrite p v)) ∧
        (∀ i, b = .region i → o = 8 → acts (.gateReqWrite i v)) ∧
        (∀ i, b = .region i → o = 0x18 → acts (.mrgQbindWrite i v)) ∧
        (∀ i, b = .stack i → o = 0x48 → acts (.stackRetireGo i v)) ∧
        (b = .conf → o = 0x208 → acts (.cfgRepairw v)))) ∧
  (∀ (addr : BitVec 40) (hwSet : Word) (s : State), (∀ x ∈ s.crossing, x.1 ≠ addr.toNat) →
    exec (.w1cClear addr hwSet) s = .next (settle s)) ∧
  ∀ (addr v : Word) (s : State),
    StreamRow (.reg addr v) (s.spells 0 (cmdBytes 0x30 0 ++ leBytes 8 addr.toNat ++ leBytes 8 v.toNat)) 20 True (fun t =>
      let w := t.csWrite .complex addr.toNat 8 v
      if occupied addr.toNat = true ∧ w.reg 0x1020 = t.reg 0x1020 then w else w.bootFail w.boot.image 0x1B w.boot.offset) s

/-- R17: a clear of W1C flags that takes effect leaves the flags that hardware sets in the same cycle set, and their companion
counters count; the other flags it names are clear. -/
def Obligations.ClearsMeetHardwareSets : Prop :=
  ∀ (addr : BitVec 40) (hwSet : Word) (s : State),
    let a := addr.toNat
    ∀ x r, s.crossing.find? (fun y => y.1 == a) = some x → regAt a = some r →
      let sets : Word := hwSet &&& r.w1c
      ∃ t, exec (.w1cClear addr hwSet) s = .next t ∧ t.crossing = s.crossing.erase x ∧
        t.reg a = (s.reg a &&& ~~~x.2) ||| sets ∧
        ∀ b < 64, t.reg (a + 8 + 8 * b) = if bitOf sets b then s.reg (a + 8 + 8 * b) + 1 else s.reg (a + 8 + 8 * b)

/-! ### Clocks, limits, resets and start-up -/

/-- The clock of a plate follows its requests: a switch starts to the slowest of them when it is not the mode in force and none is under
way (R611, R612). -/
def switchOf (t : State) (p : Fin 8) (x : PlateSt) : Option (BitVec 2) :=
  if x.switch = none ∧ t.clkWant p ≠ x.act.toNat ∧ t.mod.inReset = false then some (BitVec.ofNat 2 (t.clkWant p)) else x.switch

/-- Every plate becomes what `f` makes of it, but for a switch of its clock that its requests start. -/
def PlatesBecome (s t : State) (f : Fin 8 → PlateSt → PlateSt) : Prop :=
  ∀ p, t.plate p = { f p (s.plate p) with switch := switchOf t p (f p (s.plate p)) }

/-- R599, R611–R615, R640 and Tables 15.4, 15.8: a plate's clock mode in force follows the slowest request for it; the power cap, the
junction temperature and a low input raise and release the hardware's own requests one mode at a time; a plate that trips stops, and
restarts below 95.0 °C.
The model's own choices are in assumptions 5, 98 and 103. -/
def Obligations.ClocksAndLimits : Prop :=
  ∀ (p : Fin 8) (v : Word) (w tj : BitVec 16) (s : State),
    let x := s.plate p
    let stw := modeCode (s.rf 0x118 (2 * p.val) 2)
    (∀ m, switchOf s p x = some m → (s.clkWant p : Nat) = m.toNat ∨ x.switch = some m) ∧
    (∃ t, exec (.clkmodeWrite false v) s = .next t ∧ t.rf 0x108 0 16 = bitsOf v 0 16 ∧ (∀ a, a ≠ 0x108 → t.reg a = s.reg a) ∧
      PlatesBecome s t fun _ y => y) ∧
    (bitsOf v 40 8 = 0 → ∃ t, exec (.clkmodeWrite true v) s = .next t ∧ t.rf 0x118 0 16 = bitsOf v 0 16 ∧
      (∀ a, a ≠ 0x118 → t.reg a = s.reg a) ∧ PlatesBecome s t fun _ y => y) ∧
    (x.switch = none → exec (.clockSwitch p) s = .next (settle s)) ∧
    (∀ m, x.switch = some m → ∃ t, exec (.clockSwitch p) s = .next t ∧
      t.plate p = { x with act := m, switch := switchOf t p { x with act := m, switch := none } } ∧
      (∀ r, r ≠ p → t.plate r = s.plate r) ∧ t.regs = s.regs) ∧
    (let exceeds : Prop := s.capW < w.toNat
     let lower (y : PlateSt) : Prop := y.act ≠ 2 ∧ y.capC.toNat < 2
     ∃ t, exec (.powerCapStep w) s = .next t ∧ t.rf 0x110 32 16 = w.toNat ∧
      bitOf (t.reg 0x120) 0 = (bitOf (s.reg 0x120) 0 || decide (exceeds ∧ ∃ r, lower (s.plate r))) ∧
      (exceeds → (∃ r, lower (s.plate r)) → PlatesBecome s t fun _ y => if lower y then { y with capC := y.capC + 1 } else y) ∧
      (¬ exceeds ∨ (∀ r, ¬ lower (s.plate r)) → t.plates = s.plates)) ∧
    (∃ t, exec (.powerCapRelease w) s = .next t ∧ t.rf 0x110 32 16 = w.toNat ∧
      (w.toNat * 100 < 95 * s.capW → PlatesBecome s t fun _ y => if y.capC = 0 then y else { y with capC := y.capC - 1 }) ∧
      (95 * s.capW ≤ w.toNat * 100 → t.plates = s.plates)) ∧
    (1000 ≤ tj.toNat → x.thermC.toNat < 2 → ∃ t, exec (.thermalHot p tj) s = .next t ∧ bitOf (t.reg 0x120) 1 = true ∧
      t.plate p = { x with tj, thermC := x.thermC + 1, switch := switchOf t p { x with tj, thermC := x.thermC + 1 } } ∧
      ∀ r, r ≠ p → t.plate r = s.plate r) ∧
    (tj.toNat < 1000 ∨ 2 ≤ x.thermC.toNat → exec (.thermalHot p tj) s = .next (settle (s.heat p tj))) ∧
    (tj.toNat < 970 → x.thermC ≠ 0 → ∃ t, exec (.thermalRelease p tj) s = .next t ∧ t.regs = s.regs ∧
      t.plate p = { x with tj, thermC := x.thermC - 1, switch := switchOf t p { x with tj, thermC := x.thermC - 1 } } ∧
      ∀ r, r ≠ p → t.plate r = s.plate r) ∧
    (970 ≤ tj.toNat ∨ x.thermC = 0 → exec (.thermalRelease p tj) s = .next (settle (s.heat p tj))) ∧
    (1050 ≤ tj.toNat → x.stopped = false → ∃ t, exec (.tripPlate p tj) s = .next t ∧ (t.plate p).stopped = true ∧
      t.rf 0x118 (32 + p.val) 1 = 1 ∧ bitOf (t.reg 0x120) 2 = true) ∧
    (tj.toNat < 1050 ∨ x.stopped = true → exec (.tripPlate p tj) s = .next (settle (s.heat p tj))) ∧
    (∃ t, exec (.tripModule p) s = .next t ∧ (∀ r, (t.plate r).stopped = true) ∧ t.mod.tripped = true ∧ t.pins.faultN = false ∧
      t.pair.state = .fenced ∧ bitOf (t.reg 0x120) 3 = true) ∧
    (s.rf 0x118 (32 + p.val) 1 = 1 → tj.toNat < 950 → s.mod.tripped = false → ∃ t, exec (.plateRestart p tj) s = .next t ∧ (t.plate p).stopped = false ∧
      (t.plate p).thermC = 2 ∧ t.rf 0x118 (32 + p.val) 1 = 0) ∧
    (s.rf 0x118 (32 + p.val) 1 ≠ 1 ∨ 950 ≤ tj.toNat ∨ s.mod.tripped = true → exec (.plateRestart p tj) s = .next (settle (s.heat p tj).discard)) ∧
    (∃ t, exec .lowinEnter s = .next t ∧ t.mod.inputC = 2 ∧ bitOf (t.reg 0x120) 4 = true ∧ PlatesBecome s t fun _ y => y) ∧
    (∃ t, exec .lowinRelease s = .next t ∧ t.mod.inputC = 0 ∧ t.regs = s.regs ∧ PlatesBecome s t fun _ y => y) ∧
    (∀ above, s.policy 0x14 ≤ 2 → ∃ t, exec (.clockPolicy p above) s = .next t ∧
      t.rf 0x118 (2 * p.val) 2 = (if above then if stw < s.policy 0x14 then stw + 1 else stw else stw - 1) ∧
      (∀ a, a ≠ 0x118 → t.reg a = s.reg a) ∧ ∀ r, r ≠ p → t.plate r = s.plate r)

/-- What a module reset with a cause leaves (R620, R626–R628, R653): every register and every unit as after reset, but the cause and what is
non-volatile; the user pins are tri-stated. -/
structure ModuleReset (cause : Nat) (s t : State) : Prop where
  cause : t.reg 0x308 = BitVec.ofNat 64 (2 ^ cause)
  regs : ∀ a, a ≠ 0x308 → t.reg a = resetOf a
  units : t.cores = [] ∧ t.hatches = [] ∧ t.plates = [] ∧ t.drams = [] ∧ t.routers = [] ∧ t.inbox = [] ∧ t.ports = [] ∧ t.regions = []
  agents : t.engine = {} ∧ t.pair = {} ∧ t.gfc = {} ∧ t.boot = {} ∧ t.crossing = []
  server : t.mod.server = 0 ∧ t.mod.inReset = true ∧ t.mod.busy = [] ∧ t.mod.time = 0
  pins : t.pins.cfgDone = false ∧ t.pins.cfgErr = false ∧ t.pins.faultN = true
  flash : t.pins.flRstN = false ∧ t.pins.flResets = s.pins.flResets + 1
  kept : t.nv = s.nv ∧ t.test = {} ∧ t.pending = s.pending
  userPins : ∀ i n, t.pinOut i n = .tri 1
  mgmt : t.mgmt = { sent := s.mgmt.sent }
  banks : ∀ k, t.bank k = { s.bank k with measured := 0 }

/-- R617–R622, R641, R644, R649, R653, R659: what supplies, references and the reset pin do: a loss of RESET_N, the input, an auxiliary rail or
SREF resets the module with its cause; with power good it leaves reset and samples its straps; a lane reference carries two ports.
The model's own choices are in assumptions 5 and 95. -/
def Obligations.SuppliesAndResets : Prop :=
  ∀ (s : State),
    (∃ t, exec .resetNLow s = .next t ∧ ModuleReset 1 s t ∧ t.pins.resetN = false) ∧
    (s.pins.v48 = true → ∀ row ∈ [Instr.inputFail, .vaux33Fail],
      ∃ t, exec row s = .next t ∧ ModuleReset 3 s t ∧ t.pins.v48 = false ∧ t.pins.pwrOk = false) ∧
    (s.pins.v48 = false → exec .inputFail s = .next (settle s) ∧ exec .vaux33Fail s = .next (settle s)) ∧
    (∃ t, exec .coldHold s = .next t ∧ ModuleReset 3 s t ∧ t.pins.cold = true ∧ t.pins.pwrOk = false) ∧
    (∃ t, exec .srefLoss s = .next t ∧ ModuleReset 4 s t ∧ t.pins.sref = false) ∧
    (∀ ok, ∃ t, exec (.v48Rise ok) s = .next t ∧ t.pins.v48 = true ∧ t.pins.pwrOk = (s.pins.pwrOk || ok) ∧
      t.pins.cold = (s.pins.cold && !ok) ∧ t.nv = { s.nv with next := if s.pins.v48 then s.nv.next else 0x10 } ∧ t.regs = s.regs ∧
      t.mod = { s.mod with lines := t.mod.lines, edge := t.mod.edge }) ∧
    (∀ straps keep, s.mod.inReset = true → s.pins.pwrOk = true → ∃ t, exec (.leaveReset straps keep) s = .next t ∧
      t.mod.inReset = false ∧ t.pins.resetN = true ∧ t.pins.bootsel = straps ∧ t.pins.testkeep = keep ∧ t.pins.flRstN = true ∧ t.rf 0x300 0 4 = 3 ∧
      (∀ a, a ≠ 0x300 → t.reg a = s.reg a) ∧ (∀ i k, k < 4 → (meshNext i k).isSome = true → sget 0 (t.router i).up k = 0xFF)) ∧
    (∀ straps keep, s.mod.inReset = false ∨ s.pins.pwrOk = false → exec (.leaveReset straps keep) s = .next (settle s)) ∧
    (∀ g : Fin 5, ∃ t, exec (.lrefLoss g) s = .next t ∧ t.pins.lref.toNat.testBit g.val = false ∧
      ∀ k : Fin 10, k.val / 2 ≠ g.val → (t.port k).state = (s.port k).state) ∧
    (∀ g : Fin 5, exec (.lrefReturn g) s =
      .next (settle (s.modPins fun x => { x with lref := x.lref ||| BitVec.ofNat 5 (2 ^ g.val) }))) ∧
    exec .mrefLoss s = .next (settle ((s.modPins fun x => { x with mref := false }).modMgmt fun m => { m with link := 0 })) ∧
    (∀ i, ∃ t, exec (.vccoLoss i) s = .next t ∧ t.bank i = { s.bank i with ok := false } ∧ ∀ j, j ≠ i → t.bank j = s.bank j) ∧
    (∀ (i : BankId) (level : Byte), ∃ t, exec (.vccoReturn i level) s = .next t ∧ (t.bank i).level = level ∧
      ((t.bank i).ok = true ↔ ∃ v ∈ [100, 120, 150, 180], 95 * v ≤ 100 * level.toNat ∧ 100 * level.toNat ≤ 105 * v) ∧
      (t.bank i).measured = (s.bank i).measured ∧ ∀ j, j ≠ i → t.bank j = s.bank j)

/-- Ranges of frames, as first frame and count, that hold a reserve of `gib` GiB: they add up to it, lie apart, and each lies in one stack
that is up (R40, R623). -/
def ReservePlaced (up : StackId → Bool) (gib : Nat) (l : List (Nat × Nat)) : Prop :=
  (l.map (·.2)).sum = gib * 65536 ∧
  (∀ r ∈ l, r.2 ≠ 0 ∧ frameOk r.1 = true ∧ frameOk (r.1 + r.2 - 1) = true ∧ r.1 / 2 ^ 20 = (r.1 + r.2 - 1) / 2 ^ 20 ∧
    up (frameStack r.1) = true) ∧
  ∀ (i j : Nat) a b, i ≠ j → l[i]? = some a → l[j]? = some b → a.1 + a.2 ≤ b.1 ∨ b.1 + b.2 ≤ a.1

/-- R40, R442, R623–R625, R629: stage 6 brings up the stacks that train, fails the module when no plate is up or the reserve is not
placed, and goes on to stage 7; after the lanes' time or with every port up comes pairing, and firmware makes the module ready; the repair
record takes one entry at a time.
The model's own choices are in assumptions 5, 94 and 96. -/
def Obligations.StartUp : Prop :=
  ∀ (v : Word) (s : State),
    let stage := s.rf 0x300 0 4
    let failed := s.rf 0x300 4 1
    let fails (t : State) : Prop := t.rf 0x300 4 1 = 1 ∧ t.rf 0x300 12 4 = 6 ∧ t.mod.server = 1 ∧ t.pins.faultN = false
    (∀ trained ok (reserve : List (BitVec 25 × BitVec 25)) bad, stage = 6 → failed = 0 → s.mod.server ≠ 3 → s.mod.inReset = false →
      let up (i : StackId) : Bool := trained.toNat.testBit i.key
      let placed := reserve.map fun r => (r.1.toNat, r.2.toNat)
      (¬ ReservePlaced up s.reserveGiB placed ∨ trained = 0 ∨ ok = 0 → ∃ t, exec (.dramStage trained ok ⟨reserve, bad⟩) s = .next t ∧ fails t) ∧
      (ReservePlaced up s.reserveGiB placed → (∃ p, ok.toNat.testBit p.val = true ∧ (s.plate p).stopped = false ∧ (s.plate p).ctlDown ≠ 3 ∧
          ∃ q, up ⟨p, q⟩ = true) →
        s.boot.staged = [] → s.nv.repair = [] →
        ∃ t, exec (.dramStage trained ok ⟨reserve, bad⟩) s = .next t ∧ t.rf 0x300 0 4 = 7 ∧ t.rf (confAt 0) 8 4 = 7 ∧
          t.rf 0x20 8 8 = s.reserveGiB ∧ t.mod.mapUsed = placed ∧ t.mod.server = 1 ∧ t.boot.firmware = true ∧
          (∀ i, up i = true → (t.stack i).state = 1 ∧ (t.stack i).mem = [] ∧ (t.stack i).marks = []) ∧
          (∀ i, up i = false → (t.stack i).state = 3) ∧ (∀ p, ok.toNat.testBit p.val = false → (t.plate p).ctlDown = 3) ∧
          ((∃ i, up i = false) ∨ (∃ p : Fin 8, ok.toNat.testBit p.val = false) → t.rf 0x1030 0 1 = 1 ∧ t.pins.faultN = false))) ∧
    (∀ trained ok reserve bad, stage ≠ 6 ∨ failed = 1 ∨ s.mod.server = 3 → exec (.dramStage trained ok ⟨reserve, bad⟩) s = .next (settle s)) ∧
    (stage = 6 → failed = 0 → ∃ t, exec .stage6Timeout s = .next t ∧ (s.mod.server ≠ 3 → fails t) ∧
      (s.mod.server = 3 → t.mod.server = 3) ∧ ∀ a, a ≠ 0x300 → t.reg a = s.reg a) ∧
    (stage ≠ 6 ∨ failed = 1 → exec .stage6Timeout s = .next (settle s)) ∧
    (stage = 7 → ∃ t, exec .lanesStageTimeout s = .next t ∧ t.rf 0x300 0 4 = 8 ∧
      ((s.pins.twin = true ∧ s.rf (engineAt 0x100) 0 1 = 1) → s.pair.proposal = none → t.pair.state = .pairing) ∧
      ((s.pins.twin = false ∨ s.rf (engineAt 0x100) 0 1 ≠ 1) → t.pair = s.pair)) ∧
    (stage ≠ 7 → exec .lanesStageTimeout s = .next (settle s)) ∧
    (∀ e, stage = 8 → s.mod.server ≠ 3 → ∃ t, exec (.ready e) s = .next t ∧ t.engine = { s.engine with ready := true } ∧ t.mod.locked = true ∧
      t.rf 0x300 0 4 = 9 ∧ t.rf 0x300 32 32 = e.toNat ∧
      ∀ i, (s.region i).state = .closed → s.rf (regionAt i 8) 0 1 = 1 → (s.dom i.p (.region i.r)).reset = false → (t.region i).state = .opened) ∧
    (∀ e, stage = 7 → s.mod.server ≠ 3 → (∀ k : Fin 10, bitOf (s.reg (portAt k 0)) 0 = true → s.portUp k = true) →
      exec (.ready e) s = exec (.ready e) s.pairStage) ∧
    (∀ e, s.mod.server = 3 ∨ (stage ≠ 8 ∧ (stage = 7 → ∃ k : Fin 10, bitOf (s.reg (portAt k 0)) 0 = true ∧ s.portUp k = false)) →
      exec (.ready e) s = .next (settle s)) ∧
    (let ok : Prop := bitsOf v 47 6 < 36 ∧ bitsOf v 0 40 = 0 ∧ (bitsOf v 56 8 = 1 ∨ (bitsOf v 56 8 = 2 ∧ bitsOf v 40 7 = 0))
     (s.mod.repairW = none → s.nv.repair.length < 1024 → ok →
       exec (.cfgRepairw v) s = .next (settle (s.modMod fun m => { m with repairW := some v }))) ∧
     (s.mod.repairW ≠ none ∨ 1024 ≤ s.nv.repair.length ∨ ¬ ok → exec (.cfgRepairw v) s = .next (settle s.discard))) ∧
    (∀ w, s.mod.repairW = some w → ∃ t, exec .repairRecordWritten s = .next t ∧ t.nv = { s.nv with repair := s.nv.repair ++ [w] } ∧
      t.mod.repairW = none ∧ t.regs = s.regs) ∧
    (s.mod.repairW = none → exec .repairRecordWritten s = .next (settle s))

/-- R470, R567–R569, R575, R577, R598, R601, R631–R633: per-function resets start once and end; the watchdog and lost application cores
fence the module; the steward tests the suspect of a record and acts when the test fails.
The model's own choices are in assumptions 5 and 97. -/
def Obligations.FunctionResetsAndSteward : Prop :=
  ∀ (s : State),
    (∀ h : HatchId, let k := 0x100 + h.p.val * 0x20 + h.h.val
      (s.mod.busy.contains k = true → exec (.hatchReset h) s = .next (settle s.discard)) ∧
      (s.mod.busy.contains k = false → ∃ t, exec (.hatchReset h) s = .next t ∧ t.mod.busy.contains k = true ∧
        (t.hatch h).run = none ∧ (t.hatch h).seq = {} ∧ (t.hatch h).saved = none ∧ (t.hatch h).lq = [] ∧ (t.hatch h).ended = none ∧
        (t.dom h.p (.hatch h.h)).reset = true ∧ (∀ j < 16, t.reg (hatchAt h (0x1000 + 8 * j)) = 0) ∧
        ∀ i ∈ hatchCores h, s.standAlone i = false → (t.core i).sregs = [] ∧ (t.core i).vregs = [] ∧ (t.core i).preds = [] ∧
          (t.core i).acc = [] ∧ (t.core i).mq = [] ∧ (t.core i).dq = [] ∧ (t.core i).tables = [] ∧ (t.core i).stats = [])) ∧
    (∀ i : RegionId, let k := 0x100 + i.p.val * 0x20 + 0x10 + i.r.val
      (s.mod.busy.contains k = true → exec (.regionReset i) s = .next (settle s.discard)) ∧
      (s.mod.busy.contains k = false → ∃ t, exec (.regionReset i) s = .next t ∧ t.mod.busy.contains k = true ∧
        (t.region i).state ≠ .opened ∧ (t.region i).reads = [] ∧ (t.region i).ctl = none ∧ (t.region i).ffs = [] ∧
        (t.region i).ram = (s.region i).ram ∧ (t.dom i.p (.region i.r)).reset = true ∧ t.reg (regionAt i 0x28) = 0)) ∧
    (∀ m : Fin 2, let b : BitVec 2 := BitVec.ofNat 2 (2 ^ m.val)
      (s.mod.busy.contains (0x380 + m.val) = true → exec (.mgmtPortReset m) s = .next (settle s.discard)) ∧
      (s.mod.busy.contains (0x380 + m.val) = false → ∃ t, exec (.mgmtPortReset m) s = .next t ∧ t.mgmt.link = s.mgmt.link &&& ~~~b ∧
        t.mod.busy = s.mod.busy ++ [0x380 + m.val] ∧ t.regs = s.regs)) ∧
    (∀ k : BitVec 12, (s.mod.busy.contains k.toNat = false → exec (.funcResetComplete k) s = .next (settle s)) ∧
      (s.mod.busy.contains k.toNat = true → 0x300 ≤ k.toNat → k.toNat ≠ 0x3A0 → exec (.funcResetComplete k) s =
        .next (settle (s.modMod fun m => { m with busy := m.busy.filter (· != k.toNat) }))) ∧
      ∀ h : HatchId, k.toNat = 0x100 + h.p.val * 0x20 + h.h.val → s.mod.busy.contains k.toNat = true →
        ∃ t, exec (.funcResetComplete k) s = .next t ∧ t.mod.busy = s.mod.busy.filter (· != k.toNat) ∧
          (t.dom h.p (.hatch h.h)).reset = false) ∧
    exec .wdogKick s = .next (settle (s.modMod fun m => { m with half := false })) ∧
    (s.mod.inReset = false →
      exec .wdogHalfTimeout s = .next (settle (s.modMod fun m => { m with half := true })) ∧
      ∃ t, exec .watchdogExpire s = .next t ∧ t.rf 0x18 1 1 = 1 ∧ t.pair.state = .fenced ∧ t.mod.server = 3 ∧ t.boot.firmware = false ∧
        t.pins.faultN = false) ∧
    (s.mod.inReset = true → exec .wdogHalfTimeout s = .next (settle s) ∧ exec .watchdogExpire s = .next (settle s)) ∧
    (∀ n : Fin 16, let l := if s.mod.appDown.contains n.val then s.mod.appDown else s.mod.appDown ++ [n.val]
      let dead := s.mod.appDown.contains n.val
      ∃ t, exec (.appCoreError n) s = .next t ∧ t.mod.appDown = l ∧ (dead = false → 8 < l.length → t.pair.state = .fenced) ∧
        (dead = true ∨ l.length ≤ 8 → t.pair = s.pair) ∧
        (dead = false → n.val ∈ s.mod.appRun →
          (∀ k, (List.range 16).find? (fun j => !s.mod.appRun.contains j && !l.contains j) = some k →
            t.mod.appRun = s.mod.appRun.map fun x => if x = n.val then k else x) ∧
          ((∀ j < 16, j ∈ s.mod.appRun ∨ j ∈ l) → t.mod.appRun = s.mod.appRun.filter (· != n.val))) ∧
        (dead = true ∨ n.val ∉ s.mod.appRun → t.mod.appRun = s.mod.appRun)) ∧
    (∀ (i : StackId) (hit : Fin 101), let n := s.rf (stackAt i 0) 0 10
      ∃ t, exec (.idleAdapt i hit) s = .next t ∧ t.rf (stackAt i 0) 0 10 =
        (if s.policy 0x10 = 0 then n else if hit.val < s.policy 0x12 then n / 2
         else if s.policy 0x13 < hit.val then min 1023 (2 * n + 1) else n) ∧
        ∀ a, a ≠ stackAt i 0 → t.reg a = s.reg a) ∧
    (∀ (n : Fin 256) (row : Option (BitVec 7)) (pass sound : Bool),
      let info (j : Nat) : Prop := ∃ e, s.gfc.closed[j]? = some e ∧ e.info = true
      let past (j : Nat) (t : State) : State := t.modGfc fun g => { g with tested := j }
      (s.gfc.held = false ∨ s.gfc.closed[n.val]? = none ∨ n.val < s.gfc.tested ∨ info n.val ∨
          (∃ j, s.gfc.tested ≤ j ∧ j < n.val ∧ ¬ info j) →
        exec (.stewardIncident n ⟨pass, sound⟩ row) s = .next (settle s)) ∧
      ∀ e, s.gfc.held = true → s.gfc.closed[n.val]? = some e → e.info = false → s.gfc.tested ≤ n.val →
          (∀ j, s.gfc.tested ≤ j → j < n.val → info j) →
        let p : Fin 8 := fin 8 (fld e.key.toNat 9 3)
        let k := fld e.key.toNat 0 9
        let core : CoreId := ⟨p, fin 36 k⟩
        (fld e.key.toNat 12 4 = 1 →
          exec (.stewardIncident n ⟨true, sound⟩ row) s = .next (settle (past (n.val + 1) (s.quietHatch core.hatch))) ∧
          exec (.stewardIncident n ⟨false, sound⟩ row) s =
            .next (settle (past 256 ((s.quietHatch core.hatch).coreFailed core row sound e.rcd.time)))) ∧
        (fld e.key.toNat 12 4 = 2 → ∀ h : HatchId, h = ⟨p, fin 4 k⟩ →
          exec (.stewardIncident n ⟨true, sound⟩ row) s = .next (settle (past (n.val + 1) (hatchResetGo s h))) ∧
          ∃ t, exec (.stewardIncident n ⟨false, sound⟩ row) s = .next t ∧ (∀ i ∈ hatchCores h, t.role i = 3) ∧ t.pins.faultN = false ∧
            t.gfc.tested = 256) ∧
        (fld e.key.toNat 12 4 = 6 → sget 0 (s.router ⟨p, fin 4 (k / 4)⟩).up (k % 4) = 0 → s.routesClear = false →
          exec (.stewardIncident n ⟨pass, sound⟩ row) s = .next (settle (past n.val s))) ∧
        (fld e.key.toNat 12 4 = 8 → exec (.stewardIncident n ⟨true, sound⟩ row) s =
          .next (settle (past (n.val + 1) (portReset s (fin 10 k))))))

/-! ### Niuri ports -/

/-- R421, R422, R428, R434, R437–R442, R448, R457 and §10.8: bring-up goes from Idle through Detect and Train to Lock, and a timeout goes
back to Detect with its flag; CAP blocks settle width and mode; a retrain holds the link state of an Active port, whose loss clears it; an
alignment marker of each lane carries its seed; the steward moves a noisy port to Robust mode. -/
def PortsComeUp : Prop :=
  ∀ (k : Fin 10) (s : State),
    let p := s.port k
    let c := s.reg (portAt k 0)
    let may := s.portMayRun k
    let put (x : PortSt) : Host.Outcome State Fault Refusal := .next (settle (s.setPort k x))
    let at_ (f : State → State) : Host.Outcome State Fault Refusal := .next (settle (s.atPort k f))
    let clean (x : PortSt) : PortSt := { x with lanes := [], capGot := false, capSent := false, gather := [], sentBlk := [], tx := [], txNext := 0 }
    let detect (x : PortSt) : PortSt :=
      { clean x with state := 1, width8 := bitOf c 1 || (k == 0 && bitOf c 4), robust := bitOf c 2,
                     preset := BitVec.ofNat 3 (bitsOf c 8 3), present := 0 }
    let train (x : PortSt) : PortSt := { clean x with state := 2 }
    (p.state = 0 → may = true → exec (.portDetect k) s = put (detect p)) ∧
    (p.state ≠ 0 ∨ may = false → exec (.portDetect k) s = .next (settle s)) ∧
    (∀ here, (p.state ≠ 1 → exec (.detectProbe k here) s = .next (settle s)) ∧
      (p.state = 1 → p.present ||| here ≠ 0xFFFF → exec (.detectProbe k here) s = put { p with present := p.present ||| here, sentBlk := [] }) ∧
      (p.state = 1 → p.present ||| here = 0xFFFF → ∃ t, exec (.detectProbe k here) s = .next t ∧
        t.port k = train { p with present := 0xFFFF } ∧ t.regs = s.regs)) ∧
    (p.state = 1 → p.present.toNat % 256 = 255 → ∃ t, exec (.detectWidthTimeout k) s = .next t ∧
      t.port k = train { p with width8 := p.width8 || p.present != 0xFFFF } ∧ t.regs = s.regs) ∧
    (p.state ≠ 1 ∨ p.present.toNat % 256 ≠ 255 → exec (.detectWidthTimeout k) s = .next (settle s)) ∧
    (p.state = 2 → ∃ t, exec (.trainTimeExpire k) s = .next t ∧ (t.port k).state = 3 ∧ (t.port k).lanes = p.lanes ∧
      (∀ l < 16, sget 0 (t.port k).txPrbs l ≠ 0) ∧ ∀ j, j ≠ k → t.port j = s.port j) ∧
    (p.state ≠ 2 → exec (.trainTimeExpire k) s = .next (settle s)) ∧
    (p.state = 3 → exec (.lockTimeout k) s = .next (settle ((s.niuriErr k 7).toDetect k))) ∧
    (p.state ≠ 3 → exec (.lockTimeout k) s = .next (settle s)) ∧
    (p.state = 4 → exec (.exchangeTimeout k) s = .next (settle ((s.niuriErr k 7).toDetect k))) ∧
    (p.state ≠ 4 → exec (.exchangeTimeout k) s = .next (settle s)) ∧
    (p.state = 4 → exec (.capSend k) s = at_ (fun u => u.setPort k
      { u.port k with capSent := p.capSent || p.capGot, sentBlk := [capBytes k p p.width8 p.robust] })) ∧
    (p.state ≠ 4 → exec (.capSend k) s = at_ (fun u => u)) ∧
    (∀ m : CapMsg,
      (p.state ≠ 4 → exec (.capBlock k m) s = at_ (fun u => u)) ∧
      (p.state = 4 → m.cls ≠ decide (8 ≤ k.val) ∨ m.version ≠ 1 → exec (.capBlock k m) s =
        at_ (fun u => (u.niuriErr k 6).toDetect k)) ∧
      (p.state = 4 → m.cls = decide (8 ≤ k.val) → m.version = 1 →
        let q (x : PortSt) : PortSt :=
          { x with capGot := true, peerPort := BitVec.ofNat 4 m.port.toNat, peerHeld := m.held, peerNext := m.nextrx, peerRx := m.rxcred,
                   width8 := p.width8 || m.width8, robust := p.robust || m.robust,
                   lanes := if m.width8 then p.lanes.filter fun l => decide (l.1 < 8) else p.lanes }
        (p.capSent = false ∨ m.seen = false → exec (.capBlock k m) s = at_ (fun u => u.setPort k (q (u.port k)))) ∧
        (p.capSent = true → m.seen = true → exec (.capBlock k m) s = at_ (fun u => (u.setPort k (q (u.port k))).toActive k) ∧
          ∃ t, exec (.capBlock k m) s = .next t ∧ (t.port k).state = 5 ∧ (t.port k).widthAct = (p.width8 || m.width8) ∧
            (t.port k).protAct = (p.robust || m.robust) ∧ (t.port k).heldL = false))) ∧
    (p.state = 5 → exec (.niuriRetrain k) s = .next (settle ((s.modPort k fun x => { x with heldL := true }).toTrain k))) ∧
    (p.state ≠ 5 → exec (.niuriRetrain k) s = .next (settle s)) ∧
    (p.heldL = true → p.state ≠ 5 → exec (.holdExpire k) s = .next (settle ((s.clearLink k).rxPanic k))) ∧
    (p.heldL = false ∨ p.state = 5 → exec (.holdExpire k) s = .next (settle s)) ∧
    (∀ v, ∃ t, exec (.niuriEnableWrite k v) s = .next t ∧ t.rf (portAt k 0) 0 3 = bitsOf v 0 3 ∧ t.rf (portAt k 0) 8 3 = bitsOf v 8 3 ∧
      (bitOf v 0 = false → (t.port k).state = 0) ∧ (bitOf v 0 = true → t.port k = p) ∧
      (bitOf v 0 = false → p.state ≠ 0 → (t.port k).replay = [] ∧ (t.port k).rxHold = [] ∧ (t.port k).txSeq = 0 ∧ (t.port k).rxExp = 0)) ∧
    (3 ≤ p.state.toNat → p.state.toNat ≤ 5 → ∃ t, exec (.markerRowSend k) s = .next t ∧ (t.port k).amSent = p.amSent + 1 ∧
      (t.port k).sentBlk.length = 5 * p.width ∧ (∀ l < p.width, slice (nth [] (t.port k).sentBlk l) 0 12 =
        [0x4B, BitVec.ofNat 8 l, BitVec.ofNat 8 k.val, 0] ++ leBytes 4 (sget 0 (PortSt.fillLane l 16379 p).txPrbs l).toNat ++
          leBytes 4 (p.amSent + 1).toNat) ∧
      ∀ n, p.width ≤ n → n < 5 * p.width → nth [] (t.port k).sentBlk n = payBytes idlePay) ∧
    (p.state.toNat < 3 ∨ 5 < p.state.toNat → exec (.markerRowSend k) s = .next (settle s)) ∧
    (let b := s.mod.busy.contains (0x300 + k.val)
     (b = true → exec (.niuriPortReset k) s = .next (settle s.discard)) ∧
     (b = false → ∃ t, exec (.niuriPortReset k) s = .next t ∧ (t.port k).state = (if may then 1 else 0) ∧ (t.port k).replay = [] ∧
       (t.port k).rxBytes = [] ∧ t.reg (portAt k 0x30) = 0 ∧ t.reg (portAt k 0x90) = 0 ∧ t.reg (portAt k 0x98) = 0 ∧
       t.rf (portAt k 0x20) 48 16 = 0 ∧ t.reg (portAt k 0) = c ∧ t.mod.busy.contains (0x300 + k.val) = true ∧
       ∀ j, j ≠ k → (t.port j).state = (s.port j).state)) ∧
    (let inv (l : Nat) : Nat := s.rf (portAt k (0x100 + 8 * l)) 48 16
     let noisy : Prop := (∃ l < 16, s.policy 6 + nth 0 p.pollInv l ≤ inv l) ∨ s.policy 7 + p.pollCrc ≤ (s.reg (portAt k 0x58)).toNat
     let fec := ((List.range 16).map fun l => s.rf (portAt k (0x100 + 8 * l)) 16 16).sum
     (noisy → bitOf c 2 = false → ∃ t, exec (.niuriLanePoll k) s = .next t ∧ bitOf (t.reg (portAt k 0)) 2 = true ∧ (t.port k).quietS = 0 ∧
       (t.port k).state = (if may then 1 else 0)) ∧
     (¬ noisy → p.protAct = false → bitOf c 2 = false → p.state ≠ 3 → exec (.niuriLanePoll k) s =
       put { p with pollInv := (List.range 16).map inv, pollFec := fec, pollCrc := (s.reg (portAt k 0x58)).toNat, quietS := p.quietS + 1 }))

/-- R426–R433, R435: a lane that has no lock searches a valid header at one position after another and locks after 64 of them; an alignment
marker on a locked lane places it and seeds its descrambler; a lane outside the width, or a port that is not in Lock, Exchange or Active,
takes nothing. -/
def LanesLock : Prop :=
  ∀ (k : Fin 10) (l : Fin 16) (s : State),
    let p := s.port k
    let x := p.lane l.val
    (p.state.toNat < 3 ∨ p.width ≤ l.val → ∀ syms, exec (.blockReceive k l syms) s =
      .next (settle (s.atPort k fun u => u))) ∧
    (3 ≤ p.state.toNat → l.val < p.width → ∀ v : Fin 4, x.run ≠ 24 →
      let y : LaneSt := { x with run := if x.run ≠ 0 ∧ v = x.level then x.run + 1 else 1, level := v }
      ∃ t, exec (.blockReceive k l [v]) s = .next t ∧ (x.buf.length < 128 ∨ x.lock = false → t.regs = s.regs) ∧
        (x.lock = false → x.buf = [] → v.val = 1 ∨ v.val = 3 →
          (t.port k).lane l.val = { y with buf := [v], good := x.good + 1, lock := decide (64 ≤ x.good + 1) }) ∧
        (x.lock = false → x.buf = [] → v.val ≠ 1 → v.val ≠ 3 →
          (t.port k).lane l.val = { y with good := 0, cand := (x.cand + 1) % 129 }) ∧
        (x.buf ≠ [] ∨ x.lock = true → x.buf.length < 128 → (t.port k).lane l.val = { y with buf := x.buf ++ [v] }) ∧
        (128 ≤ x.buf.length → x.lock = false → (t.port k).lane l.val = { y with buf := [] })) ∧
    (3 ≤ p.state.toNat → l.val < p.width → ∀ v : Fin 4, x.run = 24 →
      ∃ t, exec (.blockReceive k l [v]) s = .next t ∧ (t.port k).lane l.val = { x with run := 1, level := v } ∧
        (v.val + x.level.val = 3 → t.regs = s.regs) ∧
        (v.val + x.level.val ≠ 3 → bitOf (t.reg (portAt k 0x30)) 3 = true)) ∧
    (p.state.toNat < 3 ∨ p.width ≤ l.val ∨ x.lock = false → ∀ pay, exec (.amBlock k l pay) s =
      .next (settle (s.atPort k fun u => u))) ∧
    (p.state = 3 → l.val < p.width → x.lock = true → x.seeded = false → x.blocks = [] → ∀ pay : BitVec 256,
      let n := fld pay.toNat 8 8
      isAm pay = true → n < p.width → (∀ m < p.width, m ≠ l.val → (p.lane m).seeded = true → (p.lane m).logical.toNat ≠ n) →
      (∃ m < p.width, m ≠ l.val ∧ (p.lane m).blocks = []) → (∀ m < p.width, (p.lane m).blocks.length ≤ 49) →
      ∃ t, exec (.amBlock k l pay) s = .next t ∧ (t.port k).state = 3 ∧ t.regs = s.regs ∧
        (t.port k).lane l.val =
          { x with seeded := true, prbs := BitVec.ofNat 31 (fld pay.toNat 32 31), logical := BitVec.ofNat 4 n,
                   amcount := BitVec.ofNat 32 (fld pay.toNat 64 32), after := 4, fecOn := false, fec := [], blocks := [mkBlk 3 pay] })

/-- R423–R427, R430, R436: a CAP block leaves on the next lane in its 129 levels, scrambled, and a stuff symbol of the opposite level
follows every 24 symbols of one level. -/
def SymbolsLeave : Prop :=
  (∀ (k : Fin 10) (s : State),
    let p := s.port k
    let l := p.txNext % p.width
    let w := prbsBits 256 (sget 0 p.txPrbs l)
    p.state = 4 → ∃ t, exec (.capSend k) s = .next t ∧ (t.port k).txNext = p.txNext + 1 ∧ sget 0 (t.port k).txPrbs l = w.2 ∧
      (t.port k).txLane l = TxLane.covered { p.txLane l with sym := [] }
        (mkBlk 3 (payOf (capBytes k p p.width8 p.robust) ^^^ BitVec.ofNat 256 w.1))) ∧
  (∀ (t : TxLane) (v : Fin 4),
    let run := if t.run ≠ 0 ∧ v = t.level then t.run + 1 else 1
    (run = 24 → TxLane.push t v = { t with run := 1, level := fin 4 (3 - v.val), sym := t.sym ++ [v, fin 4 (3 - v.val)] }) ∧
    (run ≠ 24 → TxLane.push t v = { t with run, level := v, sym := t.sym ++ [v] })) ∧
  (∀ (t : TxLane) (b : BitVec 258), t.fecOn = false → t.run = 0 →
    let u := TxLane.covered t b
    u.cnt = t.cnt + 1 ∧ t.sym.length + 129 ≤ u.sym.length ∧ nth 0 u.sym t.sym.length = fin 4 (blkHdr b))

/-- R421–R442, R448, R457: how the ports and lanes of Niuri come up.
The model's own choices are in assumptions 5, 88 and 123. -/
def Obligations.PortsAndLanes : Prop := PortsComeUp ∧ LanesLock ∧ SymbolsLeave

/-- R447, R450–R452, R582, R583: a parcel whose CRC fails asks for a replay once, one that comes again is only acknowledged, the expected
one is taken; what changes unreported leaves in a NULL parcel; a replay sends all that is not acknowledged, and at its limit retrains;
fabric reads and writes act inside a window that admits them, and are refused by status elsewhere.
The model's own choices are in assumptions 5, 38 and 102. -/
def Obligations.ParcelsAndFabricAccess : Prop :=
  (∀ (k : Fin 10) (bs : List Byte) (s : State), bs.length ≠ 256 → exec (.parcelReceive k bs) s = .fault .illFormed) ∧
  (∀ (k : Fin 10) (bs : List Byte) (s : State), bs.length = 256 →
    let p := s.port k
    let at_ (f : State → State) : Host.Outcome State Fault Refusal := .next (settle (s.atPort k f))
    let goodCrc : Prop := leAt bs 252 4 = (crc32c (slice bs 0 252)).toNat
    let ack := BitVec.ofNat 16 (leAt bs 4 2)
    let seq := BitVec.ofNat 16 (leAt bs 2 2)
    (p.state ≠ 4 ∨ p.capSent = false → p.state ≠ 5 → exec (.parcelReceive k bs) s = at_ (fun u => u)) ∧
    (p.state = 5 → ¬ goodCrc ∨ 2 ≤ leAt bs 0 1 % 16 → exec (.parcelReceive k bs) s = at_ (fun u => (u.badParcel k).pump k) ∧
      ∃ t, exec (.parcelReceive k bs) s = .next t ∧ (t.port k).nakOut = true ∧ (t.port k).rxExp = p.rxExp ∧
        bitOf (t.reg (portAt k 0x30)) 4 = true) ∧
    (p.state = 5 → goodCrc → leAt bs 0 1 % 16 = 0 → leAt bs 1 1 % 2 = 0 → ∃ t, exec (.parcelReceive k bs) s = .next t ∧
      (t.port k).rxExp = p.rxExp ∧ (t.port k).rxBytes = p.rxBytes ∧ (t.port k).peerCred = BitVec.ofNat 16 (leAt bs 6 2) ∧
      ∀ x ∈ p.replay, 32768 < (ack - x.seq).toNat ∨ ack = x.seq → x ∈ (t.port k).replay) ∧
    (p.state = 5 → goodCrc → leAt bs 0 1 % 16 = 1 → leAt bs 1 1 % 2 = 0 → seq ≠ p.rxExp → (p.rxExp - seq).toNat ≤ 32768 →
      ∃ t, exec (.parcelReceive k bs) s = .next t ∧ (t.port k).rxExp = p.rxExp ∧ (t.port k).rxBytes = p.rxBytes ∧
        (t.port k).nakOut = p.nakOut) ∧
    (p.state = 5 → goodCrc → leAt bs 0 1 % 16 = 1 → leAt bs 1 1 % 2 = 0 → seq = p.rxExp → p.rxBytes = [] → leAt bs 8 1 < 16 →
      ∃ t, exec (.parcelReceive k bs) s = .next t ∧ (t.port k).rxExp = p.rxExp + 1 ∧ (t.port k).nakOut = false ∧
        (t.port k).rxBytes = slice bs 12 (leAt bs 8 1) ∧ (t.port k).rxHold = p.rxHold ++ [leAt bs 8 1])) ∧
  (∀ (k : Fin 10) (s : State),
    let p := s.port k
    let still : Host.Outcome State Fault Refusal := .next (settle (s.atPort k fun u => u))
    (p.state ≠ 5 → exec (.ackIdleNull k) s = still ∧ exec (.replayTimeout k) s = still) ∧
    (p.state = 5 → p.out = [] → p.toSend = [] → p.unrep = true → ∃ t, exec (.ackIdleNull k) s = .next t ∧ (t.port k).unrep = false ∧
      (t.port k).sentBlk = [parcelBytes p false p.nakOut 0 []]) ∧
    (p.state = 5 → p.replay = [] → exec (.replayTimeout k) s = still) ∧
    (p.state = 5 → p.replay ≠ [] → p.retries < max 1 (s.rf (portAt k 0x10) 24 8) → p.out = [] → p.toSend = [] →
      ∃ t, exec (.replayTimeout k) s = .next t ∧ (t.port k).retries = p.retries + 1 ∧ (t.port k).replay = p.replay ∧
        (t.port k).sentBlk.length = p.replay.length ∧ (t.port k).state = 5) ∧
    (p.state = 5 → p.replay ≠ [] → max 1 (s.rf (portAt k 0x10) 24 8) ≤ p.retries →
      ∃ t, exec (.replayTimeout k) s = .next t ∧ (t.port k).state = 2 ∧ (t.port k).heldL = true ∧ (t.port k).replay = p.replay ∧
        bitOf (t.reg (portAt k 0x30)) 5 = true)) ∧
  (∀ (port : Fin 8) (k : CmsnKey) (body : List Byte) (s : State),
    let a := leAt body 0 8
    let tag := leAt body 8 4
    let ack := leAt body 12 1 % 2 == 1
    let n := body.length - 16
    let form : Prop := 32 ≤ body.length ∧ n ≤ 16352 ∧ n % 16 = 0 ∧ a % 16 = 0 ∧ a < 2 ^ 39 ∧ leAt body 12 1 ≤ 1 ∧ leAt body 13 3 = 0
    (¬ form → exec (.dwrite port k body) s = .next (settle (s.dreadRsp port k tag 3 0 [] ack))) ∧
    (form → fabWindow s port true a n = false → exec (.dwrite port k body) s = .next (settle (s.dreadRsp port k tag 1 0 [] ack))) ∧
    (∀ u, form → fabWindow s port true a n = true → n = 16 →
      devWriteLine s port none none (a / 128) ((List.range 16).map fun j => (a % 128 + j, nth 0 (body.drop 16) j)) (fabEp port) = (none, u) →
      exec (.dwrite port k body) s = .next (settle (u.dreadRsp port k tag 0 0 [] ack))) ∧
    let m := leAt body 12 4
    let ok : Prop := body.length = 16 ∧ 16 ≤ m ∧ m ≤ 16352 ∧ m % 16 = 0 ∧ a % 16 = 0 ∧ a < 2 ^ 39
    (¬ ok → exec (.dread port k body) s = .next (settle (s.dreadRsp port k tag 3 0 [] true))) ∧
    (ok → fabWindow s port false a m = false → exec (.dread port k body) s = .next (settle (s.dreadRsp port k tag 1 0 [] true))) ∧
    (∀ bs u, ok → fabWindow s port false a m = true → devRead s port none none a m (fabEp port) = (bs, none, u) →
      exec (.dread port k body) s = .next (settle (u.dreadRsp port k tag 0 0 bs true))) ∧
    (∀ bs f u, ok → fabWindow s port false a m = true → devRead s port none none a m (fabEp port) = (bs, some f, u) →
      exec (.dread port k body) s = .next (settle (u.dreadRsp port k tag 2 f.cause [] true))))

/-! ### Management -/

/-- A command is served at once: its frame is accepted, no kept response answers it, no command is before it, and the server that runs
knows its opcode. -/
def Served (s : State) (r : MgmtReq) (op : Nat) : Prop :=
  s.accepts r.frame = true ∧ s.keptFor r = none ∧ r.waits = false ∧ s.mgmt.queue = [] ∧ s.serves op = true

/-- A command is answered with a status and a body, after an effect. -/
def Responds (row : Instr) (s : State) (r : MgmtReq) (op status : Nat) (body : List Byte) (u : State) : Prop :=
  exec row s = .next (settle (u.respond r op status body))

/-- R502, R586–R589: a command whose frame the port does not accept is lost.  Each other raises interrupt line 1.  One that a kept response
matches is answered with that response again, one whose original waits with IN_PROGRESS, and both are counted.  While the server is
busy a command joins its queue, and is answered with BUSY when 64 wait there; else the server takes the queue in order, and then the
command, which is refused where the running server does not serve its opcode.
The model's own choices are in assumptions 56 and 57. -/
def Obligations.CommandsAreAnsweredOnce : Prop :=
  (∀ (n : Nat) (out : List MgmtOut) (s : State),
    s.serveAll 0 out = s.mgmtSend out ∧ (s.mgmt.queue = [] → s.serveAll (n + 1) out = s.mgmtSend out) ∧
    ∀ x q, s.mgmt.queue = x :: q →
      let u := serve x.1 x.2 (s.modMgmt fun m => { m with queue := q })
      s.serveAll (n + 1) out = u.serveAll n (out ++ u.mgmt.sent)) ∧
  ∀ (r : MgmtReq) (ws : List Word) (prs : List (Word × Word)) (its : List (BitVec 16 × BitVec 16)) (ps : List (BitVec 16 × BitVec 32))
    (bs : List Byte) (tok : FenceToken) (k : CmsnKey) (m n : Nat) (a : Word) (z : State),
    let s := z.edge 1
    let commands : List (Nat × Instr × MgmtCmd) :=
      [(0x01, .ident r, .ident), (0x02, .status r, .status), (0x10, .regrd r ws, .regrd ws), (0x11, .regwr r prs, .regwr prs),
       (0x20, .telem r its, .telem its),
       (0x21, .subscribe r m (BitVec.ofNat 16 n) (a.setWidth 32) (a.setWidth 32) its,
        .subscribe m (BitVec.ofNat 16 n) (a.setWidth 32) (a.setWidth 32) its), (0x22, .evlog r a n, .evlog a n),
       (0x30, .imgBegin r m n true, .imgBegin m n true), (0x30, .imgBegin r m n false, .imgBegin m n false),
       (0x31, .imgData r n bs, .imgData n bs), (0x32, .imgEnd r, .imgEnd), (0x33, .imgStatus r, .imgStatus), (0x40, .resetCmd r a, .reset a),
       (0x41, .mgmtFence r a, .fence a), (0x42, .token r tok, .token tok), (0x43, .faultnClear r, .faultnClear),
       (0x50, .attach r, .attach), (0x51, .detach r, .detach),
       (0x52, .durDeclare r (a.setWidth 25) (BitVec.ofNat 26 n), .durDeclare (a.setWidth 25) (BitVec.ofNat 26 n)),
       (0x53, .durWithdraw r n, .durWithdraw n), (0x54, .durStatus r, .durStatus), (0x60, .cancel r k, .cancel k),
       (0x61, .streamClose r (a.setWidth 16), .streamClose (a.setWidth 16)), (0x70, .policyGet r (its.map (·.1)), .policyGet (its.map (·.1))),
       (0x71, .policySet r ps, .policySet ps), (0x80, .dbglaneStatus r, .dbglane 0), (0x80, .dbglanePrbs13q r, .dbglane 1),
       (0x80, .dbglanePrbs31q r, .dbglane 2), (0x80, .dbglaneStop r, .dbglane 3)]
    ∀ c ∈ commands,
      let dup (o : MgmtOut) : State := (s.satRf (mgmtAt 8) 16 16 1).mgmtSend [o]
      let queued : Prop := ∃ x ∈ z.mgmt.queue, sameKey x.1 r = true
      let joined := s.modMgmt fun m => { m with queue := m.queue ++ [(r, c.2.2)] }
      (z.accepts r.frame = false → exec c.2.1 z = .next (settle z)) ∧
      (z.accepts r.frame = true → ∀ x, z.keptFor r = some x →
        exec c.2.1 z = .next (settle (dup (.response r x.2.2.1 x.2.2.2.1 x.2.2.2.2)))) ∧
      (z.accepts r.frame = true → z.keptFor r = none →
        (queued → exec c.2.1 z = .next (settle (dup (.response r (BitVec.ofNat 16 c.1) 1 [])))) ∧
        (¬ queued → r.waits = true → z.mgmt.queue.length < 64 → exec c.2.1 z = .next (settle (joined.mgmtSend []))) ∧
        (¬ queued → r.waits = true → 64 ≤ z.mgmt.queue.length → Responds c.2.1 z r c.1 4 [] s) ∧
        (¬ queued → r.waits = false → exec c.2.1 z = .next (settle (joined.serveAll (z.mgmt.queue.length + 1) []))) ∧
        (r.waits = false → z.mgmt.queue = [] → z.serves c.1 = false → Responds c.2.1 z r c.1 2 [] s) ∧
        (r.waits = false → z.mgmt.queue = [] → ∃ t o, exec c.2.1 z = .next t ∧ t.mgmt.sent = [o]))

/-- R580, R581, R595, R597, R602, Tables 14.5, 14.16: what the commands that read answer, and what SUBSCRIBE, REGWR and POLICY_SET change.
The model's own choices are in assumptions 56, 58, 61 and 64. -/
def Obligations.ManagementReads : Prop :=
  ∀ (r : MgmtReq) (z : State),
    let s := z.edge 1
    (Served z r 0x01 → Responds (.ident r) z r 0x01 0 (wordBytes [Config.mid, s.reg 0] ++ leBytes 4 s.version.toNat) s) ∧
    (∀ ws u, Served z r 0x02 → readAll .complex [confAt 0, confAt 8, confAt 0x10, engineAt 0x108, 0x8, engineAt 0x10, 0x18] s [] = (ws, u) →
      Responds (.status r) z r 0x02 0 (wordBytes ws) u) ∧
    (∀ as ws u, Served z r 0x10 → 1 ≤ as.length → as.length ≤ 64 → (∀ a ∈ as, a.toNat < 2 ^ 40) →
      readAll .management (as.map (·.toNat)) s [] = (ws, u) → Responds (.regrd r as) z r 0x10 0 (wordBytes ws) u) ∧
    (∀ as, Served z r 0x10 → as = [] ∨ 64 < as.length ∨ (∃ a ∈ as, 2 ^ 40 ≤ a.toNat) → Responds (.regrd r as) z r 0x10 3 [] s) ∧
    (∀ (a v : Word) t, Served z r 0x11 → a.toNat < 2 ^ 40 → (s.csWrite .management a.toNat 8 v).landClears a.toNat = t →
      (occupied a.toNat = true → t.reg 0x1020 = s.reg 0x1020 →
        Responds (.regwr r [(a, v)]) z r 0x11 0 (leBytes 4 1 ++ leBytes 4 0xFFFFFFFF) t) ∧
      (occupied a.toNat = false ∨ t.reg 0x1020 ≠ s.reg 0x1020 → Responds (.regwr r [(a, v)]) z r 0x11 0 (leBytes 4 0 ++ leBytes 4 0) t)) ∧
    (∀ ws, Served z r 0x11 → ws.length ≤ 64 → ws ≠ [] → (∀ x ∈ ws, x.1.toNat < 2 ^ 40) →
      ∃ n first, Responds (.regwr r ws) z r 0x11 0 (leBytes 4 n ++ leBytes 4 first)
        (ws.foldl (fun (t : State) x => (t.csWrite .management x.1.toNat 8 x.2).landClears x.1.toNat) s)) ∧
    (∀ ws, Served z r 0x11 → ws = [] ∨ 64 < ws.length ∨ (∃ x ∈ ws, 2 ^ 40 ≤ x.1.toNat) → Responds (.regwr r ws) z r 0x11 3 [] s) ∧
    (∀ its : List (BitVec 16 × BitVec 16), Served z r 0x20 →
      (1 ≤ its.length ∧ its.length ≤ 128 ∧ (∀ x ∈ its, x.2.toNat < telCount x.1.toNat) → Responds (.telem r its) z r 0x20 0
        (its.flatMap fun x => leBytes 8 (s.telValue x.1.toNat x.2.toNat).toNat) s) ∧
      (its = [] ∨ 128 < its.length ∨ (∃ x ∈ its, telCount x.1.toNat ≤ x.2.toNat) → Responds (.telem r its) z r 0x20 3 [] s)) ∧
    (∀ slot udp mask period (its : List (BitVec 16 × BitVec 16)), Served z r 0x21 →
      (slot < 4 → its.length ≤ 64 → (∀ x ∈ its, x.2.toNat < telCount x.1.toNat) →
        let x : SubSt := { port := r.port, source := r.source, udp, mask, period, items := its, sent := s.mgmt.eseq, told := s.mod.time }
        Responds (.subscribe r slot udp mask period its) z r 0x21 0 []
          (s.modMgmt fun m => { m with subs := sset none m.subs slot (some x) })) ∧
      (4 ≤ slot ∨ 64 < its.length ∨ (∃ x ∈ its, telCount x.1.toNat ≤ x.2.toNat) →
        Responds (.subscribe r slot udp mask period its) z r 0x21 3 [] s)) ∧
    (∀ (first : Word) n, Served z r 0x22 →
      (1 ≤ n → n ≤ 32 → Responds (.evlog r first n) z r 0x22 0
        (((s.mgmt.log.filter fun e => decide (first.toNat ≤ e.eseq.toNat)).take n).flatMap evBytes) s) ∧
      (n = 0 ∨ 32 < n → Responds (.evlog r first n) z r 0x22 3 [] s)) ∧
    (∀ ids : List (BitVec 16), Served z r 0x70 →
      ((∀ i ∈ ids, (policyRange i.toNat).isSome = true) → Responds (.policyGet r ids) z r 0x70 0 (s.policyBytes ids) s) ∧
      ((∃ i ∈ ids, policyRange i.toNat = none) → Responds (.policyGet r ids) z r 0x70 3 [] s)) ∧
    (∀ ps : List (BitVec 16 × BitVec 32), Served z r 0x71 →
      let good (x : BitVec 16 × BitVec 32) : Prop := ∃ lo hi, policyRange x.1.toNat = some (lo, hi) ∧ lo ≤ x.2.toNat ∧ x.2.toNat ≤ hi
      ((∀ x ∈ ps, good x) → ∃ t, exec (.policySet r ps) z = .next t ∧
        (∀ i < 2 ^ 16, t.policy i = match ps.reverse.find? fun x => x.1.toNat == i with
          | some x => x.2.toNat
          | none => s.policy i) ∧ t.regs = s.regs) ∧
      ((∃ x ∈ ps, ¬ good x) → Responds (.policySet r ps) z r 0x71 3 [] s)) ∧
    (Served z r 0x33 → Responds (.imgStatus r) z r 0x33 0 [s.mgmt.up.phase.setWidth 8, s.mgmt.up.reason] s) ∧
    (Served z r 0x54 → Responds (.durStatus r) z r 0x54 0 (s.pair.regions.map fun d => d.state.setWidth 8) s) ∧
    (Served z r 0x80 →
      let rows : List (Instr × Option (BitVec 2)) :=
        [(.dbglaneStatus r, none), (.dbglanePrbs13q r, some 1), (.dbglanePrbs31q r, some 2), (.dbglaneStop r, some 0)]
      ∀ x ∈ rows,
        (s.rf (portAt 0 0) 4 1 = 0 → Responds x.1 z r 0x80 2 [] s) ∧
        (s.rf (portAt 0 0) 4 1 = 1 → ∃ t, exec x.1 z = .next t ∧ t.mgmt.dbg = x.2.getD s.mgmt.dbg ∧ t.regs = s.regs))

/-- R538, R557, R558, R561, R568, R590–R594 and Table 14.7: an image is uploaded in pieces, checked and programmed; a reset answers first;
fencing, tokens, FAULT_N, pairing, durable regions, cancels and streams have their effects, or are refused.
The model's own choices are in assumptions 56, 59 and 60. -/
def Obligations.ManagementActions : Prop :=
  ∀ (r : MgmtReq) (z : State),
    let s := z.edge 1
    let up := s.mgmt.up
    let busy : Prop := up.phase = 2 ∨ up.phase = 3 ∨ up.phase = 4
    let upload (x : UploadSt) : State := s.modMgmt fun m => { m with up := x }
    (∀ flash len abort, Served z r 0x30 →
      (flash < 2 → len ≤ 2 ^ 28 → len ≤ Config.flashSize (fin 2 flash) → ¬ busy → (up.phase = 1 → abort = true) →
        Responds (.imgBegin r flash len abort) z r 0x30 0 [] (upload { phase := 1, flash := flash == 1, len })) ∧
      (flash < 2 → len ≤ 2 ^ 28 → len ≤ Config.flashSize (fin 2 flash) → busy ∨ (up.phase = 1 ∧ abort = false) → Responds (.imgBegin r flash len abort) z r 0x30 4 [] s) ∧
      (2 ≤ flash ∨ 2 ^ 28 < len ∨ Config.flashSize (fin 2 flash) < len → Responds (.imgBegin r flash len abort) z r 0x30 3 [] s)) ∧
    (∀ off (bs : List Byte), Served z r 0x31 →
      let fits : Prop := off % 256 = 0 ∧ 256 ≤ bs.length ∧ bs.length ≤ 8192 ∧ off + bs.length ≤ up.len ∧
        (bs.length % 256 = 0 ∨ off + bs.length = up.len)
      (up.phase ≠ 1 → Responds (.imgData r off bs) z r 0x31 2 [] s) ∧
      (up.phase = 1 → ¬ fits → Responds (.imgData r off bs) z r 0x31 3 [] s) ∧
      (up.phase = 1 → fits → ∃ t, exec (.imgData r off bs) z = .next t ∧ t.regs = s.regs ∧ t.nv = s.nv ∧
        (∀ j, sget none t.mgmt.up.bytes j = if off ≤ j ∧ j < off + bs.length then some (nth 0 bs (j - off)) else sget none up.bytes j))) ∧
    (Served z r 0x32 → (up.phase = 1 → Responds (.imgEnd r) z r 0x32 1 [] (upload { up with phase := 2 })) ∧
      (up.phase ≠ 1 → Responds (.imgEnd r) z r 0x32 2 [] s)) ∧
    (up.phase = 1 → exec .uploadTimeout z = .next (settle (z.modMgmt fun m => { m with up := {} }))) ∧
    (up.phase ≠ 1 → exec .uploadTimeout z = .next (settle z)) ∧
    (∀ ok,
      (¬ busy → exec (.imgProgramComplete ok) z = .next (settle z)) ∧
      (up.phase = 2 → z.uploadReason ≠ 0 → exec (.imgProgramComplete ok) z = .next (settle (z.uploadEnd 6 z.uploadReason))) ∧
      (up.phase = 2 → z.uploadReason = 0 → ∃ t, exec (.imgProgramComplete ok) z = .next t ∧ t.mgmt.up = { up with phase := 3 } ∧
        if up.flash then t.nv.flash0 = z.nv.flash0 else t.nv.flash1 = z.nv.flash1) ∧
      (up.phase = 3 → exec (.imgProgramComplete ok) z = .next (settle (z.modMgmt fun m => { m with up := { up with phase := 4 } }))) ∧
      (up.phase = 4 → ok = true → ∃ t, exec (.imgProgramComplete ok) z = .next t ∧ t.mgmt.up.phase = 5 ∧
        (∀ j, sget 0 (if up.flash then t.nv.flash1 else t.nv.flash0) j =
          if j < up.len then (sget none up.bytes j).getD 0 else 0) ∧
        (if up.flash then t.nv.flash0 = z.nv.flash0 else t.nv.flash1 = z.nv.flash1)) ∧
      (up.phase = 4 → ok = false → exec (.imgProgramComplete ok) z = .next (settle (z.uploadEnd 6 0x31)))) ∧
    (∀ id, Served z r 0x40 →
      (id = Config.mid → up.phase ≠ 3 → up.phase ≠ 4 → ∃ t, exec (.resetCmd r id) z = .next t ∧ ModuleReset 2 (s.mgmtSend
        [.response r 0x40 0 []]) t) ∧
      (id = Config.mid → up.phase = 3 ∨ up.phase = 4 → Responds (.resetCmd r id) z r 0x40 4 [] s) ∧
      (id ≠ Config.mid → Responds (.resetCmd r id) z r 0x40 3 [] s)) ∧
    (∀ id, Served z r 0x41 → (id ≠ Config.mid → Responds (.mgmtFence r id) z r 0x41 3 [] s) ∧
      (id = Config.mid → ∃ t, exec (.mgmtFence r id) z = .next t ∧ t.pair.state = .fenced)) ∧
    (∀ k, Served z r 0x42 → Responds (.token r k) z r 0x42 (if s.tokenOk 2 k then 0 else 3) [] (s.tokenGo 2 k)) ∧
    (Served z r 0x43 → Responds (.faultnClear r) z r 0x43 0 [] (s.setRf 0x1030 0 1 0)) ∧
    (Served z r 0x50 → (s.pair.state = .solo → Responds (.attach r) z r 0x50 1 [] (s.pairStart false)) ∧
      (s.pair.state ≠ .solo → Responds (.attach r) z r 0x50 2 [] s)) ∧
    (Served z r 0x51 → (s.pair.state = .paired → Responds (.detach r) z r 0x51 1 [] (s.detachNow true)) ∧
      (s.pair.state ≠ .paired → Responds (.detach r) z r 0x51 2 [] s)) ∧
    (∀ first count, Served z r 0x52 →
      let n : Nat := count.toNat
      let d : DurRegion := { first := first.toNat, count := n, state := 0 }
      let u := (s.modPair fun x => { x with regions := x.regions ++ [d] }).setDur first.toNat n true
      let idx := leBytes 4 s.pair.regions.length
      let total := ((s.pair.regions.map (·.count)).sum + n) * 16384
      (n = 0 ∨ 2 ^ 25 < first.toNat + n → Responds (.durDeclare r first count) z r 0x52 3 [] s) ∧
      (n ≠ 0 → first.toNat + n ≤ 2 ^ 25 →
        (s.pair.regions.length < 64 → s.pair.state = .solo → Responds (.durDeclare r first count) z r 0x52 0 idx u) ∧
        (s.pair.regions.length < 64 → s.pair.state = .paired → total ≤ s.pair.peerCap.toNat →
          Responds (.durDeclare r first count) z r 0x52 1 idx ((u.sendRange d false).regionCopy d)) ∧
        (64 ≤ s.pair.regions.length ∨ (s.pair.state ≠ .solo ∧ s.pair.state ≠ .paired) ∨
          (s.pair.state = .paired ∧ s.pair.peerCap.toNat < total) → Responds (.durDeclare r first count) z r 0x52 2 [] s))) ∧
    (∀ n, Served z r 0x53 → (s.pair.regions.length ≤ n → Responds (.durWithdraw r n) z r 0x53 3 [] s) ∧
      ∀ d, s.pair.regions[n]? = some d → let u := s.setDur d.first d.count false
        (u.pair.state = .solo → Responds (.durWithdraw r n) z r 0x53 0 [] (u.modPair fun x => { x with regions := x.regions.eraseIdx n })) ∧
        (u.pair.state ≠ .solo → Responds (.durWithdraw r n) z r 0x53 1 []
          ((u.modPair fun x => { x with regions := x.regions.set n { d with state := 2 } }).sendRange d true))) ∧
    (∀ k, Served z r 0x60 →
      (s.cmsn k = none → Responds (.cancel r k) z r 0x60 0 (leBytes 4 0) (cancelGo s k)) ∧
      ∀ c, s.cmsn k = some c → Responds (.cancel r k) z r 0x60 0
        (leBytes 4 (if c.state = .accepted ∨ c.state = .ready ∨ c.state = .running ∨ c.state = .preempted ∨ c.state = .finished then 1 else 0))
        (cancelGo s k)) ∧
    (∀ n : BitVec 16, Served z r 0x61 →
      let used : Prop := (∃ c ∈ s.engine.cmsns, c.key.stream = n) ∨ ∃ x ∈ s.engine.pending, x.key.stream = n
      (used → Responds (.streamClose r n) z r 0x61 4 [] s) ∧
      (¬ used → Responds (.streamClose r n) z r 0x61 0 [] (s.modEngine fun e => { e with streams := sdel e.streams n.toNat })))

/-- R503, R585–R587, R595, R602, R603, R622, R642, R646, R648: a listening port answers for the addresses that it holds and counts
datagrams that it drops; links; subscribers are pushed what is new; the test port has its instructions while it is enabled.
The model's own choices are in assumptions 5, 50 and 62. -/
def Obligations.PortsAndTestAccess : Prop :=
  ∀ (m : Fin 2) (s : State),
    let b : BitVec 2 := BitVec.ofNat 2 (2 ^ m.val)
    let sends (o : MgmtOut) : Host.Outcome State Fault Refusal := .next (settle (s.modMgmt fun x => { x with sent := [o] }))
    exec (.mgmtLinkDown m) s = .next (settle (s.modMgmt fun x => { x with link := x.link &&& ~~~b })) ∧
    (s.mod.inReset = false → s.mod.busy.contains (0x380 + m.val) = false → exec (.mgmtLinkUp m) s =
      .next (settle ((s.modPins fun x => { x with mref := true }).modMgmt fun x => { x with link := x.link ||| b }))) ∧
    (s.mod.inReset = true ∨ s.mod.busy.contains (0x380 + m.val) = true → exec (.mgmtLinkUp m) s = .next (settle s)) ∧
    (∀ a pay,
      (s.listens m = true → s.holdsV4 m a = true → exec (.arpRequest m a) s = sends (.arp m a)) ∧
      (s.listens m = true → s.holdsV6 m a = true → exec (.ndRequest m a) s = sends (.nd m a)) ∧
      (s.listens m = true → (s.holdsV4 m a = true ∧ pay.length ≤ 9170) ∨ (s.holdsV6 m a = true ∧ pay.length ≤ 9150) →
        exec (.echoRequest m a pay) s = sends (.echo m pay)) ∧
      (s.listens m = false ∨ s.holdsV4 m a = false → exec (.arpRequest m a) s = .next (settle s)) ∧
      (s.listens m = false ∨ s.holdsV6 m a = false → exec (.ndRequest m a) s = .next (settle s)) ∧
      (s.listens m = false ∨ ((s.holdsV4 m a = false ∨ 9170 < pay.length) ∧ (s.holdsV6 m a = false ∨ 9150 < pay.length)) → exec (.echoRequest m a pay) s = .next (settle s))) ∧
    (∀ (f : MgmtFrame) (bs : List Byte),
      (s.accepts f = true ↔ s.listens f.port = true ∧ f.bytes ≤ 9216 ∧
        (if f.v6 then s.holdsV6 f.port f.dest else s.holdsV4 f.port f.dest) = true) ∧
      (s.accepts f = true → bs.length < 16 ∨ leAt bs 0 2 ≠ 0x4D42 ∨ leAt bs 2 1 ≠ 1 ∨ leAt bs 3 1 % 4 ≠ 0 ∨ leAt bs 12 4 + 16 ≠ bs.length ∨
          leAt bs 4 2 ∉ opcodes → exec (.mgmtDatagramInvalid f bs) s = .next (settle (s.satRf (mgmtAt 8) 32 32 1))) ∧
      (s.accepts f = false ∨ badDatagram bs = false → exec (.mgmtDatagramInvalid f bs) s = .next (settle s))) ∧
    (∃ t, exec .telIntervalEnd s = .next t ∧ t.mgmt.hist = [] ∧ t.regs = s.regs ∧
      ∀ item < 3, ∀ q ∈ [(0, 500), (1, 990), (2, 999)],
        let n := ((List.range 160).map fun b => sget 0 s.mgmt.hist (item * 160 + b)).sum
        sget 0 t.mgmt.tel ((0x0304 + item) * 65536 + q.1) =
          BitVec.ofNat 64 (if n = 0 then 0 else (bucketEdge (s.bucketOf item n q.2)).toNat)) ∧
    (∃ t, exec .subscriberPush s = .next t ∧ t.regs = s.regs ∧ t.mgmt.log = s.mgmt.log ∧
      ((∀ k < 4, sget none s.mgmt.subs k = none) → t.mgmt.sent = []) ∧
      ∀ k < 4, ∀ x, sget none s.mgmt.subs k = some x → s.linkOn x.port = true →
        ∀ e, (s.mgmt.log.filter fun e => decide (x.sent.toNat < e.eseq.toNat) && x.mask.toNat.testBit e.type.toNat) = [e] →
          .push k x.udp (evBytes e) ∈ t.mgmt.sent ∧
          let due : Prop := x.period.toNat * 1000000 ≤ (s.mod.time - x.told).toNat
          sget none t.mgmt.subs k = some { x with sent := e.eseq, told := if due then s.mod.time else x.told } ∧
          (x.items ≠ [] → (due → .push k x.udp (s.telBytes x.items) ∈ t.mgmt.sent) ∧
            (¬ due → ∀ o ∈ t.mgmt.sent, ∀ bs, o = .push k x.udp bs → bs = evBytes e))) ∧
    (let f := { s with mgmt := { s.mgmt with up := { s.mgmt.up with phase := 6, reason := 0x11 } } }
     let fl := (s.rf 0x300 0 4 = 3 ∨ s.rf 0x300 0 4 = 4) ∧ s.cfgState < 8 ∧ s.mod.inReset = false
     (¬ fl → 1 ≤ s.mgmt.up.phase.toNat → s.mgmt.up.phase.toNat ≤ 4 → exec .vaux18Fail s = .next (settle (f.event 0x0B 0 (6 + 256 * 0x11)))) ∧
     (¬ fl → s.mgmt.up.phase = 0 ∨ 4 < s.mgmt.up.phase.toNat → exec .vaux18Fail s = .next (settle s)) ∧
     (fl → s.mgmt.up.phase = 0 ∨ 4 < s.mgmt.up.phase.toNat → s.boot.loading = true →
       exec .vaux18Fail s = .next (settle (s.bootFail s.boot.image 0x11 s.boot.offset)))) ∧
    (∀ shift pins a bit,
      let on : Prop := s.pins.cfgDone = false ∨ s.pins.testkeep = true
      let test (u : State) (x : TestSt) : Host.Outcome State Fault Refusal := .next (settle { u with test := x })
      (on →
        (∀ x ∈ [(Instr.extest shift pins, (0x00 : Byte)), (.samplePreload shift pins, 0x02)], ∃ t, exec x.1 s = .next t ∧
          t.test = { s.test with instr := x.2, boundary := pins, driven := shift, tdo := none, tlr := false } ∧ t.regs = s.regs ∧
          ∀ i : BankId, t.bank i = { s.bank i with levels := BitVec.ofNat 24 (pins.toNat / 2 ^ (24 * (2 * i.p.val + i.j.val))) } ∧
            (x.2 = 0 → ∀ n : Fin 24, t.pinOut i n = .drive (shift.toNat.testBit (24 * (2 * i.p.val + i.j.val) + n.val)))) ∧
        exec .idcode s = test s { s.test with instr := 0x01, tdo := some 0x103849AF, tlr := false } ∧
        exec (.bypass bit) s = test s { s.test with instr := 0xFF, bypass := bit, tdo := some 0, tlr := false } ∧
        exec .trstNLow s = test s { s.test with instr := 0x01, tdo := none, tlr := true } ∧
        ∀ v u, s.csRead .testPort a = (v, u) → a < 2 ^ 40 → exec (.csread (BitVec.ofNat 40 a)) s =
          test u { u.test with instr := 0x40, capture := v, tdo := some v, tlr := false }) ∧
      (¬ on → ∀ row ∈ [Instr.extest shift pins, .samplePreload shift pins, .idcode, .bypass bit, .trstNLow, .csread (BitVec.ofNat 40 a)],
        exec row s = .next (settle s)))

/-! ### The machine -/

/-- A step takes the command at the front of the queue and gives `exec` of it with the rest; with nothing waiting a nanosecond of GLB_TIME
passes while the module is not in reset, which is the model's choice (assumption 3). -/
def Obligations.StepRunsTheFront : Prop :=
  (∀ (c : Instr) (rest : List Instr) (s : State), s.pending = c :: rest → step s = exec c { s with pending := rest }) ∧
  (∀ s : State, s.pending = [] → s.mgmt.queue ≠ [] → s.mod.inReset = false →
    step s = .next (settle (({ s with mod := { s.mod with time := s.mod.time + 1 } } : State).serveAll 1 []))) ∧
  (∀ s : State, s.pending = [] → s.mgmt.queue = [] ∨ s.mod.inReset = true → ∃ t, step s = .next t ∧ t.pending = [] ∧ t.regs = s.regs ∧ t.cores = s.cores ∧ t.hatches = s.hatches ∧
    t.mod.time = if s.mod.inReset then s.mod.time else s.mod.time + 1)

/-- R568, R601: after every step the interrupt lines with a level source and FAULT_N follow the state.
The model's own choices are in assumption 63. -/
def Obligations.OutputsFollowEveryStep : Prop := ∀ (s t : State), OutputsFollow s → step s = .next t → OutputsFollow t

/-- R568, R601, R626: the outputs follow the state after reset: no line is asserted and FAULT_N is high.
The model's own choices are in assumption 63. -/
def Obligations.OutputsFollowAtReset : Prop :=
  OutputsFollow State.reset ∧ State.reset.mod.lines = 0 ∧ State.reset.pins.faultN = true

/-- R446, R471: every well-formed command answers a next state, and no command is refused; the only stop is that of a command whose
operand is no parcel or line.
The model's own choices are in assumptions 5 and 102. -/
def Obligations.WellFormedCommandsComplete : Prop :=
  ∀ (c : Instr) (s : State), (c.wf = true → ∃ t, exec c s = .next t) ∧ (c.wf = false → exec c s = .fault .illFormed)
end

