-- ==== Sys2Proof/Laws/Memory.lean ====
section
/-! SUPPORT. The laws of the sparse tables: what a read gives after each operation, and that each operation keeps the canonical
form. -/
namespace Sys2Proof.Laws
open Sys2Proof.Machine

variable {α : Type}

/-! ### Reads after writes -/

@[simp] theorem sget_nil (d : α) (k : Nat) : sget d [] k = d := rfl

theorem sget_sput (d : α) (m : SMap α) (k j : Nat) (v : α) :
    sget d (sput m k v) j = if j = k then v else sget d m j := by
  induction m with
  | nil => simp [sput, sget]
  | cons e r ih =>
    obtain ⟨i, w⟩ := e
    simp only [sput]
    split
    · subst_vars; simp only [sget]; split <;> simp_all
    · split
      · simp only [sget]
      · simp only [sget, ih]; split
        · split <;> simp_all
        · rfl

theorem sget_sdel (d : α) (m : SMap α) (k j : Nat) :
    sget d (sdel m k) j = if j = k then d else sget d m j := by
  induction m with
  | nil => simp [sdel, sget]
  | cons e r ih =>
    obtain ⟨i, w⟩ := e
    simp only [sdel]
    split
    · subst_vars; simp only [ih, sget]; split <;> simp_all
    · simp only [sget, ih]; split
      · split <;> simp_all
      · rfl

/-- Reading a table after one entry is set. -/
theorem sget_sset [DecidableEq α] (d : α) (m : SMap α) (k j : Nat) (v : α) :
    sget d (sset d m k v) j = if j = k then v else sget d m j := by
  unfold sset
  split
  · subst_vars; exact sget_sdel _ m k j
  · exact sget_sput d m k j v

@[simp] theorem sget_sset_same [DecidableEq α] (d : α) (m : SMap α) (k : Nat) (v : α) :
    sget d (sset d m k v) k = v := by simp [sget_sset]

theorem sget_sset_ne [DecidableEq α] (d : α) (m : SMap α) {k j : Nat} (v : α) (h : j ≠ k) :
    sget d (sset d m k v) j = sget d m j := by simp [sget_sset, h]

/-- Reading an entry of another default: an entry that is set to the default of another key's table reads the same elsewhere. -/
theorem sget_sset_other [DecidableEq α] (d e : α) (m : SMap α) {k j : Nat} (v : α) (h : j ≠ k) :
    sget e (sset d m k v) j = sget e m j := by
  unfold sset
  split
  · simp [sget_sdel, h]
  · simp [sget_sput, h]

theorem sget_sclear (d : α) (m : SMap α) (lo n j : Nat) :
    sget d (sclear m lo n) j = if lo ≤ j ∧ j < lo + n then d else sget d m j := by
  induction m with
  | nil => simp [sclear]
  | cons e r ih =>
    obtain ⟨i, w⟩ := e
    unfold sclear at *
    rw [List.filter_cons]
    split
    · rename_i h
      simp only [Bool.or_eq_true, decide_eq_true_eq] at h
      simp only [sget, ih]
      split <;> split <;> first | rfl | omega
    · rename_i h
      simp only [Bool.or_eq_true, decide_eq_true_eq] at h
      simp only [sget, ih]
      split
      · rfl
      · split <;> first | rfl | omega

/-- A byte of memory after bytes are stored from `a`. -/
theorem sget_writeMem (m : SMap Byte) (a : Nat) (bs : List Byte) (j : Nat) :
    sget 0 (writeMem m a bs) j = if h : a ≤ j ∧ j < a + bs.length then bs[j - a]'(by omega) else sget 0 m j := by
  induction bs generalizing m a with
  | nil => simp only [writeMem, List.length_nil]; split <;> first | rfl | omega
  | cons b bs ih =>
    simp only [writeMem, ih, List.length_cons]
    split
    · split
      · rename_i h h'
        have e : j - a = (j - (a + 1)) + 1 := by omega
        simp [e]
      · omega
    · rw [sget_sset]
      split
      · split
        · subst_vars; simp
        · omega
      · split
        · omega
        · rfl

/-- What is stored is read back. -/
theorem readMem_writeMem (m : SMap Byte) (a : Nat) (bs : List Byte) : readMem (writeMem m a bs) a bs.length = bs := by
  unfold readMem
  apply List.ext_getElem
  · simp
  · intro i h _
    simp only [List.length_map, List.length_range] at h
    rw [List.getElem_map, List.getElem_range, sget_writeMem]
    simp [h]

/-- Bytes outside the stored range are unchanged. -/
theorem sget_writeMem_out (m : SMap Byte) (a : Nat) (bs : List Byte) (j : Nat) (h : j < a ∨ a + bs.length ≤ j) :
    sget 0 (writeMem m a bs) j = sget 0 m j := by
  rw [sget_writeMem]; split <;> first | rfl | omega

/-- Bytes read outside the stored range. -/
theorem readMem_writeMem_out (m : SMap Byte) (a : Nat) (bs : List Byte) (o n : Nat) (h : o + n ≤ a ∨ a + bs.length ≤ o) :
    readMem (writeMem m a bs) o n = readMem m o n := by
  unfold readMem
  refine List.map_congr_left fun i hi => sget_writeMem_out m a bs (o + i) ?_
  have := List.mem_range.mp hi
  omega

@[simp] theorem length_leBytes (n v : Nat) : (leBytes n v).length = n := by
  induction n generalizing v with
  | zero => rfl
  | succ n ih => simp [leBytes, ih]

/-- A number is its little-endian bytes (R6). -/
theorem leNat_leBytes (n v : Nat) : leNat (leBytes n v) = v % 256 ^ n := by
  induction n generalizing v with
  | zero => simp [leBytes, leNat, Nat.mod_one]
  | succ n ih =>
    have h : leNat (leBytes (n + 1) v) = v % 256 + 256 * leNat (leBytes n (v / 256)) := by simp [leBytes, leNat]
    rw [h, ih, Nat.pow_succ, Nat.mul_comm (256 ^ n), Nat.mod_mul]

/-! ### The canonical form -/

/-- The canonical form, said over the whole list: keys strictly rising, no entry at its default. -/
theorem canonical_iff [DecidableEq α] (d : Nat → α) (m : SMap α) :
    canonical d m = true ↔ m.Pairwise (fun x y => x.1 < y.1) ∧ ∀ e ∈ m, e.2 ≠ d e.1 := by
  induction m with
  | nil => simp [canonical]
  | cons e r ih =>
    obtain ⟨k, v⟩ := e
    cases r with
    | nil => simp [canonical]
    | cons f r =>
      obtain ⟨j, w⟩ := f
      simp only [canonical, Bool.and_eq_true, decide_eq_true_eq, ih, List.pairwise_cons, List.mem_cons, forall_eq_or_imp]
      constructor
      · rintro ⟨⟨h1, h2⟩, ⟨h3, h4⟩, h5, h6⟩
        exact ⟨⟨⟨h2, fun x hx => Nat.lt_trans h2 (h3 x hx)⟩, h3, h4⟩, h1, h5, h6⟩
      · rintro ⟨⟨⟨h2, _⟩, h3, h4⟩, h1, h5, h6⟩
        exact ⟨⟨h1, h2⟩, ⟨h3, h4⟩, h5, h6⟩

theorem mem_sdel {m : SMap α} {k : Nat} {e : Nat × α} (h : e ∈ sdel m k) : e ∈ m := by
  induction m with
  | nil => simp [sdel] at h
  | cons f r ih =>
    obtain ⟨j, w⟩ := f
    simp only [sdel] at h
    split at h
    · exact List.mem_cons_of_mem _ (ih h)
    · rcases List.mem_cons.mp h with rfl | h
      · exact List.mem_cons_self ..
      · exact List.mem_cons_of_mem _ (ih h)

theorem canonical_sdel [DecidableEq α] (d : Nat → α) {m : SMap α} (k : Nat) (h : canonical d m = true) :
    canonical d (sdel m k) = true := by
  rw [canonical_iff] at *
  refine ⟨?_, fun e he => h.2 e (mem_sdel he)⟩
  obtain ⟨h, -⟩ := h
  induction m with
  | nil => simp [sdel]
  | cons f r ih =>
    obtain ⟨j, w⟩ := f
    simp only [sdel]
    rw [List.pairwise_cons] at h
    split
    · exact ih h.2
    · rw [List.pairwise_cons]
      exact ⟨fun e he => h.1 e (mem_sdel he), ih h.2⟩

theorem mem_sput {m : SMap α} {k : Nat} {v : α} {e : Nat × α} (h : e ∈ sput m k v) : e = (k, v) ∨ e ∈ m := by
  induction m with
  | nil => simpa [sput] using h
  | cons f r ih =>
    obtain ⟨j, w⟩ := f
    simp only [sput] at h
    split at h
    · rcases List.mem_cons.mp h with rfl | h
      · exact .inl rfl
      · exact .inr (List.mem_cons_of_mem _ h)
    · split at h
      · rcases List.mem_cons.mp h with rfl | h
        · exact .inl rfl
        · exact .inr h
      · rcases List.mem_cons.mp h with rfl | h
        · exact .inr (List.mem_cons_self ..)
        · rcases ih h with h | h
          · exact .inl h
          · exact .inr (List.mem_cons_of_mem _ h)

theorem canonical_sput [DecidableEq α] (d : Nat → α) {m : SMap α} {k : Nat} {v : α} (hv : v ≠ d k)
    (h : canonical d m = true) : canonical d (sput m k v) = true := by
  rw [canonical_iff] at *
  refine ⟨?_, fun e he => ?_⟩
  · obtain ⟨h, -⟩ := h
    induction m with
    | nil => simp [sput]
    | cons f r ih =>
      obtain ⟨j, w⟩ := f
      simp only [sput]
      have hc := List.pairwise_cons.mp h
      split
      · subst_vars; rw [List.pairwise_cons]; exact hc
      · split
        · rename_i h1 h2
          rw [List.pairwise_cons]
          refine ⟨fun e he => ?_, h⟩
          rcases List.mem_cons.mp he with rfl | he
          · exact h2
          · exact Nat.lt_trans h2 (hc.1 e he)
        · rename_i h1 h2
          rw [List.pairwise_cons]
          refine ⟨fun e he => ?_, ih hc.2⟩
          rcases mem_sput he with rfl | he
          · show j < k; omega
          · exact hc.1 e he
  · rcases mem_sput he with rfl | he
    · exact hv
    · exact h.2 e he

/-- Setting an entry keeps the canonical form. -/
theorem canonical_sset [DecidableEq α] (d : Nat → α) {m : SMap α} {k : Nat} {v : α} (h : canonical d m = true) :
    canonical d (sset (d k) m k v) = true := by
  unfold sset
  split
  · exact canonical_sdel d k h
  · exact canonical_sput d (by assumption) h

/-- Removing entries keeps the canonical form. -/
theorem canonical_filter [DecidableEq α] (d : Nat → α) {m : SMap α} (p : Nat × α → Bool) (h : canonical d m = true) :
    canonical d (m.filter p) = true := by
  rw [canonical_iff] at *
  exact ⟨h.1.filter _, fun e he => h.2 e (List.mem_filter.mp he).1⟩

theorem canonical_sclear [DecidableEq α] (d : Nat → α) {m : SMap α} (lo n : Nat) (h : canonical d m = true) :
    canonical d (sclear m lo n) = true := canonical_filter d _ h

/-- Setting several entries keeps the canonical form. -/
theorem canonical_foldl [DecidableEq α] {β : Type} (d : α) (key : SMap α → β → Nat) (val : SMap α → β → α) (l : List β)
    {m : SMap α} (h : canonical (fun _ => d) m = true) :
    canonical (fun _ => d) (l.foldl (fun m x => sset d m (key m x) (val m x)) m) = true := by
  induction l generalizing m with
  | nil => exact h
  | cons x l ih => exact ih (canonical_sset (fun _ => d) h)

theorem memWf_sset {m : SMap Byte} {k : Nat} {v : Byte} (h : memWf m = true) : memWf (sset 0 m k v) = true :=
  canonical_sset (fun _ => 0) h

/-- Storing bytes keeps a memory's canonical form. -/
theorem memWf_writeMem {m : SMap Byte} {a : Nat} {bs : List Byte} (h : memWf m = true) : memWf (writeMem m a bs) = true := by
  induction bs generalizing m a with
  | nil => exact h
  | cons b bs ih => exact ih (memWf_sset h)

theorem memWf_filter {m : SMap Byte} {p : Nat × Byte → Bool} (h : memWf m = true) : memWf (m.filter p) = true :=
  canonical_filter _ p h

end Sys2Proof.Laws
end

