-- ==== Sys2Proof/Laws/Coding.lean ====
section
/-! SUPPORT. What sending blocks does to a port: its lanes, their scramblers and the lane whose turn comes next; nothing else. -/
namespace Sys2Proof.Laws
open Sys2Proof Sys2Proof.Machine

/-- A port but for its lanes, their scramblers and the lane whose turn comes next. -/
def SentOnly (p q : PortSt) : Prop := ∃ tx next prbs, q = { p with tx := tx, txNext := next, txPrbs := prbs }

theorem SentOnly.refl (p : PortSt) : SentOnly p p := ⟨p.tx, p.txNext, p.txPrbs, rfl⟩

theorem SentOnly.trans {p q r : PortSt} (h : SentOnly p q) (k : SentOnly q r) : SentOnly p r := by
  obtain ⟨_, _, _, rfl⟩ := h; obtain ⟨a, b, c, rfl⟩ := k; exact ⟨a, b, c, rfl⟩

theorem SentOnly.foldl {α : Type} (f : PortSt → α → PortSt) (hf : ∀ p a, SentOnly p (f p a)) (l : List α) (p : PortSt) :
    SentOnly p (l.foldl f p) := by
  induction l generalizing p with
  | nil => exact .refl p
  | cons a l ih => exact (hf p a).trans (ih (f p a))

/-- A block on a lane (R427). -/
theorem sendLane_only (p : PortSt) (l hdr : Nat) (pay : BitVec 256) : SentOnly p (p.sendLane l hdr pay) := by
  unfold PortSt.sendLane
  generalize prbsBits 256 _ = w
  exact ⟨_, _, _, rfl⟩

/-- A block on the next lane (R423). -/
theorem sendStream_only (p : PortSt) (hdr : Nat) (pay : BitVec 256) : SentOnly p (p.sendStream hdr pay) :=
  (sendLane_only p _ hdr pay).trans ⟨_, _, _, rfl⟩

/-- What a command sends leaves in its blocks (R437). -/
theorem coded_only (p : PortSt) : SentOnly p p.coded := by
  have h : SentOnly p p.quiet := ⟨_, _, _, rfl⟩
  refine h.trans (.foldl _ (fun p b => ?_) _ _)
  split
  · exact sendStream_only _ _ _
  · exact .foldl _ (fun p n => sendStream_only _ _ _) _ _

/-- The fill up to a marker row (R434). -/
theorem fillLane_only (l n : Nat) (p : PortSt) : SentOnly p (PortSt.fillLane l n p) := by
  induction n generalizing p with
  | zero => exact .refl p
  | succ n ih =>
    unfold PortSt.fillLane
    split
    · exact (sendLane_only _ _ _ _).trans (ih _)
    · exact .refl p

end Sys2Proof.Laws
end

