-- ==== Sys2Proof/Laws/State.lean ====
section
/-! SUPPORT. What each update of the state leaves as it was, field by field. -/
namespace Sys2Proof.Machine

/-! #### settle -/

@[simp] theorem settle_pending (s : State) : (settle s).pending = s.pending := rfl
@[simp] theorem settle_freeCtr (s : State) : (settle s).freeCtr = s.freeCtr := rfl
@[simp] theorem settle_regs (s : State) : (settle s).regs = s.regs := rfl
@[simp] theorem settle_crossing (s : State) : (settle s).crossing = s.crossing := rfl
@[simp] theorem settle_cores (s : State) : (settle s).cores = s.cores := rfl
@[simp] theorem settle_hatches (s : State) : (settle s).hatches = s.hatches := rfl
@[simp] theorem settle_plates (s : State) : (settle s).plates = s.plates := rfl
@[simp] theorem settle_drams (s : State) : (settle s).drams = s.drams := rfl
@[simp] theorem settle_routers (s : State) : (settle s).routers = s.routers := rfl
@[simp] theorem settle_inbox (s : State) : (settle s).inbox = s.inbox := rfl
@[simp] theorem settle_ports (s : State) : (settle s).ports = s.ports := rfl
@[simp] theorem settle_regions (s : State) : (settle s).regions = s.regions := rfl
@[simp] theorem settle_banks (s : State) : (settle s).banks = s.banks := rfl
@[simp] theorem settle_engine (s : State) : (settle s).engine = s.engine := rfl
@[simp] theorem settle_pair (s : State) : (settle s).pair = s.pair := rfl
@[simp] theorem settle_gfc (s : State) : (settle s).gfc = s.gfc := rfl
@[simp] theorem settle_mgmt (s : State) : (settle s).mgmt = s.mgmt := rfl
@[simp] theorem settle_boot (s : State) : (settle s).boot = s.boot := rfl
@[simp] theorem settle_test (s : State) : (settle s).test = s.test := rfl
@[simp] theorem settle_nv (s : State) : (settle s).nv = s.nv := rfl

/-! #### State.setReg -/

@[simp] theorem State.setReg_pending (s : State) (a : Nat) (v : Word) : (s.setReg a v).pending = s.pending := rfl
@[simp] theorem State.setReg_freeCtr (s : State) (a : Nat) (v : Word) : (s.setReg a v).freeCtr = s.freeCtr := rfl
@[simp] theorem State.setReg_crossing (s : State) (a : Nat) (v : Word) : (s.setReg a v).crossing = s.crossing := rfl
@[simp] theorem State.setReg_cores (s : State) (a : Nat) (v : Word) : (s.setReg a v).cores = s.cores := rfl
@[simp] theorem State.setReg_hatches (s : State) (a : Nat) (v : Word) : (s.setReg a v).hatches = s.hatches := rfl
@[simp] theorem State.setReg_plates (s : State) (a : Nat) (v : Word) : (s.setReg a v).plates = s.plates := rfl
@[simp] theorem State.setReg_drams (s : State) (a : Nat) (v : Word) : (s.setReg a v).drams = s.drams := rfl
@[simp] theorem State.setReg_routers (s : State) (a : Nat) (v : Word) : (s.setReg a v).routers = s.routers := rfl
@[simp] theorem State.setReg_inbox (s : State) (a : Nat) (v : Word) : (s.setReg a v).inbox = s.inbox := rfl
@[simp] theorem State.setReg_ports (s : State) (a : Nat) (v : Word) : (s.setReg a v).ports = s.ports := rfl
@[simp] theorem State.setReg_regions (s : State) (a : Nat) (v : Word) : (s.setReg a v).regions = s.regions := rfl
@[simp] theorem State.setReg_banks (s : State) (a : Nat) (v : Word) : (s.setReg a v).banks = s.banks := rfl
@[simp] theorem State.setReg_engine (s : State) (a : Nat) (v : Word) : (s.setReg a v).engine = s.engine := rfl
@[simp] theorem State.setReg_pair (s : State) (a : Nat) (v : Word) : (s.setReg a v).pair = s.pair := rfl
@[simp] theorem State.setReg_gfc (s : State) (a : Nat) (v : Word) : (s.setReg a v).gfc = s.gfc := rfl
@[simp] theorem State.setReg_mgmt (s : State) (a : Nat) (v : Word) : (s.setReg a v).mgmt = s.mgmt := rfl
@[simp] theorem State.setReg_boot (s : State) (a : Nat) (v : Word) : (s.setReg a v).boot = s.boot := rfl
@[simp] theorem State.setReg_pins (s : State) (a : Nat) (v : Word) : (s.setReg a v).pins = s.pins := rfl
@[simp] theorem State.setReg_test (s : State) (a : Nat) (v : Word) : (s.setReg a v).test = s.test := rfl
@[simp] theorem State.setReg_nv (s : State) (a : Nat) (v : Word) : (s.setReg a v).nv = s.nv := rfl
@[simp] theorem State.setReg_mod (s : State) (a : Nat) (v : Word) : (s.setReg a v).mod = s.mod := rfl

/-! #### State.setCore -/

@[simp] theorem State.setCore_pending (s : State) (i : CoreId) (x : CoreSt) : (s.setCore i x).pending = s.pending := rfl
@[simp] theorem State.setCore_freeCtr (s : State) (i : CoreId) (x : CoreSt) : (s.setCore i x).freeCtr = s.freeCtr := rfl
@[simp] theorem State.setCore_regs (s : State) (i : CoreId) (x : CoreSt) : (s.setCore i x).regs = s.regs := rfl
@[simp] theorem State.setCore_crossing (s : State) (i : CoreId) (x : CoreSt) : (s.setCore i x).crossing = s.crossing := rfl
@[simp] theorem State.setCore_hatches (s : State) (i : CoreId) (x : CoreSt) : (s.setCore i x).hatches = s.hatches := rfl
@[simp] theorem State.setCore_plates (s : State) (i : CoreId) (x : CoreSt) : (s.setCore i x).plates = s.plates := rfl
@[simp] theorem State.setCore_drams (s : State) (i : CoreId) (x : CoreSt) : (s.setCore i x).drams = s.drams := rfl
@[simp] theorem State.setCore_routers (s : State) (i : CoreId) (x : CoreSt) : (s.setCore i x).routers = s.routers := rfl
@[simp] theorem State.setCore_inbox (s : State) (i : CoreId) (x : CoreSt) : (s.setCore i x).inbox = s.inbox := rfl
@[simp] theorem State.setCore_ports (s : State) (i : CoreId) (x : CoreSt) : (s.setCore i x).ports = s.ports := rfl
@[simp] theorem State.setCore_regions (s : State) (i : CoreId) (x : CoreSt) : (s.setCore i x).regions = s.regions := rfl
@[simp] theorem State.setCore_banks (s : State) (i : CoreId) (x : CoreSt) : (s.setCore i x).banks = s.banks := rfl
@[simp] theorem State.setCore_engine (s : State) (i : CoreId) (x : CoreSt) : (s.setCore i x).engine = s.engine := rfl
@[simp] theorem State.setCore_pair (s : State) (i : CoreId) (x : CoreSt) : (s.setCore i x).pair = s.pair := rfl
@[simp] theorem State.setCore_gfc (s : State) (i : CoreId) (x : CoreSt) : (s.setCore i x).gfc = s.gfc := rfl
@[simp] theorem State.setCore_mgmt (s : State) (i : CoreId) (x : CoreSt) : (s.setCore i x).mgmt = s.mgmt := rfl
@[simp] theorem State.setCore_boot (s : State) (i : CoreId) (x : CoreSt) : (s.setCore i x).boot = s.boot := rfl
@[simp] theorem State.setCore_pins (s : State) (i : CoreId) (x : CoreSt) : (s.setCore i x).pins = s.pins := rfl
@[simp] theorem State.setCore_test (s : State) (i : CoreId) (x : CoreSt) : (s.setCore i x).test = s.test := rfl
@[simp] theorem State.setCore_nv (s : State) (i : CoreId) (x : CoreSt) : (s.setCore i x).nv = s.nv := rfl
@[simp] theorem State.setCore_mod (s : State) (i : CoreId) (x : CoreSt) : (s.setCore i x).mod = s.mod := rfl

/-! #### State.modCore -/

@[simp] theorem State.modCore_pending (s : State) (i : CoreId) (g : CoreSt → CoreSt) : (s.modCore i g).pending = s.pending := rfl
@[simp] theorem State.modCore_freeCtr (s : State) (i : CoreId) (g : CoreSt → CoreSt) : (s.modCore i g).freeCtr = s.freeCtr := rfl
@[simp] theorem State.modCore_regs (s : State) (i : CoreId) (g : CoreSt → CoreSt) : (s.modCore i g).regs = s.regs := rfl
@[simp] theorem State.modCore_crossing (s : State) (i : CoreId) (g : CoreSt → CoreSt) : (s.modCore i g).crossing = s.crossing := rfl
@[simp] theorem State.modCore_hatches (s : State) (i : CoreId) (g : CoreSt → CoreSt) : (s.modCore i g).hatches = s.hatches := rfl
@[simp] theorem State.modCore_plates (s : State) (i : CoreId) (g : CoreSt → CoreSt) : (s.modCore i g).plates = s.plates := rfl
@[simp] theorem State.modCore_drams (s : State) (i : CoreId) (g : CoreSt → CoreSt) : (s.modCore i g).drams = s.drams := rfl
@[simp] theorem State.modCore_routers (s : State) (i : CoreId) (g : CoreSt → CoreSt) : (s.modCore i g).routers = s.routers := rfl
@[simp] theorem State.modCore_inbox (s : State) (i : CoreId) (g : CoreSt → CoreSt) : (s.modCore i g).inbox = s.inbox := rfl
@[simp] theorem State.modCore_ports (s : State) (i : CoreId) (g : CoreSt → CoreSt) : (s.modCore i g).ports = s.ports := rfl
@[simp] theorem State.modCore_regions (s : State) (i : CoreId) (g : CoreSt → CoreSt) : (s.modCore i g).regions = s.regions := rfl
@[simp] theorem State.modCore_banks (s : State) (i : CoreId) (g : CoreSt → CoreSt) : (s.modCore i g).banks = s.banks := rfl
@[simp] theorem State.modCore_engine (s : State) (i : CoreId) (g : CoreSt → CoreSt) : (s.modCore i g).engine = s.engine := rfl
@[simp] theorem State.modCore_pair (s : State) (i : CoreId) (g : CoreSt → CoreSt) : (s.modCore i g).pair = s.pair := rfl
@[simp] theorem State.modCore_gfc (s : State) (i : CoreId) (g : CoreSt → CoreSt) : (s.modCore i g).gfc = s.gfc := rfl
@[simp] theorem State.modCore_mgmt (s : State) (i : CoreId) (g : CoreSt → CoreSt) : (s.modCore i g).mgmt = s.mgmt := rfl
@[simp] theorem State.modCore_boot (s : State) (i : CoreId) (g : CoreSt → CoreSt) : (s.modCore i g).boot = s.boot := rfl
@[simp] theorem State.modCore_pins (s : State) (i : CoreId) (g : CoreSt → CoreSt) : (s.modCore i g).pins = s.pins := rfl
@[simp] theorem State.modCore_test (s : State) (i : CoreId) (g : CoreSt → CoreSt) : (s.modCore i g).test = s.test := rfl
@[simp] theorem State.modCore_nv (s : State) (i : CoreId) (g : CoreSt → CoreSt) : (s.modCore i g).nv = s.nv := rfl
@[simp] theorem State.modCore_mod (s : State) (i : CoreId) (g : CoreSt → CoreSt) : (s.modCore i g).mod = s.mod := rfl

/-! #### State.setHatch -/

@[simp] theorem State.setHatch_pending (s : State) (i : HatchId) (x : HatchSt) : (s.setHatch i x).pending = s.pending := rfl
@[simp] theorem State.setHatch_freeCtr (s : State) (i : HatchId) (x : HatchSt) : (s.setHatch i x).freeCtr = s.freeCtr := rfl
@[simp] theorem State.setHatch_regs (s : State) (i : HatchId) (x : HatchSt) : (s.setHatch i x).regs = s.regs := rfl
@[simp] theorem State.setHatch_crossing (s : State) (i : HatchId) (x : HatchSt) : (s.setHatch i x).crossing = s.crossing := rfl
@[simp] theorem State.setHatch_cores (s : State) (i : HatchId) (x : HatchSt) : (s.setHatch i x).cores = s.cores := rfl
@[simp] theorem State.setHatch_plates (s : State) (i : HatchId) (x : HatchSt) : (s.setHatch i x).plates = s.plates := rfl
@[simp] theorem State.setHatch_drams (s : State) (i : HatchId) (x : HatchSt) : (s.setHatch i x).drams = s.drams := rfl
@[simp] theorem State.setHatch_routers (s : State) (i : HatchId) (x : HatchSt) : (s.setHatch i x).routers = s.routers := rfl
@[simp] theorem State.setHatch_inbox (s : State) (i : HatchId) (x : HatchSt) : (s.setHatch i x).inbox = s.inbox := rfl
@[simp] theorem State.setHatch_ports (s : State) (i : HatchId) (x : HatchSt) : (s.setHatch i x).ports = s.ports := rfl
@[simp] theorem State.setHatch_regions (s : State) (i : HatchId) (x : HatchSt) : (s.setHatch i x).regions = s.regions := rfl
@[simp] theorem State.setHatch_banks (s : State) (i : HatchId) (x : HatchSt) : (s.setHatch i x).banks = s.banks := rfl
@[simp] theorem State.setHatch_engine (s : State) (i : HatchId) (x : HatchSt) : (s.setHatch i x).engine = s.engine := rfl
@[simp] theorem State.setHatch_pair (s : State) (i : HatchId) (x : HatchSt) : (s.setHatch i x).pair = s.pair := rfl
@[simp] theorem State.setHatch_gfc (s : State) (i : HatchId) (x : HatchSt) : (s.setHatch i x).gfc = s.gfc := rfl
@[simp] theorem State.setHatch_mgmt (s : State) (i : HatchId) (x : HatchSt) : (s.setHatch i x).mgmt = s.mgmt := rfl
@[simp] theorem State.setHatch_boot (s : State) (i : HatchId) (x : HatchSt) : (s.setHatch i x).boot = s.boot := rfl
@[simp] theorem State.setHatch_pins (s : State) (i : HatchId) (x : HatchSt) : (s.setHatch i x).pins = s.pins := rfl
@[simp] theorem State.setHatch_test (s : State) (i : HatchId) (x : HatchSt) : (s.setHatch i x).test = s.test := rfl
@[simp] theorem State.setHatch_nv (s : State) (i : HatchId) (x : HatchSt) : (s.setHatch i x).nv = s.nv := rfl
@[simp] theorem State.setHatch_mod (s : State) (i : HatchId) (x : HatchSt) : (s.setHatch i x).mod = s.mod := rfl

/-! #### State.modHatch -/

@[simp] theorem State.modHatch_pending (s : State) (i : HatchId) (g : HatchSt → HatchSt) : (s.modHatch i g).pending = s.pending := rfl
@[simp] theorem State.modHatch_freeCtr (s : State) (i : HatchId) (g : HatchSt → HatchSt) : (s.modHatch i g).freeCtr = s.freeCtr := rfl
@[simp] theorem State.modHatch_regs (s : State) (i : HatchId) (g : HatchSt → HatchSt) : (s.modHatch i g).regs = s.regs := rfl
@[simp] theorem State.modHatch_crossing (s : State) (i : HatchId) (g : HatchSt → HatchSt) : (s.modHatch i g).crossing = s.crossing := rfl
@[simp] theorem State.modHatch_cores (s : State) (i : HatchId) (g : HatchSt → HatchSt) : (s.modHatch i g).cores = s.cores := rfl
@[simp] theorem State.modHatch_plates (s : State) (i : HatchId) (g : HatchSt → HatchSt) : (s.modHatch i g).plates = s.plates := rfl
@[simp] theorem State.modHatch_drams (s : State) (i : HatchId) (g : HatchSt → HatchSt) : (s.modHatch i g).drams = s.drams := rfl
@[simp] theorem State.modHatch_routers (s : State) (i : HatchId) (g : HatchSt → HatchSt) : (s.modHatch i g).routers = s.routers := rfl
@[simp] theorem State.modHatch_inbox (s : State) (i : HatchId) (g : HatchSt → HatchSt) : (s.modHatch i g).inbox = s.inbox := rfl
@[simp] theorem State.modHatch_ports (s : State) (i : HatchId) (g : HatchSt → HatchSt) : (s.modHatch i g).ports = s.ports := rfl
@[simp] theorem State.modHatch_regions (s : State) (i : HatchId) (g : HatchSt → HatchSt) : (s.modHatch i g).regions = s.regions := rfl
@[simp] theorem State.modHatch_banks (s : State) (i : HatchId) (g : HatchSt → HatchSt) : (s.modHatch i g).banks = s.banks := rfl
@[simp] theorem State.modHatch_engine (s : State) (i : HatchId) (g : HatchSt → HatchSt) : (s.modHatch i g).engine = s.engine := rfl
@[simp] theorem State.modHatch_pair (s : State) (i : HatchId) (g : HatchSt → HatchSt) : (s.modHatch i g).pair = s.pair := rfl
@[simp] theorem State.modHatch_gfc (s : State) (i : HatchId) (g : HatchSt → HatchSt) : (s.modHatch i g).gfc = s.gfc := rfl
@[simp] theorem State.modHatch_mgmt (s : State) (i : HatchId) (g : HatchSt → HatchSt) : (s.modHatch i g).mgmt = s.mgmt := rfl
@[simp] theorem State.modHatch_boot (s : State) (i : HatchId) (g : HatchSt → HatchSt) : (s.modHatch i g).boot = s.boot := rfl
@[simp] theorem State.modHatch_pins (s : State) (i : HatchId) (g : HatchSt → HatchSt) : (s.modHatch i g).pins = s.pins := rfl
@[simp] theorem State.modHatch_test (s : State) (i : HatchId) (g : HatchSt → HatchSt) : (s.modHatch i g).test = s.test := rfl
@[simp] theorem State.modHatch_nv (s : State) (i : HatchId) (g : HatchSt → HatchSt) : (s.modHatch i g).nv = s.nv := rfl
@[simp] theorem State.modHatch_mod (s : State) (i : HatchId) (g : HatchSt → HatchSt) : (s.modHatch i g).mod = s.mod := rfl

/-! #### State.setPlate -/

@[simp] theorem State.setPlate_pending (s : State) (i : Fin 8) (x : PlateSt) : (s.setPlate i x).pending = s.pending := rfl
@[simp] theorem State.setPlate_freeCtr (s : State) (i : Fin 8) (x : PlateSt) : (s.setPlate i x).freeCtr = s.freeCtr := rfl
@[simp] theorem State.setPlate_regs (s : State) (i : Fin 8) (x : PlateSt) : (s.setPlate i x).regs = s.regs := rfl
@[simp] theorem State.setPlate_crossing (s : State) (i : Fin 8) (x : PlateSt) : (s.setPlate i x).crossing = s.crossing := rfl
@[simp] theorem State.setPlate_cores (s : State) (i : Fin 8) (x : PlateSt) : (s.setPlate i x).cores = s.cores := rfl
@[simp] theorem State.setPlate_hatches (s : State) (i : Fin 8) (x : PlateSt) : (s.setPlate i x).hatches = s.hatches := rfl
@[simp] theorem State.setPlate_drams (s : State) (i : Fin 8) (x : PlateSt) : (s.setPlate i x).drams = s.drams := rfl
@[simp] theorem State.setPlate_routers (s : State) (i : Fin 8) (x : PlateSt) : (s.setPlate i x).routers = s.routers := rfl
@[simp] theorem State.setPlate_inbox (s : State) (i : Fin 8) (x : PlateSt) : (s.setPlate i x).inbox = s.inbox := rfl
@[simp] theorem State.setPlate_ports (s : State) (i : Fin 8) (x : PlateSt) : (s.setPlate i x).ports = s.ports := rfl
@[simp] theorem State.setPlate_regions (s : State) (i : Fin 8) (x : PlateSt) : (s.setPlate i x).regions = s.regions := rfl
@[simp] theorem State.setPlate_banks (s : State) (i : Fin 8) (x : PlateSt) : (s.setPlate i x).banks = s.banks := rfl
@[simp] theorem State.setPlate_engine (s : State) (i : Fin 8) (x : PlateSt) : (s.setPlate i x).engine = s.engine := rfl
@[simp] theorem State.setPlate_pair (s : State) (i : Fin 8) (x : PlateSt) : (s.setPlate i x).pair = s.pair := rfl
@[simp] theorem State.setPlate_gfc (s : State) (i : Fin 8) (x : PlateSt) : (s.setPlate i x).gfc = s.gfc := rfl
@[simp] theorem State.setPlate_mgmt (s : State) (i : Fin 8) (x : PlateSt) : (s.setPlate i x).mgmt = s.mgmt := rfl
@[simp] theorem State.setPlate_boot (s : State) (i : Fin 8) (x : PlateSt) : (s.setPlate i x).boot = s.boot := rfl
@[simp] theorem State.setPlate_pins (s : State) (i : Fin 8) (x : PlateSt) : (s.setPlate i x).pins = s.pins := rfl
@[simp] theorem State.setPlate_test (s : State) (i : Fin 8) (x : PlateSt) : (s.setPlate i x).test = s.test := rfl
@[simp] theorem State.setPlate_nv (s : State) (i : Fin 8) (x : PlateSt) : (s.setPlate i x).nv = s.nv := rfl
@[simp] theorem State.setPlate_mod (s : State) (i : Fin 8) (x : PlateSt) : (s.setPlate i x).mod = s.mod := rfl

/-! #### State.modPlate -/

@[simp] theorem State.modPlate_pending (s : State) (i : Fin 8) (g : PlateSt → PlateSt) : (s.modPlate i g).pending = s.pending := rfl
@[simp] theorem State.modPlate_freeCtr (s : State) (i : Fin 8) (g : PlateSt → PlateSt) : (s.modPlate i g).freeCtr = s.freeCtr := rfl
@[simp] theorem State.modPlate_regs (s : State) (i : Fin 8) (g : PlateSt → PlateSt) : (s.modPlate i g).regs = s.regs := rfl
@[simp] theorem State.modPlate_crossing (s : State) (i : Fin 8) (g : PlateSt → PlateSt) : (s.modPlate i g).crossing = s.crossing := rfl
@[simp] theorem State.modPlate_cores (s : State) (i : Fin 8) (g : PlateSt → PlateSt) : (s.modPlate i g).cores = s.cores := rfl
@[simp] theorem State.modPlate_hatches (s : State) (i : Fin 8) (g : PlateSt → PlateSt) : (s.modPlate i g).hatches = s.hatches := rfl
@[simp] theorem State.modPlate_drams (s : State) (i : Fin 8) (g : PlateSt → PlateSt) : (s.modPlate i g).drams = s.drams := rfl
@[simp] theorem State.modPlate_routers (s : State) (i : Fin 8) (g : PlateSt → PlateSt) : (s.modPlate i g).routers = s.routers := rfl
@[simp] theorem State.modPlate_inbox (s : State) (i : Fin 8) (g : PlateSt → PlateSt) : (s.modPlate i g).inbox = s.inbox := rfl
@[simp] theorem State.modPlate_ports (s : State) (i : Fin 8) (g : PlateSt → PlateSt) : (s.modPlate i g).ports = s.ports := rfl
@[simp] theorem State.modPlate_regions (s : State) (i : Fin 8) (g : PlateSt → PlateSt) : (s.modPlate i g).regions = s.regions := rfl
@[simp] theorem State.modPlate_banks (s : State) (i : Fin 8) (g : PlateSt → PlateSt) : (s.modPlate i g).banks = s.banks := rfl
@[simp] theorem State.modPlate_engine (s : State) (i : Fin 8) (g : PlateSt → PlateSt) : (s.modPlate i g).engine = s.engine := rfl
@[simp] theorem State.modPlate_pair (s : State) (i : Fin 8) (g : PlateSt → PlateSt) : (s.modPlate i g).pair = s.pair := rfl
@[simp] theorem State.modPlate_gfc (s : State) (i : Fin 8) (g : PlateSt → PlateSt) : (s.modPlate i g).gfc = s.gfc := rfl
@[simp] theorem State.modPlate_mgmt (s : State) (i : Fin 8) (g : PlateSt → PlateSt) : (s.modPlate i g).mgmt = s.mgmt := rfl
@[simp] theorem State.modPlate_boot (s : State) (i : Fin 8) (g : PlateSt → PlateSt) : (s.modPlate i g).boot = s.boot := rfl
@[simp] theorem State.modPlate_pins (s : State) (i : Fin 8) (g : PlateSt → PlateSt) : (s.modPlate i g).pins = s.pins := rfl
@[simp] theorem State.modPlate_test (s : State) (i : Fin 8) (g : PlateSt → PlateSt) : (s.modPlate i g).test = s.test := rfl
@[simp] theorem State.modPlate_nv (s : State) (i : Fin 8) (g : PlateSt → PlateSt) : (s.modPlate i g).nv = s.nv := rfl
@[simp] theorem State.modPlate_mod (s : State) (i : Fin 8) (g : PlateSt → PlateSt) : (s.modPlate i g).mod = s.mod := rfl

/-! #### State.setStack -/

@[simp] theorem State.setStack_pending (s : State) (i : StackId) (x : StackSt) : (s.setStack i x).pending = s.pending := rfl
@[simp] theorem State.setStack_freeCtr (s : State) (i : StackId) (x : StackSt) : (s.setStack i x).freeCtr = s.freeCtr := rfl
@[simp] theorem State.setStack_regs (s : State) (i : StackId) (x : StackSt) : (s.setStack i x).regs = s.regs := rfl
@[simp] theorem State.setStack_crossing (s : State) (i : StackId) (x : StackSt) : (s.setStack i x).crossing = s.crossing := rfl
@[simp] theorem State.setStack_cores (s : State) (i : StackId) (x : StackSt) : (s.setStack i x).cores = s.cores := rfl
@[simp] theorem State.setStack_hatches (s : State) (i : StackId) (x : StackSt) : (s.setStack i x).hatches = s.hatches := rfl
@[simp] theorem State.setStack_plates (s : State) (i : StackId) (x : StackSt) : (s.setStack i x).plates = s.plates := rfl
@[simp] theorem State.setStack_routers (s : State) (i : StackId) (x : StackSt) : (s.setStack i x).routers = s.routers := rfl
@[simp] theorem State.setStack_inbox (s : State) (i : StackId) (x : StackSt) : (s.setStack i x).inbox = s.inbox := rfl
@[simp] theorem State.setStack_ports (s : State) (i : StackId) (x : StackSt) : (s.setStack i x).ports = s.ports := rfl
@[simp] theorem State.setStack_regions (s : State) (i : StackId) (x : StackSt) : (s.setStack i x).regions = s.regions := rfl
@[simp] theorem State.setStack_banks (s : State) (i : StackId) (x : StackSt) : (s.setStack i x).banks = s.banks := rfl
@[simp] theorem State.setStack_engine (s : State) (i : StackId) (x : StackSt) : (s.setStack i x).engine = s.engine := rfl
@[simp] theorem State.setStack_pair (s : State) (i : StackId) (x : StackSt) : (s.setStack i x).pair = s.pair := rfl
@[simp] theorem State.setStack_gfc (s : State) (i : StackId) (x : StackSt) : (s.setStack i x).gfc = s.gfc := rfl
@[simp] theorem State.setStack_mgmt (s : State) (i : StackId) (x : StackSt) : (s.setStack i x).mgmt = s.mgmt := rfl
@[simp] theorem State.setStack_boot (s : State) (i : StackId) (x : StackSt) : (s.setStack i x).boot = s.boot := rfl
@[simp] theorem State.setStack_pins (s : State) (i : StackId) (x : StackSt) : (s.setStack i x).pins = s.pins := rfl
@[simp] theorem State.setStack_test (s : State) (i : StackId) (x : StackSt) : (s.setStack i x).test = s.test := rfl
@[simp] theorem State.setStack_nv (s : State) (i : StackId) (x : StackSt) : (s.setStack i x).nv = s.nv := rfl
@[simp] theorem State.setStack_mod (s : State) (i : StackId) (x : StackSt) : (s.setStack i x).mod = s.mod := rfl

/-! #### State.modStack -/

@[simp] theorem State.modStack_pending (s : State) (i : StackId) (g : StackSt → StackSt) : (s.modStack i g).pending = s.pending := rfl
@[simp] theorem State.modStack_freeCtr (s : State) (i : StackId) (g : StackSt → StackSt) : (s.modStack i g).freeCtr = s.freeCtr := rfl
@[simp] theorem State.modStack_regs (s : State) (i : StackId) (g : StackSt → StackSt) : (s.modStack i g).regs = s.regs := rfl
@[simp] theorem State.modStack_crossing (s : State) (i : StackId) (g : StackSt → StackSt) : (s.modStack i g).crossing = s.crossing := rfl
@[simp] theorem State.modStack_cores (s : State) (i : StackId) (g : StackSt → StackSt) : (s.modStack i g).cores = s.cores := rfl
@[simp] theorem State.modStack_hatches (s : State) (i : StackId) (g : StackSt → StackSt) : (s.modStack i g).hatches = s.hatches := rfl
@[simp] theorem State.modStack_plates (s : State) (i : StackId) (g : StackSt → StackSt) : (s.modStack i g).plates = s.plates := rfl
@[simp] theorem State.modStack_routers (s : State) (i : StackId) (g : StackSt → StackSt) : (s.modStack i g).routers = s.routers := rfl
@[simp] theorem State.modStack_inbox (s : State) (i : StackId) (g : StackSt → StackSt) : (s.modStack i g).inbox = s.inbox := rfl
@[simp] theorem State.modStack_ports (s : State) (i : StackId) (g : StackSt → StackSt) : (s.modStack i g).ports = s.ports := rfl
@[simp] theorem State.modStack_regions (s : State) (i : StackId) (g : StackSt → StackSt) : (s.modStack i g).regions = s.regions := rfl
@[simp] theorem State.modStack_banks (s : State) (i : StackId) (g : StackSt → StackSt) : (s.modStack i g).banks = s.banks := rfl
@[simp] theorem State.modStack_engine (s : State) (i : StackId) (g : StackSt → StackSt) : (s.modStack i g).engine = s.engine := rfl
@[simp] theorem State.modStack_pair (s : State) (i : StackId) (g : StackSt → StackSt) : (s.modStack i g).pair = s.pair := rfl
@[simp] theorem State.modStack_gfc (s : State) (i : StackId) (g : StackSt → StackSt) : (s.modStack i g).gfc = s.gfc := rfl
@[simp] theorem State.modStack_mgmt (s : State) (i : StackId) (g : StackSt → StackSt) : (s.modStack i g).mgmt = s.mgmt := rfl
@[simp] theorem State.modStack_boot (s : State) (i : StackId) (g : StackSt → StackSt) : (s.modStack i g).boot = s.boot := rfl
@[simp] theorem State.modStack_pins (s : State) (i : StackId) (g : StackSt → StackSt) : (s.modStack i g).pins = s.pins := rfl
@[simp] theorem State.modStack_test (s : State) (i : StackId) (g : StackSt → StackSt) : (s.modStack i g).test = s.test := rfl
@[simp] theorem State.modStack_nv (s : State) (i : StackId) (g : StackSt → StackSt) : (s.modStack i g).nv = s.nv := rfl
@[simp] theorem State.modStack_mod (s : State) (i : StackId) (g : StackSt → StackSt) : (s.modStack i g).mod = s.mod := rfl

/-! #### State.setRouter -/

@[simp] theorem State.setRouter_pending (s : State) (i : RouterId) (x : RouterSt) : (s.setRouter i x).pending = s.pending := rfl
@[simp] theorem State.setRouter_freeCtr (s : State) (i : RouterId) (x : RouterSt) : (s.setRouter i x).freeCtr = s.freeCtr := rfl
@[simp] theorem State.setRouter_regs (s : State) (i : RouterId) (x : RouterSt) : (s.setRouter i x).regs = s.regs := rfl
@[simp] theorem State.setRouter_crossing (s : State) (i : RouterId) (x : RouterSt) : (s.setRouter i x).crossing = s.crossing := rfl
@[simp] theorem State.setRouter_cores (s : State) (i : RouterId) (x : RouterSt) : (s.setRouter i x).cores = s.cores := rfl
@[simp] theorem State.setRouter_hatches (s : State) (i : RouterId) (x : RouterSt) : (s.setRouter i x).hatches = s.hatches := rfl
@[simp] theorem State.setRouter_plates (s : State) (i : RouterId) (x : RouterSt) : (s.setRouter i x).plates = s.plates := rfl
@[simp] theorem State.setRouter_drams (s : State) (i : RouterId) (x : RouterSt) : (s.setRouter i x).drams = s.drams := rfl
@[simp] theorem State.setRouter_inbox (s : State) (i : RouterId) (x : RouterSt) : (s.setRouter i x).inbox = s.inbox := rfl
@[simp] theorem State.setRouter_ports (s : State) (i : RouterId) (x : RouterSt) : (s.setRouter i x).ports = s.ports := rfl
@[simp] theorem State.setRouter_regions (s : State) (i : RouterId) (x : RouterSt) : (s.setRouter i x).regions = s.regions := rfl
@[simp] theorem State.setRouter_banks (s : State) (i : RouterId) (x : RouterSt) : (s.setRouter i x).banks = s.banks := rfl
@[simp] theorem State.setRouter_engine (s : State) (i : RouterId) (x : RouterSt) : (s.setRouter i x).engine = s.engine := rfl
@[simp] theorem State.setRouter_pair (s : State) (i : RouterId) (x : RouterSt) : (s.setRouter i x).pair = s.pair := rfl
@[simp] theorem State.setRouter_gfc (s : State) (i : RouterId) (x : RouterSt) : (s.setRouter i x).gfc = s.gfc := rfl
@[simp] theorem State.setRouter_mgmt (s : State) (i : RouterId) (x : RouterSt) : (s.setRouter i x).mgmt = s.mgmt := rfl
@[simp] theorem State.setRouter_boot (s : State) (i : RouterId) (x : RouterSt) : (s.setRouter i x).boot = s.boot := rfl
@[simp] theorem State.setRouter_pins (s : State) (i : RouterId) (x : RouterSt) : (s.setRouter i x).pins = s.pins := rfl
@[simp] theorem State.setRouter_test (s : State) (i : RouterId) (x : RouterSt) : (s.setRouter i x).test = s.test := rfl
@[simp] theorem State.setRouter_nv (s : State) (i : RouterId) (x : RouterSt) : (s.setRouter i x).nv = s.nv := rfl
@[simp] theorem State.setRouter_mod (s : State) (i : RouterId) (x : RouterSt) : (s.setRouter i x).mod = s.mod := rfl

/-! #### State.modRouter -/

@[simp] theorem State.modRouter_pending (s : State) (i : RouterId) (g : RouterSt → RouterSt) : (s.modRouter i g).pending = s.pending := rfl
@[simp] theorem State.modRouter_freeCtr (s : State) (i : RouterId) (g : RouterSt → RouterSt) : (s.modRouter i g).freeCtr = s.freeCtr := rfl
@[simp] theorem State.modRouter_regs (s : State) (i : RouterId) (g : RouterSt → RouterSt) : (s.modRouter i g).regs = s.regs := rfl
@[simp] theorem State.modRouter_crossing (s : State) (i : RouterId) (g : RouterSt → RouterSt) : (s.modRouter i g).crossing = s.crossing := rfl
@[simp] theorem State.modRouter_cores (s : State) (i : RouterId) (g : RouterSt → RouterSt) : (s.modRouter i g).cores = s.cores := rfl
@[simp] theorem State.modRouter_hatches (s : State) (i : RouterId) (g : RouterSt → RouterSt) : (s.modRouter i g).hatches = s.hatches := rfl
@[simp] theorem State.modRouter_plates (s : State) (i : RouterId) (g : RouterSt → RouterSt) : (s.modRouter i g).plates = s.plates := rfl
@[simp] theorem State.modRouter_drams (s : State) (i : RouterId) (g : RouterSt → RouterSt) : (s.modRouter i g).drams = s.drams := rfl
@[simp] theorem State.modRouter_inbox (s : State) (i : RouterId) (g : RouterSt → RouterSt) : (s.modRouter i g).inbox = s.inbox := rfl
@[simp] theorem State.modRouter_ports (s : State) (i : RouterId) (g : RouterSt → RouterSt) : (s.modRouter i g).ports = s.ports := rfl
@[simp] theorem State.modRouter_regions (s : State) (i : RouterId) (g : RouterSt → RouterSt) : (s.modRouter i g).regions = s.regions := rfl
@[simp] theorem State.modRouter_banks (s : State) (i : RouterId) (g : RouterSt → RouterSt) : (s.modRouter i g).banks = s.banks := rfl
@[simp] theorem State.modRouter_engine (s : State) (i : RouterId) (g : RouterSt → RouterSt) : (s.modRouter i g).engine = s.engine := rfl
@[simp] theorem State.modRouter_pair (s : State) (i : RouterId) (g : RouterSt → RouterSt) : (s.modRouter i g).pair = s.pair := rfl
@[simp] theorem State.modRouter_gfc (s : State) (i : RouterId) (g : RouterSt → RouterSt) : (s.modRouter i g).gfc = s.gfc := rfl
@[simp] theorem State.modRouter_mgmt (s : State) (i : RouterId) (g : RouterSt → RouterSt) : (s.modRouter i g).mgmt = s.mgmt := rfl
@[simp] theorem State.modRouter_boot (s : State) (i : RouterId) (g : RouterSt → RouterSt) : (s.modRouter i g).boot = s.boot := rfl
@[simp] theorem State.modRouter_pins (s : State) (i : RouterId) (g : RouterSt → RouterSt) : (s.modRouter i g).pins = s.pins := rfl
@[simp] theorem State.modRouter_test (s : State) (i : RouterId) (g : RouterSt → RouterSt) : (s.modRouter i g).test = s.test := rfl
@[simp] theorem State.modRouter_nv (s : State) (i : RouterId) (g : RouterSt → RouterSt) : (s.modRouter i g).nv = s.nv := rfl
@[simp] theorem State.modRouter_mod (s : State) (i : RouterId) (g : RouterSt → RouterSt) : (s.modRouter i g).mod = s.mod := rfl

/-! #### State.setPort -/

@[simp] theorem State.setPort_pending (s : State) (i : Fin 10) (x : PortSt) : (s.setPort i x).pending = s.pending := rfl
@[simp] theorem State.setPort_freeCtr (s : State) (i : Fin 10) (x : PortSt) : (s.setPort i x).freeCtr = s.freeCtr := rfl
@[simp] theorem State.setPort_regs (s : State) (i : Fin 10) (x : PortSt) : (s.setPort i x).regs = s.regs := rfl
@[simp] theorem State.setPort_crossing (s : State) (i : Fin 10) (x : PortSt) : (s.setPort i x).crossing = s.crossing := rfl
@[simp] theorem State.setPort_cores (s : State) (i : Fin 10) (x : PortSt) : (s.setPort i x).cores = s.cores := rfl
@[simp] theorem State.setPort_hatches (s : State) (i : Fin 10) (x : PortSt) : (s.setPort i x).hatches = s.hatches := rfl
@[simp] theorem State.setPort_plates (s : State) (i : Fin 10) (x : PortSt) : (s.setPort i x).plates = s.plates := rfl
@[simp] theorem State.setPort_drams (s : State) (i : Fin 10) (x : PortSt) : (s.setPort i x).drams = s.drams := rfl
@[simp] theorem State.setPort_routers (s : State) (i : Fin 10) (x : PortSt) : (s.setPort i x).routers = s.routers := rfl
@[simp] theorem State.setPort_inbox (s : State) (i : Fin 10) (x : PortSt) : (s.setPort i x).inbox = s.inbox := rfl
@[simp] theorem State.setPort_regions (s : State) (i : Fin 10) (x : PortSt) : (s.setPort i x).regions = s.regions := rfl
@[simp] theorem State.setPort_banks (s : State) (i : Fin 10) (x : PortSt) : (s.setPort i x).banks = s.banks := rfl
@[simp] theorem State.setPort_engine (s : State) (i : Fin 10) (x : PortSt) : (s.setPort i x).engine = s.engine := rfl
@[simp] theorem State.setPort_pair (s : State) (i : Fin 10) (x : PortSt) : (s.setPort i x).pair = s.pair := rfl
@[simp] theorem State.setPort_gfc (s : State) (i : Fin 10) (x : PortSt) : (s.setPort i x).gfc = s.gfc := rfl
@[simp] theorem State.setPort_mgmt (s : State) (i : Fin 10) (x : PortSt) : (s.setPort i x).mgmt = s.mgmt := rfl
@[simp] theorem State.setPort_boot (s : State) (i : Fin 10) (x : PortSt) : (s.setPort i x).boot = s.boot := rfl
@[simp] theorem State.setPort_pins (s : State) (i : Fin 10) (x : PortSt) : (s.setPort i x).pins = s.pins := rfl
@[simp] theorem State.setPort_test (s : State) (i : Fin 10) (x : PortSt) : (s.setPort i x).test = s.test := rfl
@[simp] theorem State.setPort_nv (s : State) (i : Fin 10) (x : PortSt) : (s.setPort i x).nv = s.nv := rfl
@[simp] theorem State.setPort_mod (s : State) (i : Fin 10) (x : PortSt) : (s.setPort i x).mod = s.mod := rfl

/-! #### State.modPort -/

@[simp] theorem State.modPort_pending (s : State) (i : Fin 10) (g : PortSt → PortSt) : (s.modPort i g).pending = s.pending := rfl
@[simp] theorem State.modPort_freeCtr (s : State) (i : Fin 10) (g : PortSt → PortSt) : (s.modPort i g).freeCtr = s.freeCtr := rfl
@[simp] theorem State.modPort_regs (s : State) (i : Fin 10) (g : PortSt → PortSt) : (s.modPort i g).regs = s.regs := rfl
@[simp] theorem State.modPort_crossing (s : State) (i : Fin 10) (g : PortSt → PortSt) : (s.modPort i g).crossing = s.crossing := rfl
@[simp] theorem State.modPort_cores (s : State) (i : Fin 10) (g : PortSt → PortSt) : (s.modPort i g).cores = s.cores := rfl
@[simp] theorem State.modPort_hatches (s : State) (i : Fin 10) (g : PortSt → PortSt) : (s.modPort i g).hatches = s.hatches := rfl
@[simp] theorem State.modPort_plates (s : State) (i : Fin 10) (g : PortSt → PortSt) : (s.modPort i g).plates = s.plates := rfl
@[simp] theorem State.modPort_drams (s : State) (i : Fin 10) (g : PortSt → PortSt) : (s.modPort i g).drams = s.drams := rfl
@[simp] theorem State.modPort_routers (s : State) (i : Fin 10) (g : PortSt → PortSt) : (s.modPort i g).routers = s.routers := rfl
@[simp] theorem State.modPort_inbox (s : State) (i : Fin 10) (g : PortSt → PortSt) : (s.modPort i g).inbox = s.inbox := rfl
@[simp] theorem State.modPort_regions (s : State) (i : Fin 10) (g : PortSt → PortSt) : (s.modPort i g).regions = s.regions := rfl
@[simp] theorem State.modPort_banks (s : State) (i : Fin 10) (g : PortSt → PortSt) : (s.modPort i g).banks = s.banks := rfl
@[simp] theorem State.modPort_engine (s : State) (i : Fin 10) (g : PortSt → PortSt) : (s.modPort i g).engine = s.engine := rfl
@[simp] theorem State.modPort_pair (s : State) (i : Fin 10) (g : PortSt → PortSt) : (s.modPort i g).pair = s.pair := rfl
@[simp] theorem State.modPort_gfc (s : State) (i : Fin 10) (g : PortSt → PortSt) : (s.modPort i g).gfc = s.gfc := rfl
@[simp] theorem State.modPort_mgmt (s : State) (i : Fin 10) (g : PortSt → PortSt) : (s.modPort i g).mgmt = s.mgmt := rfl
@[simp] theorem State.modPort_boot (s : State) (i : Fin 10) (g : PortSt → PortSt) : (s.modPort i g).boot = s.boot := rfl
@[simp] theorem State.modPort_pins (s : State) (i : Fin 10) (g : PortSt → PortSt) : (s.modPort i g).pins = s.pins := rfl
@[simp] theorem State.modPort_test (s : State) (i : Fin 10) (g : PortSt → PortSt) : (s.modPort i g).test = s.test := rfl
@[simp] theorem State.modPort_nv (s : State) (i : Fin 10) (g : PortSt → PortSt) : (s.modPort i g).nv = s.nv := rfl
@[simp] theorem State.modPort_mod (s : State) (i : Fin 10) (g : PortSt → PortSt) : (s.modPort i g).mod = s.mod := rfl

/-! #### State.setRegion -/

@[simp] theorem State.setRegion_pending (s : State) (i : RegionId) (x : RegionSt) : (s.setRegion i x).pending = s.pending := rfl
@[simp] theorem State.setRegion_freeCtr (s : State) (i : RegionId) (x : RegionSt) : (s.setRegion i x).freeCtr = s.freeCtr := rfl
@[simp] theorem State.setRegion_regs (s : State) (i : RegionId) (x : RegionSt) : (s.setRegion i x).regs = s.regs := rfl
@[simp] theorem State.setRegion_crossing (s : State) (i : RegionId) (x : RegionSt) : (s.setRegion i x).crossing = s.crossing := rfl
@[simp] theorem State.setRegion_cores (s : State) (i : RegionId) (x : RegionSt) : (s.setRegion i x).cores = s.cores := rfl
@[simp] theorem State.setRegion_hatches (s : State) (i : RegionId) (x : RegionSt) : (s.setRegion i x).hatches = s.hatches := rfl
@[simp] theorem State.setRegion_plates (s : State) (i : RegionId) (x : RegionSt) : (s.setRegion i x).plates = s.plates := rfl
@[simp] theorem State.setRegion_drams (s : State) (i : RegionId) (x : RegionSt) : (s.setRegion i x).drams = s.drams := rfl
@[simp] theorem State.setRegion_routers (s : State) (i : RegionId) (x : RegionSt) : (s.setRegion i x).routers = s.routers := rfl
@[simp] theorem State.setRegion_inbox (s : State) (i : RegionId) (x : RegionSt) : (s.setRegion i x).inbox = s.inbox := rfl
@[simp] theorem State.setRegion_ports (s : State) (i : RegionId) (x : RegionSt) : (s.setRegion i x).ports = s.ports := rfl
@[simp] theorem State.setRegion_banks (s : State) (i : RegionId) (x : RegionSt) : (s.setRegion i x).banks = s.banks := rfl
@[simp] theorem State.setRegion_engine (s : State) (i : RegionId) (x : RegionSt) : (s.setRegion i x).engine = s.engine := rfl
@[simp] theorem State.setRegion_pair (s : State) (i : RegionId) (x : RegionSt) : (s.setRegion i x).pair = s.pair := rfl
@[simp] theorem State.setRegion_gfc (s : State) (i : RegionId) (x : RegionSt) : (s.setRegion i x).gfc = s.gfc := rfl
@[simp] theorem State.setRegion_mgmt (s : State) (i : RegionId) (x : RegionSt) : (s.setRegion i x).mgmt = s.mgmt := rfl
@[simp] theorem State.setRegion_boot (s : State) (i : RegionId) (x : RegionSt) : (s.setRegion i x).boot = s.boot := rfl
@[simp] theorem State.setRegion_pins (s : State) (i : RegionId) (x : RegionSt) : (s.setRegion i x).pins = s.pins := rfl
@[simp] theorem State.setRegion_test (s : State) (i : RegionId) (x : RegionSt) : (s.setRegion i x).test = s.test := rfl
@[simp] theorem State.setRegion_nv (s : State) (i : RegionId) (x : RegionSt) : (s.setRegion i x).nv = s.nv := rfl
@[simp] theorem State.setRegion_mod (s : State) (i : RegionId) (x : RegionSt) : (s.setRegion i x).mod = s.mod := rfl

/-! #### State.modRegion -/

@[simp] theorem State.modRegion_pending (s : State) (i : RegionId) (g : RegionSt → RegionSt) : (s.modRegion i g).pending = s.pending := rfl
@[simp] theorem State.modRegion_freeCtr (s : State) (i : RegionId) (g : RegionSt → RegionSt) : (s.modRegion i g).freeCtr = s.freeCtr := rfl
@[simp] theorem State.modRegion_regs (s : State) (i : RegionId) (g : RegionSt → RegionSt) : (s.modRegion i g).regs = s.regs := rfl
@[simp] theorem State.modRegion_crossing (s : State) (i : RegionId) (g : RegionSt → RegionSt) : (s.modRegion i g).crossing = s.crossing := rfl
@[simp] theorem State.modRegion_cores (s : State) (i : RegionId) (g : RegionSt → RegionSt) : (s.modRegion i g).cores = s.cores := rfl
@[simp] theorem State.modRegion_hatches (s : State) (i : RegionId) (g : RegionSt → RegionSt) : (s.modRegion i g).hatches = s.hatches := rfl
@[simp] theorem State.modRegion_plates (s : State) (i : RegionId) (g : RegionSt → RegionSt) : (s.modRegion i g).plates = s.plates := rfl
@[simp] theorem State.modRegion_drams (s : State) (i : RegionId) (g : RegionSt → RegionSt) : (s.modRegion i g).drams = s.drams := rfl
@[simp] theorem State.modRegion_routers (s : State) (i : RegionId) (g : RegionSt → RegionSt) : (s.modRegion i g).routers = s.routers := rfl
@[simp] theorem State.modRegion_inbox (s : State) (i : RegionId) (g : RegionSt → RegionSt) : (s.modRegion i g).inbox = s.inbox := rfl
@[simp] theorem State.modRegion_ports (s : State) (i : RegionId) (g : RegionSt → RegionSt) : (s.modRegion i g).ports = s.ports := rfl
@[simp] theorem State.modRegion_banks (s : State) (i : RegionId) (g : RegionSt → RegionSt) : (s.modRegion i g).banks = s.banks := rfl
@[simp] theorem State.modRegion_engine (s : State) (i : RegionId) (g : RegionSt → RegionSt) : (s.modRegion i g).engine = s.engine := rfl
@[simp] theorem State.modRegion_pair (s : State) (i : RegionId) (g : RegionSt → RegionSt) : (s.modRegion i g).pair = s.pair := rfl
@[simp] theorem State.modRegion_gfc (s : State) (i : RegionId) (g : RegionSt → RegionSt) : (s.modRegion i g).gfc = s.gfc := rfl
@[simp] theorem State.modRegion_mgmt (s : State) (i : RegionId) (g : RegionSt → RegionSt) : (s.modRegion i g).mgmt = s.mgmt := rfl
@[simp] theorem State.modRegion_boot (s : State) (i : RegionId) (g : RegionSt → RegionSt) : (s.modRegion i g).boot = s.boot := rfl
@[simp] theorem State.modRegion_pins (s : State) (i : RegionId) (g : RegionSt → RegionSt) : (s.modRegion i g).pins = s.pins := rfl
@[simp] theorem State.modRegion_test (s : State) (i : RegionId) (g : RegionSt → RegionSt) : (s.modRegion i g).test = s.test := rfl
@[simp] theorem State.modRegion_nv (s : State) (i : RegionId) (g : RegionSt → RegionSt) : (s.modRegion i g).nv = s.nv := rfl
@[simp] theorem State.modRegion_mod (s : State) (i : RegionId) (g : RegionSt → RegionSt) : (s.modRegion i g).mod = s.mod := rfl

/-! #### State.setBank -/

@[simp] theorem State.setBank_pending (s : State) (i : BankId) (x : IoBankSt) : (s.setBank i x).pending = s.pending := rfl
@[simp] theorem State.setBank_freeCtr (s : State) (i : BankId) (x : IoBankSt) : (s.setBank i x).freeCtr = s.freeCtr := rfl
@[simp] theorem State.setBank_regs (s : State) (i : BankId) (x : IoBankSt) : (s.setBank i x).regs = s.regs := rfl
@[simp] theorem State.setBank_crossing (s : State) (i : BankId) (x : IoBankSt) : (s.setBank i x).crossing = s.crossing := rfl
@[simp] theorem State.setBank_cores (s : State) (i : BankId) (x : IoBankSt) : (s.setBank i x).cores = s.cores := rfl
@[simp] theorem State.setBank_hatches (s : State) (i : BankId) (x : IoBankSt) : (s.setBank i x).hatches = s.hatches := rfl
@[simp] theorem State.setBank_plates (s : State) (i : BankId) (x : IoBankSt) : (s.setBank i x).plates = s.plates := rfl
@[simp] theorem State.setBank_drams (s : State) (i : BankId) (x : IoBankSt) : (s.setBank i x).drams = s.drams := rfl
@[simp] theorem State.setBank_routers (s : State) (i : BankId) (x : IoBankSt) : (s.setBank i x).routers = s.routers := rfl
@[simp] theorem State.setBank_inbox (s : State) (i : BankId) (x : IoBankSt) : (s.setBank i x).inbox = s.inbox := rfl
@[simp] theorem State.setBank_ports (s : State) (i : BankId) (x : IoBankSt) : (s.setBank i x).ports = s.ports := rfl
@[simp] theorem State.setBank_regions (s : State) (i : BankId) (x : IoBankSt) : (s.setBank i x).regions = s.regions := rfl
@[simp] theorem State.setBank_engine (s : State) (i : BankId) (x : IoBankSt) : (s.setBank i x).engine = s.engine := rfl
@[simp] theorem State.setBank_pair (s : State) (i : BankId) (x : IoBankSt) : (s.setBank i x).pair = s.pair := rfl
@[simp] theorem State.setBank_gfc (s : State) (i : BankId) (x : IoBankSt) : (s.setBank i x).gfc = s.gfc := rfl
@[simp] theorem State.setBank_mgmt (s : State) (i : BankId) (x : IoBankSt) : (s.setBank i x).mgmt = s.mgmt := rfl
@[simp] theorem State.setBank_boot (s : State) (i : BankId) (x : IoBankSt) : (s.setBank i x).boot = s.boot := rfl
@[simp] theorem State.setBank_pins (s : State) (i : BankId) (x : IoBankSt) : (s.setBank i x).pins = s.pins := rfl
@[simp] theorem State.setBank_test (s : State) (i : BankId) (x : IoBankSt) : (s.setBank i x).test = s.test := rfl
@[simp] theorem State.setBank_nv (s : State) (i : BankId) (x : IoBankSt) : (s.setBank i x).nv = s.nv := rfl
@[simp] theorem State.setBank_mod (s : State) (i : BankId) (x : IoBankSt) : (s.setBank i x).mod = s.mod := rfl

/-! #### State.modEngine -/

@[simp] theorem State.modEngine_pending (s : State) (g : EngineSt → EngineSt) : (s.modEngine g).pending = s.pending := rfl
@[simp] theorem State.modEngine_freeCtr (s : State) (g : EngineSt → EngineSt) : (s.modEngine g).freeCtr = s.freeCtr := rfl
@[simp] theorem State.modEngine_regs (s : State) (g : EngineSt → EngineSt) : (s.modEngine g).regs = s.regs := rfl
@[simp] theorem State.modEngine_crossing (s : State) (g : EngineSt → EngineSt) : (s.modEngine g).crossing = s.crossing := rfl
@[simp] theorem State.modEngine_cores (s : State) (g : EngineSt → EngineSt) : (s.modEngine g).cores = s.cores := rfl
@[simp] theorem State.modEngine_hatches (s : State) (g : EngineSt → EngineSt) : (s.modEngine g).hatches = s.hatches := rfl
@[simp] theorem State.modEngine_plates (s : State) (g : EngineSt → EngineSt) : (s.modEngine g).plates = s.plates := rfl
@[simp] theorem State.modEngine_drams (s : State) (g : EngineSt → EngineSt) : (s.modEngine g).drams = s.drams := rfl
@[simp] theorem State.modEngine_routers (s : State) (g : EngineSt → EngineSt) : (s.modEngine g).routers = s.routers := rfl
@[simp] theorem State.modEngine_inbox (s : State) (g : EngineSt → EngineSt) : (s.modEngine g).inbox = s.inbox := rfl
@[simp] theorem State.modEngine_ports (s : State) (g : EngineSt → EngineSt) : (s.modEngine g).ports = s.ports := rfl
@[simp] theorem State.modEngine_regions (s : State) (g : EngineSt → EngineSt) : (s.modEngine g).regions = s.regions := rfl
@[simp] theorem State.modEngine_banks (s : State) (g : EngineSt → EngineSt) : (s.modEngine g).banks = s.banks := rfl
@[simp] theorem State.modEngine_pair (s : State) (g : EngineSt → EngineSt) : (s.modEngine g).pair = s.pair := rfl
@[simp] theorem State.modEngine_gfc (s : State) (g : EngineSt → EngineSt) : (s.modEngine g).gfc = s.gfc := rfl
@[simp] theorem State.modEngine_mgmt (s : State) (g : EngineSt → EngineSt) : (s.modEngine g).mgmt = s.mgmt := rfl
@[simp] theorem State.modEngine_boot (s : State) (g : EngineSt → EngineSt) : (s.modEngine g).boot = s.boot := rfl
@[simp] theorem State.modEngine_pins (s : State) (g : EngineSt → EngineSt) : (s.modEngine g).pins = s.pins := rfl
@[simp] theorem State.modEngine_test (s : State) (g : EngineSt → EngineSt) : (s.modEngine g).test = s.test := rfl
@[simp] theorem State.modEngine_nv (s : State) (g : EngineSt → EngineSt) : (s.modEngine g).nv = s.nv := rfl
@[simp] theorem State.modEngine_mod (s : State) (g : EngineSt → EngineSt) : (s.modEngine g).mod = s.mod := rfl

/-! #### State.modPair -/

@[simp] theorem State.modPair_pending (s : State) (g : PairSt → PairSt) : (s.modPair g).pending = s.pending := rfl
@[simp] theorem State.modPair_freeCtr (s : State) (g : PairSt → PairSt) : (s.modPair g).freeCtr = s.freeCtr := rfl
@[simp] theorem State.modPair_regs (s : State) (g : PairSt → PairSt) : (s.modPair g).regs = s.regs := rfl
@[simp] theorem State.modPair_crossing (s : State) (g : PairSt → PairSt) : (s.modPair g).crossing = s.crossing := rfl
@[simp] theorem State.modPair_cores (s : State) (g : PairSt → PairSt) : (s.modPair g).cores = s.cores := rfl
@[simp] theorem State.modPair_hatches (s : State) (g : PairSt → PairSt) : (s.modPair g).hatches = s.hatches := rfl
@[simp] theorem State.modPair_plates (s : State) (g : PairSt → PairSt) : (s.modPair g).plates = s.plates := rfl
@[simp] theorem State.modPair_drams (s : State) (g : PairSt → PairSt) : (s.modPair g).drams = s.drams := rfl
@[simp] theorem State.modPair_routers (s : State) (g : PairSt → PairSt) : (s.modPair g).routers = s.routers := rfl
@[simp] theorem State.modPair_inbox (s : State) (g : PairSt → PairSt) : (s.modPair g).inbox = s.inbox := rfl
@[simp] theorem State.modPair_ports (s : State) (g : PairSt → PairSt) : (s.modPair g).ports = s.ports := rfl
@[simp] theorem State.modPair_regions (s : State) (g : PairSt → PairSt) : (s.modPair g).regions = s.regions := rfl
@[simp] theorem State.modPair_banks (s : State) (g : PairSt → PairSt) : (s.modPair g).banks = s.banks := rfl
@[simp] theorem State.modPair_engine (s : State) (g : PairSt → PairSt) : (s.modPair g).engine = s.engine := rfl
@[simp] theorem State.modPair_gfc (s : State) (g : PairSt → PairSt) : (s.modPair g).gfc = s.gfc := rfl
@[simp] theorem State.modPair_mgmt (s : State) (g : PairSt → PairSt) : (s.modPair g).mgmt = s.mgmt := rfl
@[simp] theorem State.modPair_boot (s : State) (g : PairSt → PairSt) : (s.modPair g).boot = s.boot := rfl
@[simp] theorem State.modPair_pins (s : State) (g : PairSt → PairSt) : (s.modPair g).pins = s.pins := rfl
@[simp] theorem State.modPair_test (s : State) (g : PairSt → PairSt) : (s.modPair g).test = s.test := rfl
@[simp] theorem State.modPair_nv (s : State) (g : PairSt → PairSt) : (s.modPair g).nv = s.nv := rfl
@[simp] theorem State.modPair_mod (s : State) (g : PairSt → PairSt) : (s.modPair g).mod = s.mod := rfl

/-! #### State.modGfc -/

@[simp] theorem State.modGfc_pending (s : State) (g : GfcSt → GfcSt) : (s.modGfc g).pending = s.pending := rfl
@[simp] theorem State.modGfc_freeCtr (s : State) (g : GfcSt → GfcSt) : (s.modGfc g).freeCtr = s.freeCtr := rfl
@[simp] theorem State.modGfc_regs (s : State) (g : GfcSt → GfcSt) : (s.modGfc g).regs = s.regs := rfl
@[simp] theorem State.modGfc_crossing (s : State) (g : GfcSt → GfcSt) : (s.modGfc g).crossing = s.crossing := rfl
@[simp] theorem State.modGfc_cores (s : State) (g : GfcSt → GfcSt) : (s.modGfc g).cores = s.cores := rfl
@[simp] theorem State.modGfc_hatches (s : State) (g : GfcSt → GfcSt) : (s.modGfc g).hatches = s.hatches := rfl
@[simp] theorem State.modGfc_plates (s : State) (g : GfcSt → GfcSt) : (s.modGfc g).plates = s.plates := rfl
@[simp] theorem State.modGfc_drams (s : State) (g : GfcSt → GfcSt) : (s.modGfc g).drams = s.drams := rfl
@[simp] theorem State.modGfc_routers (s : State) (g : GfcSt → GfcSt) : (s.modGfc g).routers = s.routers := rfl
@[simp] theorem State.modGfc_inbox (s : State) (g : GfcSt → GfcSt) : (s.modGfc g).inbox = s.inbox := rfl
@[simp] theorem State.modGfc_ports (s : State) (g : GfcSt → GfcSt) : (s.modGfc g).ports = s.ports := rfl
@[simp] theorem State.modGfc_regions (s : State) (g : GfcSt → GfcSt) : (s.modGfc g).regions = s.regions := rfl
@[simp] theorem State.modGfc_banks (s : State) (g : GfcSt → GfcSt) : (s.modGfc g).banks = s.banks := rfl
@[simp] theorem State.modGfc_engine (s : State) (g : GfcSt → GfcSt) : (s.modGfc g).engine = s.engine := rfl
@[simp] theorem State.modGfc_pair (s : State) (g : GfcSt → GfcSt) : (s.modGfc g).pair = s.pair := rfl
@[simp] theorem State.modGfc_mgmt (s : State) (g : GfcSt → GfcSt) : (s.modGfc g).mgmt = s.mgmt := rfl
@[simp] theorem State.modGfc_boot (s : State) (g : GfcSt → GfcSt) : (s.modGfc g).boot = s.boot := rfl
@[simp] theorem State.modGfc_pins (s : State) (g : GfcSt → GfcSt) : (s.modGfc g).pins = s.pins := rfl
@[simp] theorem State.modGfc_test (s : State) (g : GfcSt → GfcSt) : (s.modGfc g).test = s.test := rfl
@[simp] theorem State.modGfc_nv (s : State) (g : GfcSt → GfcSt) : (s.modGfc g).nv = s.nv := rfl
@[simp] theorem State.modGfc_mod (s : State) (g : GfcSt → GfcSt) : (s.modGfc g).mod = s.mod := rfl

/-! #### State.modMgmt -/

@[simp] theorem State.modMgmt_pending (s : State) (g : MgmtSt → MgmtSt) : (s.modMgmt g).pending = s.pending := rfl
@[simp] theorem State.modMgmt_freeCtr (s : State) (g : MgmtSt → MgmtSt) : (s.modMgmt g).freeCtr = s.freeCtr := rfl
@[simp] theorem State.modMgmt_regs (s : State) (g : MgmtSt → MgmtSt) : (s.modMgmt g).regs = s.regs := rfl
@[simp] theorem State.modMgmt_crossing (s : State) (g : MgmtSt → MgmtSt) : (s.modMgmt g).crossing = s.crossing := rfl
@[simp] theorem State.modMgmt_cores (s : State) (g : MgmtSt → MgmtSt) : (s.modMgmt g).cores = s.cores := rfl
@[simp] theorem State.modMgmt_hatches (s : State) (g : MgmtSt → MgmtSt) : (s.modMgmt g).hatches = s.hatches := rfl
@[simp] theorem State.modMgmt_plates (s : State) (g : MgmtSt → MgmtSt) : (s.modMgmt g).plates = s.plates := rfl
@[simp] theorem State.modMgmt_drams (s : State) (g : MgmtSt → MgmtSt) : (s.modMgmt g).drams = s.drams := rfl
@[simp] theorem State.modMgmt_routers (s : State) (g : MgmtSt → MgmtSt) : (s.modMgmt g).routers = s.routers := rfl
@[simp] theorem State.modMgmt_inbox (s : State) (g : MgmtSt → MgmtSt) : (s.modMgmt g).inbox = s.inbox := rfl
@[simp] theorem State.modMgmt_ports (s : State) (g : MgmtSt → MgmtSt) : (s.modMgmt g).ports = s.ports := rfl
@[simp] theorem State.modMgmt_regions (s : State) (g : MgmtSt → MgmtSt) : (s.modMgmt g).regions = s.regions := rfl
@[simp] theorem State.modMgmt_banks (s : State) (g : MgmtSt → MgmtSt) : (s.modMgmt g).banks = s.banks := rfl
@[simp] theorem State.modMgmt_engine (s : State) (g : MgmtSt → MgmtSt) : (s.modMgmt g).engine = s.engine := rfl
@[simp] theorem State.modMgmt_pair (s : State) (g : MgmtSt → MgmtSt) : (s.modMgmt g).pair = s.pair := rfl
@[simp] theorem State.modMgmt_gfc (s : State) (g : MgmtSt → MgmtSt) : (s.modMgmt g).gfc = s.gfc := rfl
@[simp] theorem State.modMgmt_boot (s : State) (g : MgmtSt → MgmtSt) : (s.modMgmt g).boot = s.boot := rfl
@[simp] theorem State.modMgmt_pins (s : State) (g : MgmtSt → MgmtSt) : (s.modMgmt g).pins = s.pins := rfl
@[simp] theorem State.modMgmt_test (s : State) (g : MgmtSt → MgmtSt) : (s.modMgmt g).test = s.test := rfl
@[simp] theorem State.modMgmt_nv (s : State) (g : MgmtSt → MgmtSt) : (s.modMgmt g).nv = s.nv := rfl
@[simp] theorem State.modMgmt_mod (s : State) (g : MgmtSt → MgmtSt) : (s.modMgmt g).mod = s.mod := rfl

/-! #### State.modMod -/

@[simp] theorem State.modMod_pending (s : State) (g : ModuleSt → ModuleSt) : (s.modMod g).pending = s.pending := rfl
@[simp] theorem State.modMod_freeCtr (s : State) (g : ModuleSt → ModuleSt) : (s.modMod g).freeCtr = s.freeCtr := rfl
@[simp] theorem State.modMod_regs (s : State) (g : ModuleSt → ModuleSt) : (s.modMod g).regs = s.regs := rfl
@[simp] theorem State.modMod_crossing (s : State) (g : ModuleSt → ModuleSt) : (s.modMod g).crossing = s.crossing := rfl
@[simp] theorem State.modMod_cores (s : State) (g : ModuleSt → ModuleSt) : (s.modMod g).cores = s.cores := rfl
@[simp] theorem State.modMod_hatches (s : State) (g : ModuleSt → ModuleSt) : (s.modMod g).hatches = s.hatches := rfl
@[simp] theorem State.modMod_plates (s : State) (g : ModuleSt → ModuleSt) : (s.modMod g).plates = s.plates := rfl
@[simp] theorem State.modMod_drams (s : State) (g : ModuleSt → ModuleSt) : (s.modMod g).drams = s.drams := rfl
@[simp] theorem State.modMod_routers (s : State) (g : ModuleSt → ModuleSt) : (s.modMod g).routers = s.routers := rfl
@[simp] theorem State.modMod_inbox (s : State) (g : ModuleSt → ModuleSt) : (s.modMod g).inbox = s.inbox := rfl
@[simp] theorem State.modMod_ports (s : State) (g : ModuleSt → ModuleSt) : (s.modMod g).ports = s.ports := rfl
@[simp] theorem State.modMod_regions (s : State) (g : ModuleSt → ModuleSt) : (s.modMod g).regions = s.regions := rfl
@[simp] theorem State.modMod_banks (s : State) (g : ModuleSt → ModuleSt) : (s.modMod g).banks = s.banks := rfl
@[simp] theorem State.modMod_engine (s : State) (g : ModuleSt → ModuleSt) : (s.modMod g).engine = s.engine := rfl
@[simp] theorem State.modMod_pair (s : State) (g : ModuleSt → ModuleSt) : (s.modMod g).pair = s.pair := rfl
@[simp] theorem State.modMod_gfc (s : State) (g : ModuleSt → ModuleSt) : (s.modMod g).gfc = s.gfc := rfl
@[simp] theorem State.modMod_mgmt (s : State) (g : ModuleSt → ModuleSt) : (s.modMod g).mgmt = s.mgmt := rfl
@[simp] theorem State.modMod_boot (s : State) (g : ModuleSt → ModuleSt) : (s.modMod g).boot = s.boot := rfl
@[simp] theorem State.modMod_pins (s : State) (g : ModuleSt → ModuleSt) : (s.modMod g).pins = s.pins := rfl
@[simp] theorem State.modMod_test (s : State) (g : ModuleSt → ModuleSt) : (s.modMod g).test = s.test := rfl
@[simp] theorem State.modMod_nv (s : State) (g : ModuleSt → ModuleSt) : (s.modMod g).nv = s.nv := rfl

/-! #### State.modPins -/

@[simp] theorem State.modPins_pending (s : State) (g : PinSt → PinSt) : (s.modPins g).pending = s.pending := rfl
@[simp] theorem State.modPins_freeCtr (s : State) (g : PinSt → PinSt) : (s.modPins g).freeCtr = s.freeCtr := rfl
@[simp] theorem State.modPins_regs (s : State) (g : PinSt → PinSt) : (s.modPins g).regs = s.regs := rfl
@[simp] theorem State.modPins_crossing (s : State) (g : PinSt → PinSt) : (s.modPins g).crossing = s.crossing := rfl
@[simp] theorem State.modPins_cores (s : State) (g : PinSt → PinSt) : (s.modPins g).cores = s.cores := rfl
@[simp] theorem State.modPins_hatches (s : State) (g : PinSt → PinSt) : (s.modPins g).hatches = s.hatches := rfl
@[simp] theorem State.modPins_plates (s : State) (g : PinSt → PinSt) : (s.modPins g).plates = s.plates := rfl
@[simp] theorem State.modPins_drams (s : State) (g : PinSt → PinSt) : (s.modPins g).drams = s.drams := rfl
@[simp] theorem State.modPins_routers (s : State) (g : PinSt → PinSt) : (s.modPins g).routers = s.routers := rfl
@[simp] theorem State.modPins_inbox (s : State) (g : PinSt → PinSt) : (s.modPins g).inbox = s.inbox := rfl
@[simp] theorem State.modPins_ports (s : State) (g : PinSt → PinSt) : (s.modPins g).ports = s.ports := rfl
@[simp] theorem State.modPins_regions (s : State) (g : PinSt → PinSt) : (s.modPins g).regions = s.regions := rfl
@[simp] theorem State.modPins_banks (s : State) (g : PinSt → PinSt) : (s.modPins g).banks = s.banks := rfl
@[simp] theorem State.modPins_engine (s : State) (g : PinSt → PinSt) : (s.modPins g).engine = s.engine := rfl
@[simp] theorem State.modPins_pair (s : State) (g : PinSt → PinSt) : (s.modPins g).pair = s.pair := rfl
@[simp] theorem State.modPins_gfc (s : State) (g : PinSt → PinSt) : (s.modPins g).gfc = s.gfc := rfl
@[simp] theorem State.modPins_mgmt (s : State) (g : PinSt → PinSt) : (s.modPins g).mgmt = s.mgmt := rfl
@[simp] theorem State.modPins_boot (s : State) (g : PinSt → PinSt) : (s.modPins g).boot = s.boot := rfl
@[simp] theorem State.modPins_test (s : State) (g : PinSt → PinSt) : (s.modPins g).test = s.test := rfl
@[simp] theorem State.modPins_nv (s : State) (g : PinSt → PinSt) : (s.modPins g).nv = s.nv := rfl
@[simp] theorem State.modPins_mod (s : State) (g : PinSt → PinSt) : (s.modPins g).mod = s.mod := rfl

/-! #### State.modBoot -/

@[simp] theorem State.modBoot_pending (s : State) (g : BootSt → BootSt) : (s.modBoot g).pending = s.pending := rfl
@[simp] theorem State.modBoot_freeCtr (s : State) (g : BootSt → BootSt) : (s.modBoot g).freeCtr = s.freeCtr := rfl
@[simp] theorem State.modBoot_regs (s : State) (g : BootSt → BootSt) : (s.modBoot g).regs = s.regs := rfl
@[simp] theorem State.modBoot_crossing (s : State) (g : BootSt → BootSt) : (s.modBoot g).crossing = s.crossing := rfl
@[simp] theorem State.modBoot_cores (s : State) (g : BootSt → BootSt) : (s.modBoot g).cores = s.cores := rfl
@[simp] theorem State.modBoot_hatches (s : State) (g : BootSt → BootSt) : (s.modBoot g).hatches = s.hatches := rfl
@[simp] theorem State.modBoot_plates (s : State) (g : BootSt → BootSt) : (s.modBoot g).plates = s.plates := rfl
@[simp] theorem State.modBoot_drams (s : State) (g : BootSt → BootSt) : (s.modBoot g).drams = s.drams := rfl
@[simp] theorem State.modBoot_routers (s : State) (g : BootSt → BootSt) : (s.modBoot g).routers = s.routers := rfl
@[simp] theorem State.modBoot_inbox (s : State) (g : BootSt → BootSt) : (s.modBoot g).inbox = s.inbox := rfl
@[simp] theorem State.modBoot_ports (s : State) (g : BootSt → BootSt) : (s.modBoot g).ports = s.ports := rfl
@[simp] theorem State.modBoot_regions (s : State) (g : BootSt → BootSt) : (s.modBoot g).regions = s.regions := rfl
@[simp] theorem State.modBoot_banks (s : State) (g : BootSt → BootSt) : (s.modBoot g).banks = s.banks := rfl
@[simp] theorem State.modBoot_engine (s : State) (g : BootSt → BootSt) : (s.modBoot g).engine = s.engine := rfl
@[simp] theorem State.modBoot_pair (s : State) (g : BootSt → BootSt) : (s.modBoot g).pair = s.pair := rfl
@[simp] theorem State.modBoot_gfc (s : State) (g : BootSt → BootSt) : (s.modBoot g).gfc = s.gfc := rfl
@[simp] theorem State.modBoot_mgmt (s : State) (g : BootSt → BootSt) : (s.modBoot g).mgmt = s.mgmt := rfl
@[simp] theorem State.modBoot_pins (s : State) (g : BootSt → BootSt) : (s.modBoot g).pins = s.pins := rfl
@[simp] theorem State.modBoot_test (s : State) (g : BootSt → BootSt) : (s.modBoot g).test = s.test := rfl
@[simp] theorem State.modBoot_nv (s : State) (g : BootSt → BootSt) : (s.modBoot g).nv = s.nv := rfl
@[simp] theorem State.modBoot_mod (s : State) (g : BootSt → BootSt) : (s.modBoot g).mod = s.mod := rfl

@[simp] theorem settle_mod_inReset (s : State) : (settle s).mod.inReset = s.mod.inReset := rfl
@[simp] theorem settle_mod_locked (s : State) : (settle s).mod.locked = s.mod.locked := rfl
@[simp] theorem settle_mod_appDown (s : State) : (settle s).mod.appDown = s.mod.appDown := rfl
@[simp] theorem settle_mod_inputC (s : State) : (settle s).mod.inputC = s.mod.inputC := rfl
@[simp] theorem settle_mod_busy (s : State) : (settle s).mod.busy = s.mod.busy := rfl
@[simp] theorem settle_mod_repairW (s : State) : (settle s).mod.repairW = s.mod.repairW := rfl
@[simp] theorem settle_mod_half (s : State) : (settle s).mod.half = s.mod.half := rfl
@[simp] theorem settle_mod_dedup (s : State) : (settle s).mod.dedup = s.mod.dedup := rfl
@[simp] theorem settle_mod_time (s : State) : (settle s).mod.time = s.mod.time := rfl
@[simp] theorem settle_mod_server (s : State) : (settle s).mod.server = s.mod.server := rfl
@[simp] theorem settle_mod_tripped (s : State) : (settle s).mod.tripped = s.mod.tripped := rfl
@[simp] theorem settle_mod_mapUsed (s : State) : (settle s).mod.mapUsed = s.mod.mapUsed := rfl
@[simp] theorem settle_pins_v48 (s : State) : (settle s).pins.v48 = s.pins.v48 := rfl
@[simp] theorem settle_pins_pwrOk (s : State) : (settle s).pins.pwrOk = s.pins.pwrOk := rfl
@[simp] theorem settle_pins_resetN (s : State) : (settle s).pins.resetN = s.pins.resetN := rfl
@[simp] theorem settle_pins_cfgDone (s : State) : (settle s).pins.cfgDone = s.pins.cfgDone := rfl
@[simp] theorem settle_pins_cfgErr (s : State) : (settle s).pins.cfgErr = s.pins.cfgErr := rfl
@[simp] theorem settle_pins_twin (s : State) : (settle s).pins.twin = s.pins.twin := rfl
@[simp] theorem settle_pins_bootsel (s : State) : (settle s).pins.bootsel = s.pins.bootsel := rfl
@[simp] theorem settle_pins_testkeep (s : State) : (settle s).pins.testkeep = s.pins.testkeep := rfl
@[simp] theorem settle_pins_sref (s : State) : (settle s).pins.sref = s.pins.sref := rfl
@[simp] theorem settle_pins_mref (s : State) : (settle s).pins.mref = s.pins.mref := rfl
@[simp] theorem settle_pins_lref (s : State) : (settle s).pins.lref = s.pins.lref := rfl
@[simp] theorem settle_pins_cold (s : State) : (settle s).pins.cold = s.pins.cold := rfl
@[simp] theorem settle_pins_flRstN (s : State) : (settle s).pins.flRstN = s.pins.flRstN := rfl
@[simp] theorem settle_pins_flResets (s : State) : (settle s).pins.flResets = s.pins.flResets := rfl

@[simp] theorem settle_mod_edge (s : State) : (settle s).mod.edge = 0 := rfl
@[simp] theorem settle_mod_stall (s : State) : (settle s).mod.stall = false := rfl
@[simp] theorem settle_mod_lines (s : State) : (settle s).mod.lines = levelLines s ||| s.mod.edge := rfl
@[simp] theorem settle_pins_faultN (s : State) : (settle s).pins.faultN = !faultLow s := rfl

/-! #### Reads of a unit see what `settle` leaves -/

@[simp] theorem settle_reg (s : State) (a : Nat) : (settle s).reg a = s.reg a := rfl
@[simp] theorem settle_core (s : State) (i : CoreId) : (settle s).core i = s.core i := rfl
@[simp] theorem settle_hatch (s : State) (i : HatchId) : (settle s).hatch i = s.hatch i := rfl
@[simp] theorem settle_plate (s : State) (p : Fin 8) : (settle s).plate p = s.plate p := rfl
@[simp] theorem settle_stack (s : State) (i : StackId) : (settle s).stack i = s.stack i := rfl
@[simp] theorem settle_router (s : State) (i : RouterId) : (settle s).router i = s.router i := rfl
@[simp] theorem settle_port (s : State) (k : Fin 10) : (settle s).port k = s.port k := rfl
@[simp] theorem settle_region (s : State) (i : RegionId) : (settle s).region i = s.region i := rfl
@[simp] theorem settle_bank (s : State) (i : BankId) : (settle s).bank i = s.bank i := rfl

end Sys2Proof.Machine
end

