-- ==== Sys2Proof/Laws/Units.lean ====
section
/-! SUPPORT. Reads of the units of the state after writes: registers, cores, hatches, plates, stacks, routers, ports, regions and
banks each answer what was last written to them and leave the others as they were. -/
namespace Sys2Proof.Machine
open Sys2Proof.Laws

/-! ### The keys tell units apart -/

theorem CoreId.key_inj {i j : CoreId} (h : i.key = j.key) : i = j := by
  obtain ⟨p, c⟩ := i; obtain ⟨p', c'⟩ := j
  simp only [CoreId.key] at h
  have hp : p = p' := Fin.ext (by have := c.isLt; have := c'.isLt; omega)
  subst hp
  simp only [CoreId.mk.injEq, true_and]
  exact Fin.ext (by omega)

theorem HatchId.key_inj {i j : HatchId} (h : i.key = j.key) : i = j := by
  obtain ⟨p, c⟩ := i; obtain ⟨p', c'⟩ := j
  simp only [HatchId.key] at h
  have hp : p = p' := Fin.ext (by have := c.isLt; have := c'.isLt; omega)
  subst hp
  simp only [HatchId.mk.injEq, true_and]
  exact Fin.ext (by omega)

theorem StackId.key_inj {i j : StackId} (h : i.key = j.key) : i = j := by
  obtain ⟨p, c⟩ := i; obtain ⟨p', c'⟩ := j
  simp only [StackId.key] at h
  have hp : p = p' := Fin.ext (by have := c.isLt; have := c'.isLt; omega)
  subst hp
  simp only [StackId.mk.injEq, true_and]
  exact Fin.ext (by omega)

theorem RegionId.key_inj {i j : RegionId} (h : i.key = j.key) : i = j := by
  obtain ⟨p, c⟩ := i; obtain ⟨p', c'⟩ := j
  simp only [RegionId.key] at h
  have hp : p = p' := Fin.ext (by have := c.isLt; have := c'.isLt; omega)
  subst hp
  simp only [RegionId.mk.injEq, true_and]
  exact Fin.ext (by omega)

theorem RouterId.key_inj {i j : RouterId} (h : i.key = j.key) : i = j := by
  obtain ⟨p, c⟩ := i; obtain ⟨p', c'⟩ := j
  simp only [RouterId.key] at h
  have hp : p = p' := Fin.ext (by have := c.isLt; have := c'.isLt; omega)
  subst hp
  simp only [RouterId.mk.injEq, true_and]
  exact Fin.ext (by omega)

theorem BankId.key_inj {i j : BankId} (h : i.key = j.key) : i = j := by
  obtain ⟨p, c⟩ := i; obtain ⟨p', c'⟩ := j
  simp only [BankId.key] at h
  have hp : p = p' := Fin.ext (by have := c.isLt; have := c'.isLt; omega)
  subst hp
  simp only [BankId.mk.injEq, true_and]
  exact Fin.ext (by omega)

/-! ### Registers -/

theorem State.reg_setReg (s : State) (a b : Nat) (v : Word) : (s.setReg a v).reg b = if b = a then v else s.reg b := by
  unfold State.reg State.setReg
  split
  · subst_vars; exact sget_sset_same _ _ _ _
  · rename_i h; exact sget_sset_other _ _ _ _ h

@[simp] theorem State.reg_setReg_same (s : State) (a : Nat) (v : Word) : (s.setReg a v).reg a = v := by
  simp [State.reg_setReg]

theorem State.reg_setReg_ne (s : State) {a b : Nat} (v : Word) (h : b ≠ a) : (s.setReg a v).reg b = s.reg b := by
  simp [State.reg_setReg, h]

/-- Everything that a hardware event of a W1C flag does: the flag is set, its counter adds one, no other register changes, and
nothing else does (R15). -/
theorem State.flag_spec (s : State) (a b : Nat) :
    ((s.flag a b).reg a = s.reg a ||| BitVec.ofNat 64 (2 ^ b)) ∧
    ((s.flag a b).reg (a + 8 + 8 * b) = s.reg (a + 8 + 8 * b) + 1) ∧
    (∀ c, c ≠ a → c ≠ a + 8 + 8 * b → (s.flag a b).reg c = s.reg c) ∧
    { s.flag a b with regs := s.regs } = s := by
  have h : a ≠ a + 8 + 8 * b := by omega
  refine ⟨?_, ?_, ?_, rfl⟩
  · unfold State.flag; rw [State.reg_setReg_ne _ _ h, State.reg_setReg_same]
  · unfold State.flag; rw [State.reg_setReg_same]
  · intro c h1 h2
    unfold State.flag
    rw [State.reg_setReg_ne _ _ h2, State.reg_setReg_ne _ _ h1]

/-! ### core -/

@[simp] theorem State.core_setCore_same (s : State) (i : CoreId) (x : CoreSt) : (s.setCore i x).core i = x := by
  simp [State.core, State.setCore]

theorem State.core_setCore_ne (s : State) {i j : CoreId} (x : CoreSt) (h : j ≠ i) : (s.setCore i x).core j = s.core j :=
  sget_sset_ne _ _ _ fun e => h (CoreId.key_inj e)

@[simp] theorem State.core_setReg (s : State) (i : CoreId) (a : Nat) (v : Word) : (s.setReg a v).core i = s.core i := rfl

@[simp] theorem State.core_modCore_same (s : State) (i : CoreId) (f : CoreSt → CoreSt) : (s.modCore i f).core i = f (s.core i) := by
  simp [State.modCore]

theorem State.core_modCore_ne (s : State) {i j : CoreId} (f : CoreSt → CoreSt) (h : j ≠ i) : (s.modCore i f).core j = s.core j :=
  State.core_setCore_ne s _ h

@[simp] theorem State.reg_modCore (s : State) (i : CoreId) (f : CoreSt → CoreSt) (a : Nat) : (s.modCore i f).reg a = s.reg a := rfl

@[simp] theorem State.reg_setCore (s : State) (i : CoreId) (x : CoreSt) (a : Nat) : (s.setCore i x).reg a = s.reg a := rfl

/-! ### hatch -/

@[simp] theorem State.hatch_setHatch_same (s : State) (i : HatchId) (x : HatchSt) : (s.setHatch i x).hatch i = x := by
  simp [State.hatch, State.setHatch]

theorem State.hatch_setHatch_ne (s : State) {i j : HatchId} (x : HatchSt) (h : j ≠ i) : (s.setHatch i x).hatch j = s.hatch j :=
  sget_sset_ne _ _ _ fun e => h (HatchId.key_inj e)

@[simp] theorem State.hatch_setReg (s : State) (i : HatchId) (a : Nat) (v : Word) : (s.setReg a v).hatch i = s.hatch i := rfl

@[simp] theorem State.hatch_modHatch_same (s : State) (i : HatchId) (f : HatchSt → HatchSt) : (s.modHatch i f).hatch i = f (s.hatch i) := by
  simp [State.modHatch]

theorem State.hatch_modHatch_ne (s : State) {i j : HatchId} (f : HatchSt → HatchSt) (h : j ≠ i) : (s.modHatch i f).hatch j = s.hatch j :=
  State.hatch_setHatch_ne s _ h

@[simp] theorem State.reg_modHatch (s : State) (i : HatchId) (f : HatchSt → HatchSt) (a : Nat) : (s.modHatch i f).reg a = s.reg a := rfl

@[simp] theorem State.reg_setHatch (s : State) (i : HatchId) (x : HatchSt) (a : Nat) : (s.setHatch i x).reg a = s.reg a := rfl

/-! ### stack -/

@[simp] theorem State.stack_setStack_same (s : State) (i : StackId) (x : StackSt) : (s.setStack i x).stack i = x := by
  simp [State.stack, State.setStack]

theorem State.stack_setStack_ne (s : State) {i j : StackId} (x : StackSt) (h : j ≠ i) : (s.setStack i x).stack j = s.stack j :=
  sget_sset_ne _ _ _ fun e => h (StackId.key_inj e)

@[simp] theorem State.stack_setReg (s : State) (i : StackId) (a : Nat) (v : Word) : (s.setReg a v).stack i = s.stack i := rfl

@[simp] theorem State.stack_modStack_same (s : State) (i : StackId) (f : StackSt → StackSt) : (s.modStack i f).stack i = f (s.stack i) := by
  simp [State.modStack]

theorem State.stack_modStack_ne (s : State) {i j : StackId} (f : StackSt → StackSt) (h : j ≠ i) : (s.modStack i f).stack j = s.stack j :=
  State.stack_setStack_ne s _ h

@[simp] theorem State.reg_modStack (s : State) (i : StackId) (f : StackSt → StackSt) (a : Nat) : (s.modStack i f).reg a = s.reg a := rfl

@[simp] theorem State.reg_setStack (s : State) (i : StackId) (x : StackSt) (a : Nat) : (s.setStack i x).reg a = s.reg a := rfl

/-! ### router -/

@[simp] theorem State.router_setRouter_same (s : State) (i : RouterId) (x : RouterSt) : (s.setRouter i x).router i = x := by
  simp [State.router, State.setRouter]

theorem State.router_setRouter_ne (s : State) {i j : RouterId} (x : RouterSt) (h : j ≠ i) : (s.setRouter i x).router j = s.router j :=
  sget_sset_ne _ _ _ fun e => h (RouterId.key_inj e)

@[simp] theorem State.router_setReg (s : State) (i : RouterId) (a : Nat) (v : Word) : (s.setReg a v).router i = s.router i := rfl

@[simp] theorem State.router_modRouter_same (s : State) (i : RouterId) (f : RouterSt → RouterSt) : (s.modRouter i f).router i = f (s.router i) := by
  simp [State.modRouter]

theorem State.router_modRouter_ne (s : State) {i j : RouterId} (f : RouterSt → RouterSt) (h : j ≠ i) : (s.modRouter i f).router j = s.router j :=
  State.router_setRouter_ne s _ h

@[simp] theorem State.reg_modRouter (s : State) (i : RouterId) (f : RouterSt → RouterSt) (a : Nat) : (s.modRouter i f).reg a = s.reg a := rfl

@[simp] theorem State.reg_setRouter (s : State) (i : RouterId) (x : RouterSt) (a : Nat) : (s.setRouter i x).reg a = s.reg a := rfl

/-! ### region -/

@[simp] theorem State.region_setRegion_same (s : State) (i : RegionId) (x : RegionSt) : (s.setRegion i x).region i = x := by
  simp [State.region, State.setRegion]

theorem State.region_setRegion_ne (s : State) {i j : RegionId} (x : RegionSt) (h : j ≠ i) : (s.setRegion i x).region j = s.region j :=
  sget_sset_ne _ _ _ fun e => h (RegionId.key_inj e)

@[simp] theorem State.region_setReg (s : State) (i : RegionId) (a : Nat) (v : Word) : (s.setReg a v).region i = s.region i := rfl

@[simp] theorem State.region_modRegion_same (s : State) (i : RegionId) (f : RegionSt → RegionSt) : (s.modRegion i f).region i = f (s.region i) := by
  simp [State.modRegion]

theorem State.region_modRegion_ne (s : State) {i j : RegionId} (f : RegionSt → RegionSt) (h : j ≠ i) : (s.modRegion i f).region j = s.region j :=
  State.region_setRegion_ne s _ h

@[simp] theorem State.reg_modRegion (s : State) (i : RegionId) (f : RegionSt → RegionSt) (a : Nat) : (s.modRegion i f).reg a = s.reg a := rfl

@[simp] theorem State.reg_setRegion (s : State) (i : RegionId) (x : RegionSt) (a : Nat) : (s.setRegion i x).reg a = s.reg a := rfl

/-! ### bank -/

@[simp] theorem State.bank_setBank_same (s : State) (i : BankId) (x : IoBankSt) : (s.setBank i x).bank i = x := by
  simp [State.bank, State.setBank]

theorem State.bank_setBank_ne (s : State) {i j : BankId} (x : IoBankSt) (h : j ≠ i) : (s.setBank i x).bank j = s.bank j :=
  sget_sset_ne _ _ _ fun e => h (BankId.key_inj e)

@[simp] theorem State.bank_setReg (s : State) (i : BankId) (a : Nat) (v : Word) : (s.setReg a v).bank i = s.bank i := rfl

@[simp] theorem State.reg_setBank (s : State) (i : BankId) (x : IoBankSt) (a : Nat) : (s.setBank i x).reg a = s.reg a := rfl

/-! ### plate -/

@[simp] theorem State.plate_setPlate_same (s : State) (i : Fin 8) (x : PlateSt) : (s.setPlate i x).plate i = x := by
  simp [State.plate, State.setPlate]

theorem State.plate_setPlate_ne (s : State) {i j : Fin 8} (x : PlateSt) (h : j ≠ i) : (s.setPlate i x).plate j = s.plate j :=
  sget_sset_ne _ _ _ fun e => h (Fin.ext e)

@[simp] theorem State.plate_setReg (s : State) (i : Fin 8) (a : Nat) (v : Word) : (s.setReg a v).plate i = s.plate i := rfl

@[simp] theorem State.plate_modPlate_same (s : State) (i : Fin 8) (f : PlateSt → PlateSt) : (s.modPlate i f).plate i = f (s.plate i) := by
  simp [State.modPlate]

theorem State.plate_modPlate_ne (s : State) {i j : Fin 8} (f : PlateSt → PlateSt) (h : j ≠ i) : (s.modPlate i f).plate j = s.plate j :=
  State.plate_setPlate_ne s _ h

@[simp] theorem State.reg_modPlate (s : State) (i : Fin 8) (f : PlateSt → PlateSt) (a : Nat) : (s.modPlate i f).reg a = s.reg a := rfl

@[simp] theorem State.reg_setPlate (s : State) (i : Fin 8) (x : PlateSt) (a : Nat) : (s.setPlate i x).reg a = s.reg a := rfl

/-! ### port -/

@[simp] theorem State.port_setPort_same (s : State) (i : Fin 10) (x : PortSt) : (s.setPort i x).port i = x := by
  simp [State.port, State.setPort]

theorem State.port_setPort_ne (s : State) {i j : Fin 10} (x : PortSt) (h : j ≠ i) : (s.setPort i x).port j = s.port j :=
  sget_sset_ne _ _ _ fun e => h (Fin.ext e)

@[simp] theorem State.port_setReg (s : State) (i : Fin 10) (a : Nat) (v : Word) : (s.setReg a v).port i = s.port i := rfl

@[simp] theorem State.port_modPort_same (s : State) (i : Fin 10) (f : PortSt → PortSt) : (s.modPort i f).port i = f (s.port i) := by
  simp [State.modPort]

theorem State.port_modPort_ne (s : State) {i j : Fin 10} (f : PortSt → PortSt) (h : j ≠ i) : (s.modPort i f).port j = s.port j :=
  State.port_setPort_ne s _ h

@[simp] theorem State.reg_modPort (s : State) (i : Fin 10) (f : PortSt → PortSt) (a : Nat) : (s.modPort i f).reg a = s.reg a := rfl

@[simp] theorem State.reg_setPort (s : State) (i : Fin 10) (x : PortSt) (a : Nat) : (s.setPort i x).reg a = s.reg a := rfl

/-! ### Reads of the other units -/

@[simp] theorem State.core_setHatch (s : State) (i : CoreId) (j : HatchId) (x : HatchSt) : (s.setHatch j x).core i = s.core i := rfl
@[simp] theorem State.core_modHatch (s : State) (i : CoreId) (j : HatchId) (f : HatchSt → HatchSt) : (s.modHatch j f).core i = s.core i := rfl
@[simp] theorem State.core_setStack (s : State) (i : CoreId) (j : StackId) (x : StackSt) : (s.setStack j x).core i = s.core i := rfl
@[simp] theorem State.core_modStack (s : State) (i : CoreId) (j : StackId) (f : StackSt → StackSt) : (s.modStack j f).core i = s.core i := rfl
@[simp] theorem State.core_setRouter (s : State) (i : CoreId) (j : RouterId) (x : RouterSt) : (s.setRouter j x).core i = s.core i := rfl
@[simp] theorem State.core_modRouter (s : State) (i : CoreId) (j : RouterId) (f : RouterSt → RouterSt) : (s.modRouter j f).core i = s.core i := rfl
@[simp] theorem State.core_setRegion (s : State) (i : CoreId) (j : RegionId) (x : RegionSt) : (s.setRegion j x).core i = s.core i := rfl
@[simp] theorem State.core_modRegion (s : State) (i : CoreId) (j : RegionId) (f : RegionSt → RegionSt) : (s.modRegion j f).core i = s.core i := rfl
@[simp] theorem State.core_setBank (s : State) (i : CoreId) (j : BankId) (x : IoBankSt) : (s.setBank j x).core i = s.core i := rfl
@[simp] theorem State.core_setPlate (s : State) (i : CoreId) (j : Fin 8) (x : PlateSt) : (s.setPlate j x).core i = s.core i := rfl
@[simp] theorem State.core_modPlate (s : State) (i : CoreId) (j : Fin 8) (f : PlateSt → PlateSt) : (s.modPlate j f).core i = s.core i := rfl
@[simp] theorem State.core_setPort (s : State) (i : CoreId) (j : Fin 10) (x : PortSt) : (s.setPort j x).core i = s.core i := rfl
@[simp] theorem State.core_modPort (s : State) (i : CoreId) (j : Fin 10) (f : PortSt → PortSt) : (s.modPort j f).core i = s.core i := rfl
@[simp] theorem State.core_modEngine (s : State) (i : CoreId) (f : EngineSt → EngineSt) : (s.modEngine f).core i = s.core i := rfl
@[simp] theorem State.core_modPair (s : State) (i : CoreId) (f : PairSt → PairSt) : (s.modPair f).core i = s.core i := rfl
@[simp] theorem State.core_modGfc (s : State) (i : CoreId) (f : GfcSt → GfcSt) : (s.modGfc f).core i = s.core i := rfl
@[simp] theorem State.core_modMgmt (s : State) (i : CoreId) (f : MgmtSt → MgmtSt) : (s.modMgmt f).core i = s.core i := rfl
@[simp] theorem State.core_modMod (s : State) (i : CoreId) (f : ModuleSt → ModuleSt) : (s.modMod f).core i = s.core i := rfl
@[simp] theorem State.core_modPins (s : State) (i : CoreId) (f : PinSt → PinSt) : (s.modPins f).core i = s.core i := rfl
@[simp] theorem State.core_modBoot (s : State) (i : CoreId) (f : BootSt → BootSt) : (s.modBoot f).core i = s.core i := rfl
@[simp] theorem State.hatch_setCore (s : State) (i : HatchId) (j : CoreId) (x : CoreSt) : (s.setCore j x).hatch i = s.hatch i := rfl
@[simp] theorem State.hatch_modCore (s : State) (i : HatchId) (j : CoreId) (f : CoreSt → CoreSt) : (s.modCore j f).hatch i = s.hatch i := rfl
@[simp] theorem State.hatch_setStack (s : State) (i : HatchId) (j : StackId) (x : StackSt) : (s.setStack j x).hatch i = s.hatch i := rfl
@[simp] theorem State.hatch_modStack (s : State) (i : HatchId) (j : StackId) (f : StackSt → StackSt) : (s.modStack j f).hatch i = s.hatch i := rfl
@[simp] theorem State.hatch_setRouter (s : State) (i : HatchId) (j : RouterId) (x : RouterSt) : (s.setRouter j x).hatch i = s.hatch i := rfl
@[simp] theorem State.hatch_modRouter (s : State) (i : HatchId) (j : RouterId) (f : RouterSt → RouterSt) : (s.modRouter j f).hatch i = s.hatch i := rfl
@[simp] theorem State.hatch_setRegion (s : State) (i : HatchId) (j : RegionId) (x : RegionSt) : (s.setRegion j x).hatch i = s.hatch i := rfl
@[simp] theorem State.hatch_modRegion (s : State) (i : HatchId) (j : RegionId) (f : RegionSt → RegionSt) : (s.modRegion j f).hatch i = s.hatch i := rfl
@[simp] theorem State.hatch_setBank (s : State) (i : HatchId) (j : BankId) (x : IoBankSt) : (s.setBank j x).hatch i = s.hatch i := rfl
@[simp] theorem State.hatch_setPlate (s : State) (i : HatchId) (j : Fin 8) (x : PlateSt) : (s.setPlate j x).hatch i = s.hatch i := rfl
@[simp] theorem State.hatch_modPlate (s : State) (i : HatchId) (j : Fin 8) (f : PlateSt → PlateSt) : (s.modPlate j f).hatch i = s.hatch i := rfl
@[simp] theorem State.hatch_setPort (s : State) (i : HatchId) (j : Fin 10) (x : PortSt) : (s.setPort j x).hatch i = s.hatch i := rfl
@[simp] theorem State.hatch_modPort (s : State) (i : HatchId) (j : Fin 10) (f : PortSt → PortSt) : (s.modPort j f).hatch i = s.hatch i := rfl
@[simp] theorem State.hatch_modEngine (s : State) (i : HatchId) (f : EngineSt → EngineSt) : (s.modEngine f).hatch i = s.hatch i := rfl
@[simp] theorem State.hatch_modPair (s : State) (i : HatchId) (f : PairSt → PairSt) : (s.modPair f).hatch i = s.hatch i := rfl
@[simp] theorem State.hatch_modGfc (s : State) (i : HatchId) (f : GfcSt → GfcSt) : (s.modGfc f).hatch i = s.hatch i := rfl
@[simp] theorem State.hatch_modMgmt (s : State) (i : HatchId) (f : MgmtSt → MgmtSt) : (s.modMgmt f).hatch i = s.hatch i := rfl
@[simp] theorem State.hatch_modMod (s : State) (i : HatchId) (f : ModuleSt → ModuleSt) : (s.modMod f).hatch i = s.hatch i := rfl
@[simp] theorem State.hatch_modPins (s : State) (i : HatchId) (f : PinSt → PinSt) : (s.modPins f).hatch i = s.hatch i := rfl
@[simp] theorem State.hatch_modBoot (s : State) (i : HatchId) (f : BootSt → BootSt) : (s.modBoot f).hatch i = s.hatch i := rfl
@[simp] theorem State.stack_setCore (s : State) (i : StackId) (j : CoreId) (x : CoreSt) : (s.setCore j x).stack i = s.stack i := rfl
@[simp] theorem State.stack_modCore (s : State) (i : StackId) (j : CoreId) (f : CoreSt → CoreSt) : (s.modCore j f).stack i = s.stack i := rfl
@[simp] theorem State.stack_setHatch (s : State) (i : StackId) (j : HatchId) (x : HatchSt) : (s.setHatch j x).stack i = s.stack i := rfl
@[simp] theorem State.stack_modHatch (s : State) (i : StackId) (j : HatchId) (f : HatchSt → HatchSt) : (s.modHatch j f).stack i = s.stack i := rfl
@[simp] theorem State.stack_setRouter (s : State) (i : StackId) (j : RouterId) (x : RouterSt) : (s.setRouter j x).stack i = s.stack i := rfl
@[simp] theorem State.stack_modRouter (s : State) (i : StackId) (j : RouterId) (f : RouterSt → RouterSt) : (s.modRouter j f).stack i = s.stack i := rfl
@[simp] theorem State.stack_setRegion (s : State) (i : StackId) (j : RegionId) (x : RegionSt) : (s.setRegion j x).stack i = s.stack i := rfl
@[simp] theorem State.stack_modRegion (s : State) (i : StackId) (j : RegionId) (f : RegionSt → RegionSt) : (s.modRegion j f).stack i = s.stack i := rfl
@[simp] theorem State.stack_setBank (s : State) (i : StackId) (j : BankId) (x : IoBankSt) : (s.setBank j x).stack i = s.stack i := rfl
@[simp] theorem State.stack_setPlate (s : State) (i : StackId) (j : Fin 8) (x : PlateSt) : (s.setPlate j x).stack i = s.stack i := rfl
@[simp] theorem State.stack_modPlate (s : State) (i : StackId) (j : Fin 8) (f : PlateSt → PlateSt) : (s.modPlate j f).stack i = s.stack i := rfl
@[simp] theorem State.stack_setPort (s : State) (i : StackId) (j : Fin 10) (x : PortSt) : (s.setPort j x).stack i = s.stack i := rfl
@[simp] theorem State.stack_modPort (s : State) (i : StackId) (j : Fin 10) (f : PortSt → PortSt) : (s.modPort j f).stack i = s.stack i := rfl
@[simp] theorem State.stack_modEngine (s : State) (i : StackId) (f : EngineSt → EngineSt) : (s.modEngine f).stack i = s.stack i := rfl
@[simp] theorem State.stack_modPair (s : State) (i : StackId) (f : PairSt → PairSt) : (s.modPair f).stack i = s.stack i := rfl
@[simp] theorem State.stack_modGfc (s : State) (i : StackId) (f : GfcSt → GfcSt) : (s.modGfc f).stack i = s.stack i := rfl
@[simp] theorem State.stack_modMgmt (s : State) (i : StackId) (f : MgmtSt → MgmtSt) : (s.modMgmt f).stack i = s.stack i := rfl
@[simp] theorem State.stack_modMod (s : State) (i : StackId) (f : ModuleSt → ModuleSt) : (s.modMod f).stack i = s.stack i := rfl
@[simp] theorem State.stack_modPins (s : State) (i : StackId) (f : PinSt → PinSt) : (s.modPins f).stack i = s.stack i := rfl
@[simp] theorem State.stack_modBoot (s : State) (i : StackId) (f : BootSt → BootSt) : (s.modBoot f).stack i = s.stack i := rfl
@[simp] theorem State.router_setCore (s : State) (i : RouterId) (j : CoreId) (x : CoreSt) : (s.setCore j x).router i = s.router i := rfl
@[simp] theorem State.router_modCore (s : State) (i : RouterId) (j : CoreId) (f : CoreSt → CoreSt) : (s.modCore j f).router i = s.router i := rfl
@[simp] theorem State.router_setHatch (s : State) (i : RouterId) (j : HatchId) (x : HatchSt) : (s.setHatch j x).router i = s.router i := rfl
@[simp] theorem State.router_modHatch (s : State) (i : RouterId) (j : HatchId) (f : HatchSt → HatchSt) : (s.modHatch j f).router i = s.router i := rfl
@[simp] theorem State.router_setStack (s : State) (i : RouterId) (j : StackId) (x : StackSt) : (s.setStack j x).router i = s.router i := rfl
@[simp] theorem State.router_modStack (s : State) (i : RouterId) (j : StackId) (f : StackSt → StackSt) : (s.modStack j f).router i = s.router i := rfl
@[simp] theorem State.router_setRegion (s : State) (i : RouterId) (j : RegionId) (x : RegionSt) : (s.setRegion j x).router i = s.router i := rfl
@[simp] theorem State.router_modRegion (s : State) (i : RouterId) (j : RegionId) (f : RegionSt → RegionSt) : (s.modRegion j f).router i = s.router i := rfl
@[simp] theorem State.router_setBank (s : State) (i : RouterId) (j : BankId) (x : IoBankSt) : (s.setBank j x).router i = s.router i := rfl
@[simp] theorem State.router_setPlate (s : State) (i : RouterId) (j : Fin 8) (x : PlateSt) : (s.setPlate j x).router i = s.router i := rfl
@[simp] theorem State.router_modPlate (s : State) (i : RouterId) (j : Fin 8) (f : PlateSt → PlateSt) : (s.modPlate j f).router i = s.router i := rfl
@[simp] theorem State.router_setPort (s : State) (i : RouterId) (j : Fin 10) (x : PortSt) : (s.setPort j x).router i = s.router i := rfl
@[simp] theorem State.router_modPort (s : State) (i : RouterId) (j : Fin 10) (f : PortSt → PortSt) : (s.modPort j f).router i = s.router i := rfl
@[simp] theorem State.router_modEngine (s : State) (i : RouterId) (f : EngineSt → EngineSt) : (s.modEngine f).router i = s.router i := rfl
@[simp] theorem State.router_modPair (s : State) (i : RouterId) (f : PairSt → PairSt) : (s.modPair f).router i = s.router i := rfl
@[simp] theorem State.router_modGfc (s : State) (i : RouterId) (f : GfcSt → GfcSt) : (s.modGfc f).router i = s.router i := rfl
@[simp] theorem State.router_modMgmt (s : State) (i : RouterId) (f : MgmtSt → MgmtSt) : (s.modMgmt f).router i = s.router i := rfl
@[simp] theorem State.router_modMod (s : State) (i : RouterId) (f : ModuleSt → ModuleSt) : (s.modMod f).router i = s.router i := rfl
@[simp] theorem State.router_modPins (s : State) (i : RouterId) (f : PinSt → PinSt) : (s.modPins f).router i = s.router i := rfl
@[simp] theorem State.router_modBoot (s : State) (i : RouterId) (f : BootSt → BootSt) : (s.modBoot f).router i = s.router i := rfl
@[simp] theorem State.region_setCore (s : State) (i : RegionId) (j : CoreId) (x : CoreSt) : (s.setCore j x).region i = s.region i := rfl
@[simp] theorem State.region_modCore (s : State) (i : RegionId) (j : CoreId) (f : CoreSt → CoreSt) : (s.modCore j f).region i = s.region i := rfl
@[simp] theorem State.region_setHatch (s : State) (i : RegionId) (j : HatchId) (x : HatchSt) : (s.setHatch j x).region i = s.region i := rfl
@[simp] theorem State.region_modHatch (s : State) (i : RegionId) (j : HatchId) (f : HatchSt → HatchSt) : (s.modHatch j f).region i = s.region i := rfl
@[simp] theorem State.region_setStack (s : State) (i : RegionId) (j : StackId) (x : StackSt) : (s.setStack j x).region i = s.region i := rfl
@[simp] theorem State.region_modStack (s : State) (i : RegionId) (j : StackId) (f : StackSt → StackSt) : (s.modStack j f).region i = s.region i := rfl
@[simp] theorem State.region_setRouter (s : State) (i : RegionId) (j : RouterId) (x : RouterSt) : (s.setRouter j x).region i = s.region i := rfl
@[simp] theorem State.region_modRouter (s : State) (i : RegionId) (j : RouterId) (f : RouterSt → RouterSt) : (s.modRouter j f).region i = s.region i := rfl
@[simp] theorem State.region_setBank (s : State) (i : RegionId) (j : BankId) (x : IoBankSt) : (s.setBank j x).region i = s.region i := rfl
@[simp] theorem State.region_setPlate (s : State) (i : RegionId) (j : Fin 8) (x : PlateSt) : (s.setPlate j x).region i = s.region i := rfl
@[simp] theorem State.region_modPlate (s : State) (i : RegionId) (j : Fin 8) (f : PlateSt → PlateSt) : (s.modPlate j f).region i = s.region i := rfl
@[simp] theorem State.region_setPort (s : State) (i : RegionId) (j : Fin 10) (x : PortSt) : (s.setPort j x).region i = s.region i := rfl
@[simp] theorem State.region_modPort (s : State) (i : RegionId) (j : Fin 10) (f : PortSt → PortSt) : (s.modPort j f).region i = s.region i := rfl
@[simp] theorem State.region_modEngine (s : State) (i : RegionId) (f : EngineSt → EngineSt) : (s.modEngine f).region i = s.region i := rfl
@[simp] theorem State.region_modPair (s : State) (i : RegionId) (f : PairSt → PairSt) : (s.modPair f).region i = s.region i := rfl
@[simp] theorem State.region_modGfc (s : State) (i : RegionId) (f : GfcSt → GfcSt) : (s.modGfc f).region i = s.region i := rfl
@[simp] theorem State.region_modMgmt (s : State) (i : RegionId) (f : MgmtSt → MgmtSt) : (s.modMgmt f).region i = s.region i := rfl
@[simp] theorem State.region_modMod (s : State) (i : RegionId) (f : ModuleSt → ModuleSt) : (s.modMod f).region i = s.region i := rfl
@[simp] theorem State.region_modPins (s : State) (i : RegionId) (f : PinSt → PinSt) : (s.modPins f).region i = s.region i := rfl
@[simp] theorem State.region_modBoot (s : State) (i : RegionId) (f : BootSt → BootSt) : (s.modBoot f).region i = s.region i := rfl
@[simp] theorem State.bank_setCore (s : State) (i : BankId) (j : CoreId) (x : CoreSt) : (s.setCore j x).bank i = s.bank i := rfl
@[simp] theorem State.bank_modCore (s : State) (i : BankId) (j : CoreId) (f : CoreSt → CoreSt) : (s.modCore j f).bank i = s.bank i := rfl
@[simp] theorem State.bank_setHatch (s : State) (i : BankId) (j : HatchId) (x : HatchSt) : (s.setHatch j x).bank i = s.bank i := rfl
@[simp] theorem State.bank_modHatch (s : State) (i : BankId) (j : HatchId) (f : HatchSt → HatchSt) : (s.modHatch j f).bank i = s.bank i := rfl
@[simp] theorem State.bank_setStack (s : State) (i : BankId) (j : StackId) (x : StackSt) : (s.setStack j x).bank i = s.bank i := rfl
@[simp] theorem State.bank_modStack (s : State) (i : BankId) (j : StackId) (f : StackSt → StackSt) : (s.modStack j f).bank i = s.bank i := rfl
@[simp] theorem State.bank_setRouter (s : State) (i : BankId) (j : RouterId) (x : RouterSt) : (s.setRouter j x).bank i = s.bank i := rfl
@[simp] theorem State.bank_modRouter (s : State) (i : BankId) (j : RouterId) (f : RouterSt → RouterSt) : (s.modRouter j f).bank i = s.bank i := rfl
@[simp] theorem State.bank_setRegion (s : State) (i : BankId) (j : RegionId) (x : RegionSt) : (s.setRegion j x).bank i = s.bank i := rfl
@[simp] theorem State.bank_modRegion (s : State) (i : BankId) (j : RegionId) (f : RegionSt → RegionSt) : (s.modRegion j f).bank i = s.bank i := rfl
@[simp] theorem State.bank_setPlate (s : State) (i : BankId) (j : Fin 8) (x : PlateSt) : (s.setPlate j x).bank i = s.bank i := rfl
@[simp] theorem State.bank_modPlate (s : State) (i : BankId) (j : Fin 8) (f : PlateSt → PlateSt) : (s.modPlate j f).bank i = s.bank i := rfl
@[simp] theorem State.bank_setPort (s : State) (i : BankId) (j : Fin 10) (x : PortSt) : (s.setPort j x).bank i = s.bank i := rfl
@[simp] theorem State.bank_modPort (s : State) (i : BankId) (j : Fin 10) (f : PortSt → PortSt) : (s.modPort j f).bank i = s.bank i := rfl
@[simp] theorem State.bank_modEngine (s : State) (i : BankId) (f : EngineSt → EngineSt) : (s.modEngine f).bank i = s.bank i := rfl
@[simp] theorem State.bank_modPair (s : State) (i : BankId) (f : PairSt → PairSt) : (s.modPair f).bank i = s.bank i := rfl
@[simp] theorem State.bank_modGfc (s : State) (i : BankId) (f : GfcSt → GfcSt) : (s.modGfc f).bank i = s.bank i := rfl
@[simp] theorem State.bank_modMgmt (s : State) (i : BankId) (f : MgmtSt → MgmtSt) : (s.modMgmt f).bank i = s.bank i := rfl
@[simp] theorem State.bank_modMod (s : State) (i : BankId) (f : ModuleSt → ModuleSt) : (s.modMod f).bank i = s.bank i := rfl
@[simp] theorem State.bank_modPins (s : State) (i : BankId) (f : PinSt → PinSt) : (s.modPins f).bank i = s.bank i := rfl
@[simp] theorem State.bank_modBoot (s : State) (i : BankId) (f : BootSt → BootSt) : (s.modBoot f).bank i = s.bank i := rfl
@[simp] theorem State.plate_setCore (s : State) (i : Fin 8) (j : CoreId) (x : CoreSt) : (s.setCore j x).plate i = s.plate i := rfl
@[simp] theorem State.plate_modCore (s : State) (i : Fin 8) (j : CoreId) (f : CoreSt → CoreSt) : (s.modCore j f).plate i = s.plate i := rfl
@[simp] theorem State.plate_setHatch (s : State) (i : Fin 8) (j : HatchId) (x : HatchSt) : (s.setHatch j x).plate i = s.plate i := rfl
@[simp] theorem State.plate_modHatch (s : State) (i : Fin 8) (j : HatchId) (f : HatchSt → HatchSt) : (s.modHatch j f).plate i = s.plate i := rfl
@[simp] theorem State.plate_setStack (s : State) (i : Fin 8) (j : StackId) (x : StackSt) : (s.setStack j x).plate i = s.plate i := rfl
@[simp] theorem State.plate_modStack (s : State) (i : Fin 8) (j : StackId) (f : StackSt → StackSt) : (s.modStack j f).plate i = s.plate i := rfl
@[simp] theorem State.plate_setRouter (s : State) (i : Fin 8) (j : RouterId) (x : RouterSt) : (s.setRouter j x).plate i = s.plate i := rfl
@[simp] theorem State.plate_modRouter (s : State) (i : Fin 8) (j : RouterId) (f : RouterSt → RouterSt) : (s.modRouter j f).plate i = s.plate i := rfl
@[simp] theorem State.plate_setRegion (s : State) (i : Fin 8) (j : RegionId) (x : RegionSt) : (s.setRegion j x).plate i = s.plate i := rfl
@[simp] theorem State.plate_modRegion (s : State) (i : Fin 8) (j : RegionId) (f : RegionSt → RegionSt) : (s.modRegion j f).plate i = s.plate i := rfl
@[simp] theorem State.plate_setBank (s : State) (i : Fin 8) (j : BankId) (x : IoBankSt) : (s.setBank j x).plate i = s.plate i := rfl
@[simp] theorem State.plate_setPort (s : State) (i : Fin 8) (j : Fin 10) (x : PortSt) : (s.setPort j x).plate i = s.plate i := rfl
@[simp] theorem State.plate_modPort (s : State) (i : Fin 8) (j : Fin 10) (f : PortSt → PortSt) : (s.modPort j f).plate i = s.plate i := rfl
@[simp] theorem State.plate_modEngine (s : State) (i : Fin 8) (f : EngineSt → EngineSt) : (s.modEngine f).plate i = s.plate i := rfl
@[simp] theorem State.plate_modPair (s : State) (i : Fin 8) (f : PairSt → PairSt) : (s.modPair f).plate i = s.plate i := rfl
@[simp] theorem State.plate_modGfc (s : State) (i : Fin 8) (f : GfcSt → GfcSt) : (s.modGfc f).plate i = s.plate i := rfl
@[simp] theorem State.plate_modMgmt (s : State) (i : Fin 8) (f : MgmtSt → MgmtSt) : (s.modMgmt f).plate i = s.plate i := rfl
@[simp] theorem State.plate_modMod (s : State) (i : Fin 8) (f : ModuleSt → ModuleSt) : (s.modMod f).plate i = s.plate i := rfl
@[simp] theorem State.plate_modPins (s : State) (i : Fin 8) (f : PinSt → PinSt) : (s.modPins f).plate i = s.plate i := rfl
@[simp] theorem State.plate_modBoot (s : State) (i : Fin 8) (f : BootSt → BootSt) : (s.modBoot f).plate i = s.plate i := rfl
@[simp] theorem State.port_setCore (s : State) (i : Fin 10) (j : CoreId) (x : CoreSt) : (s.setCore j x).port i = s.port i := rfl
@[simp] theorem State.port_modCore (s : State) (i : Fin 10) (j : CoreId) (f : CoreSt → CoreSt) : (s.modCore j f).port i = s.port i := rfl
@[simp] theorem State.port_setHatch (s : State) (i : Fin 10) (j : HatchId) (x : HatchSt) : (s.setHatch j x).port i = s.port i := rfl
@[simp] theorem State.port_modHatch (s : State) (i : Fin 10) (j : HatchId) (f : HatchSt → HatchSt) : (s.modHatch j f).port i = s.port i := rfl
@[simp] theorem State.port_setStack (s : State) (i : Fin 10) (j : StackId) (x : StackSt) : (s.setStack j x).port i = s.port i := rfl
@[simp] theorem State.port_modStack (s : State) (i : Fin 10) (j : StackId) (f : StackSt → StackSt) : (s.modStack j f).port i = s.port i := rfl
@[simp] theorem State.port_setRouter (s : State) (i : Fin 10) (j : RouterId) (x : RouterSt) : (s.setRouter j x).port i = s.port i := rfl
@[simp] theorem State.port_modRouter (s : State) (i : Fin 10) (j : RouterId) (f : RouterSt → RouterSt) : (s.modRouter j f).port i = s.port i := rfl
@[simp] theorem State.port_setRegion (s : State) (i : Fin 10) (j : RegionId) (x : RegionSt) : (s.setRegion j x).port i = s.port i := rfl
@[simp] theorem State.port_modRegion (s : State) (i : Fin 10) (j : RegionId) (f : RegionSt → RegionSt) : (s.modRegion j f).port i = s.port i := rfl
@[simp] theorem State.port_setBank (s : State) (i : Fin 10) (j : BankId) (x : IoBankSt) : (s.setBank j x).port i = s.port i := rfl
@[simp] theorem State.port_setPlate (s : State) (i : Fin 10) (j : Fin 8) (x : PlateSt) : (s.setPlate j x).port i = s.port i := rfl
@[simp] theorem State.port_modPlate (s : State) (i : Fin 10) (j : Fin 8) (f : PlateSt → PlateSt) : (s.modPlate j f).port i = s.port i := rfl
@[simp] theorem State.port_modEngine (s : State) (i : Fin 10) (f : EngineSt → EngineSt) : (s.modEngine f).port i = s.port i := rfl
@[simp] theorem State.port_modPair (s : State) (i : Fin 10) (f : PairSt → PairSt) : (s.modPair f).port i = s.port i := rfl
@[simp] theorem State.port_modGfc (s : State) (i : Fin 10) (f : GfcSt → GfcSt) : (s.modGfc f).port i = s.port i := rfl
@[simp] theorem State.port_modMgmt (s : State) (i : Fin 10) (f : MgmtSt → MgmtSt) : (s.modMgmt f).port i = s.port i := rfl
@[simp] theorem State.port_modMod (s : State) (i : Fin 10) (f : ModuleSt → ModuleSt) : (s.modMod f).port i = s.port i := rfl
@[simp] theorem State.port_modPins (s : State) (i : Fin 10) (f : PinSt → PinSt) : (s.modPins f).port i = s.port i := rfl
@[simp] theorem State.port_modBoot (s : State) (i : Fin 10) (f : BootSt → BootSt) : (s.modBoot f).port i = s.port i := rfl
@[simp] theorem State.reg_modEngine (s : State) (a : Nat) (f : EngineSt → EngineSt) : (s.modEngine f).reg a = s.reg a := rfl
@[simp] theorem State.reg_modPair (s : State) (a : Nat) (f : PairSt → PairSt) : (s.modPair f).reg a = s.reg a := rfl
@[simp] theorem State.reg_modGfc (s : State) (a : Nat) (f : GfcSt → GfcSt) : (s.modGfc f).reg a = s.reg a := rfl
@[simp] theorem State.reg_modMgmt (s : State) (a : Nat) (f : MgmtSt → MgmtSt) : (s.modMgmt f).reg a = s.reg a := rfl
@[simp] theorem State.reg_modMod (s : State) (a : Nat) (f : ModuleSt → ModuleSt) : (s.modMod f).reg a = s.reg a := rfl
@[simp] theorem State.reg_modPins (s : State) (a : Nat) (f : PinSt → PinSt) : (s.modPins f).reg a = s.reg a := rfl
@[simp] theorem State.reg_modBoot (s : State) (a : Nat) (f : BootSt → BootSt) : (s.modBoot f).reg a = s.reg a := rfl

/-! ### The outcome of a command -/

@[simp] theorem done_eq (s : State) : done s = .next (settle s) := rfl

/-- The outputs follow the state after every command (R568, R601). -/
theorem done_next {s t : State} (h : done s = .next t) : t = settle s := by
  simpa using h.symm

end Sys2Proof.Machine
end

