-- ==== Sys2Proof/Laws/Issue.lean ====
section
/-! SUPPORT. What issuing a bundle does, said once: the cores an issuer issues to are different ones, what the checks after an
operation leave alone in a sound core, and the issue of a bundle with an empty sync slot. -/
namespace Sys2Proof.Machine
open Sys2Proof.Laws

/-! ### Cores of an issuer -/

/-- Different logical indices name different cores. -/
theorem State.activeCores_nodup (s : State) (h : HatchId) : (s.activeCores h).Nodup := by
  unfold State.activeCores
  rw [List.Nodup, List.pairwise_filterMap]
  refine List.Pairwise.imp_of_mem ?_ (List.nodup_range (n := 8))
  intro a b _ _ hab x hx y hy hxy
  have h1 := List.find?_some (Option.mem_def.mp hx)
  have h2 := List.find?_some (Option.mem_def.mp hy)
  subst hxy
  simp only [Bool.and_eq_true, beq_iff_eq] at h1 h2
  exact hab (h1.2.symm.trans h2.2)

theorem State.coresOf_nodup (s : State) (q : Issuer) : (s.coresOf q).Nodup := by
  cases q with
  | hatch h => exact s.activeCores_nodup h
  | alone i => simp [State.coresOf]

/-! ### Folds that write one core each -/

/-- Cores written one by one: each listed core holds what was written, the others stay. -/
theorem core_foldl_setCore (l : List CoreId) (g : CoreId → CoreSt) (hl : l.Nodup) (s : State) (j : CoreId) :
    (l.foldl (fun (s : State) i => s.setCore i (g i)) s).core j = if j ∈ l then g j else s.core j := by
  induction l generalizing s with
  | nil => simp
  | cons i l ih =>
    have hi := List.nodup_cons.mp hl
    simp only [List.foldl_cons, ih hi.2, List.mem_cons]
    by_cases hj : j ∈ l
    · simp [hj]
    · by_cases he : j = i
      · subst he; simp [hj]
      · simp [hj, he, State.core_setCore_ne _ _ he]

/-- Nothing but the cores changes in such a fold. -/
theorem foldl_setCore_eq (l : List CoreId) (g : CoreId → CoreSt) (s : State) :
    l.foldl (fun (s : State) i => s.setCore i (g i)) s
      = { s with cores := (l.foldl (fun (s : State) i => s.setCore i (g i)) s).cores } := by
  induction l generalizing s with
  | nil => rfl
  | cons i l ih =>
    rw [List.foldl_cons, ih (s.setCore i (g i))]; rfl

/-! ### The checks after an operation -/

/-- A core without error marks: the checks of what was read find nothing and empty the list of reads. -/
theorem State.checkReads_sound (s : State) (i : CoreId) (n : Nat) (h1 : (s.core i).csMarks = []) (h2 : (s.core i).held = []) :
    s.checkReads i n = (s.setCore i { s.core i with rdLog := [] }, none) := by
  unfold State.checkReads
  simp only [h1, h2, List.filter_nil, List.foldl_nil, List.any_nil]
  rfl

theorem State.checkParity_sound (s : State) (i : CoreId) (rs : List (BitVec 2 × BitVec 5)) (n k : Nat) (h : (s.core i).vpar = []) :
    s.checkParity i rs n k = (s, false) := by
  unfold State.checkParity
  simp [h]

theorem State.checkPlate_sound (s : State) (i : CoreId) (h : (s.plate i.p).psMarks = []) : s.checkPlate i = s := by
  unfold State.checkPlate
  simp [h]

theorem afterCore_sound (q : Issuer) (b : Bundle) (n : Nat) (i : CoreId) (s : State) (r : Option (Option Nat))
    (hp : ∀ j, q = .alone j → (s.plate i.p).psMarks = []) (ha : (s.core i).alarms = []) (h1 : (s.core i).csMarks = []) (h2 : (s.core i).held = []) (h3 : (s.core i).vpar = []) :
    afterCore q b n i (s, r) = (s.setCore i { s.core i with rdLog := [] }, r) := by
  unfold afterCore
  cases q with
  | hatch h =>
    simp only [ha, List.isEmpty_nil, if_true, List.foldl_nil, State.checkParity_sound _ _ _ _ _ h3, State.checkReads_sound _ _ _ h1 h2]
    cases r <;> rfl
  | alone j =>
    simp only [ha, List.isEmpty_nil, if_true, List.foldl_nil, State.checkParity_sound _ _ _ _ _ h3,
      State.checkPlate_sound s i (hp j rfl), State.checkReads_sound _ _ _ h1 h2]
    cases r <;> rfl

/-- The checks over all cores of a bundle, when each is sound after it. -/
theorem foldl_afterCore_sound (q : Issuer) (b : Bundle) (n : Nat) (l : List CoreId) (hl : l.Nodup) (s : State)
    (r : Option (Option Nat)) (hp : ∀ i ∈ l, ∀ j, q = .alone j → (s.plate i.p).psMarks = [])
    (h : ∀ i ∈ l, (s.core i).alarms = [] ∧ (s.core i).csMarks = [] ∧ (s.core i).held = [] ∧ (s.core i).vpar = []) :
    l.foldl (fun r i => afterCore q b n i r) (s, r)
      = (l.foldl (fun (t : State) i => t.setCore i { s.core i with rdLog := [] }) s, r) := by
  have key : ∀ (l : List CoreId) (t : State), l.Nodup → t.plates = s.plates → (∀ i ∈ l, t.core i = s.core i) →
      (∀ i ∈ l, ∀ j, q = .alone j → (s.plate i.p).psMarks = []) →
      (∀ i ∈ l, (s.core i).alarms = [] ∧ (s.core i).csMarks = [] ∧ (s.core i).held = [] ∧ (s.core i).vpar = []) →
      l.foldl (fun r i => afterCore q b n i r) (t, r)
        = (l.foldl (fun (t : State) i => t.setCore i { s.core i with rdLog := [] }) t, r) := by
    intro l
    induction l with
    | nil => intros; rfl
    | cons i l ih =>
      intro t hl hpl ht hp h
      have hi := List.nodup_cons.mp hl
      obtain ⟨ha, h1, h2, h3⟩ := h i (List.mem_cons_self ..)
      have hc := ht i (List.mem_cons_self ..)
      rw [List.foldl_cons, List.foldl_cons, afterCore_sound q b n i t r
        (fun j hj => by rw [State.plate, hpl]; exact hp i (List.mem_cons_self ..) j hj) (hc ▸ ha) (hc ▸ h1) (hc ▸ h2) (hc ▸ h3), hc]
      refine ih _ hi.2 hpl (fun j hj => ?_) (fun j hj => hp j (List.mem_cons_of_mem _ hj)) fun j hj => h j (List.mem_cons_of_mem _ hj)
      rw [State.core_setCore_ne _ _ (by rintro rfl; exact hi.1 hj), ht j (List.mem_cons_of_mem _ hj)]
  exact key l s hl rfl (fun _ _ => rfl) hp h

/-! ### The issue of a bundle whose sync slot is empty -/

@[simp] theorem State.core_setSeq_sa (s : State) (q : Issuer) (x : SeqSt) (i : CoreId) :
    { (s.setSeq q x).core i with sa := (s.core i).sa } = s.core i := by
  cases q with
  | hatch h => rfl
  | alone j =>
    simp only [State.setSeq]
    by_cases h : i = j
    · subst h; simp
    · rw [State.core_modCore_ne _ _ h]

theorem State.core_setSeq_ne (s : State) (q : Issuer) (x : SeqSt) (i : CoreId) (h : i ∉ s.coresOf q) :
    (s.setSeq q x).core i = s.core i := by
  cases q with
  | hatch h => rfl
  | alone j =>
    simp only [State.coresOf, List.mem_singleton] at h
    exact State.core_modCore_ne _ _ h

@[simp] theorem State.seq_setSeq (s : State) (q : Issuer) (x : SeqSt) : (s.setSeq q x).seq q = x := by
  cases q <;> simp [State.setSeq, State.seq]

theorem onlyRegsPlates_trans {s t u : State} (h1 : ∃ r p, t = { s with regs := r, plates := p })
    (h2 : ∃ r p, u = { t with regs := r, plates := p }) : ∃ r p, u = { s with regs := r, plates := p } := by
  obtain ⟨r, p, rfl⟩ := h1
  obtain ⟨r', p', rfl⟩ := h2
  exact ⟨r', p', rfl⟩

theorem setRf_eq (s : State) (a lo n v : Nat) : ∃ r p, s.setRf a lo n v = { s with regs := r, plates := p } :=
  ⟨(s.setRf a lo n v).regs, s.plates, rfl⟩
theorem satRf_eq (s : State) (a lo n v : Nat) : ∃ r p, s.satRf a lo n v = { s with regs := r, plates := p } :=
  setRf_eq _ _ _ _ _
theorem psWrite_eq (s : State) (p : Fin 8) (a : Nat) (bs : List Byte) :
    ∃ r x, psWrite s p a bs = { s with regs := r, plates := x } := ⟨s.regs, (psWrite s p a bs).plates, rfl⟩

/-- A trace record changes plate store and the trace register, and nothing else (R298). -/
theorem traceRec_eq (s : State) (h : HatchId) (kind code : Nat) (tag : BitVec 32) (b : Nat) :
    ∃ r p, s.traceRec h kind code tag b = { s with regs := r, plates := p } := by
  unfold State.traceRec
  dsimp only
  split
  · split
    · exact onlyRegsPlates_trans (onlyRegsPlates_trans (psWrite_eq s h.p _ _) (setRf_eq _ _ _ _ _)) (satRf_eq _ _ _ _ _)
    · exact onlyRegsPlates_trans (psWrite_eq s h.p _ _) (setRf_eq _ _ _ _ _)
  · exact ⟨s.regs, s.plates, rfl⟩

theorem foldl_traceRec_eq (l : List Nat) (s : State) (h : HatchId) (kind code : Nat) (tag : State → BitVec 32) (b : Nat) :
    ∃ r p, l.foldl (fun (s : State) _ => s.traceRec h kind code (tag s) b) s = { s with regs := r, plates := p } := by
  induction l generalizing s with
  | nil => exact ⟨s.regs, s.plates, rfl⟩
  | cons a l ih =>
    rw [List.foldl_cons]
    obtain ⟨r, p, e⟩ := ih (s.traceRec h kind code (tag s) b)
    obtain ⟨r', p', e'⟩ := traceRec_eq s h kind code (tag s) b
    exact ⟨r, p, by rw [e, e']⟩

/-- What the sequencer's advance leaves: cores, hatch kernels and everything else but plate store, registers and the counter of free
values, which only trace records and free values change. -/
theorem seqGo_spec (s : State) (q : Issuer) (b : Bundle) (x : SeqSt) (c : Ctl) (hsync : b.sync = .nop) :
    ∃ hold r p fc, s.seqGo q b x c
        = { s.setSeq q { (x.advance c).1 with hold := hold, swap := none } with regs := r, plates := p, freeCtr := fc } ∧
      ((x.advance c).2 = 0 ∨ (∃ i, q = .alone i) → r = s.regs ∧ p = s.plates) := by
  unfold State.seqGo
  simp only [hsync]
  generalize holdAfter s q b (x.advance c).1.issued = hold
  have h0 : ∃ fc, (if takesFree q b = true then
      { s.setSeq q { (x.advance c).1 with hold := hold, swap := none } with
        freeCtr := (s.setSeq q { (x.advance c).1 with hold := hold, swap := none }).freeCtr + 4 }
      else s.setSeq q { (x.advance c).1 with hold := hold, swap := none })
      = { s.setSeq q { (x.advance c).1 with hold := hold, swap := none } with freeCtr := fc } := by
    split
    · exact ⟨_, rfl⟩
    · exact ⟨(s.setSeq q { (x.advance c).1 with hold := hold, swap := none }).freeCtr, rfl⟩
  obtain ⟨fc, e⟩ := h0
  rw [e]
  have hr : (s.setSeq q { (x.advance c).1 with hold := hold, swap := none }).regs = s.regs := by cases q <;> rfl
  have hp : (s.setSeq q { (x.advance c).1 with hold := hold, swap := none }).plates = s.plates := by cases q <;> rfl
  cases q with
  | alone i => exact ⟨hold, _, _, fc, rfl, fun _ => ⟨hr, hp⟩⟩
  | hatch h =>
    simp only [State.traceExits]
    by_cases hn : (x.advance c).2 = 0
    · rw [hn]
      exact ⟨hold, _, _, fc, rfl, fun _ => ⟨hr, hp⟩⟩
    · obtain ⟨r, p, e⟩ := foldl_traceRec_eq (List.range (x.advance c).2)
        { s.setSeq (.hatch h) { (x.advance c).1 with hold := hold, swap := none } with freeCtr := fc } h 3 0
        (fun s => s.tagQ (.hatch h)) x.pc
      exact ⟨hold, r, p, fc, e, fun h => h.elim (fun h => absurd h hn) fun ⟨_, h⟩ => by cases h⟩

theorem trySwap_none (s : State) (q : Issuer) (h : (s.seq q).swap = none) : s.trySwap q = s := by
  unfold State.trySwap; rw [h]

/-- Everything that issuing a bundle with an empty sync slot does, in cores that stay sound: `g` gives each core after its slots. -/
theorem issueGo_bare (u : State) (q : Issuer) (b : Bundle) (c : Ctl) (g : CoreId → CoreSt) (hsync : b.sync = .nop)
    (hok : ∀ i ∈ u.coresOf q, (g i).alarms = [] ∧ (g i).csMarks = [] ∧ (g i).held = [] ∧ (g i).vpar = [])
    (hsa : ∀ i ∈ u.coresOf q, (g i).sa = (u.core i).sa) (hplate : ∀ i, q = .alone i → (u.plate i.p).psMarks = []) :
    ∃ hold r p fc cs hs t, u.issueGo q b c ((u.coresOf q).map fun i => (i, { core := g i })) = t ∧
      t = { u with regs := r, plates := p, freeCtr := fc, cores := cs, hatches := hs } ∧
      (((u.seq q).advance c).2 = 0 → r = u.regs ∧ p = u.plates) ∧
      (∀ i ∈ u.coresOf q, { t.core i with sa := (u.core i).sa } = { g i with rdLog := [] }) ∧
      (∀ i, i ∉ u.coresOf q → t.core i = u.core i) ∧
      t.seq q = { ((u.seq q).advance c).1 with hold := hold, swap := none } ∧
      (∀ h, q ≠ .hatch h → t.hatch h = u.hatch h) ∧
      (∀ h, { t.hatch h with seq := (u.hatch h).seq } = u.hatch h) := by
  have hnd := u.coresOf_nodup q
  have h1 := core_foldl_setCore (u.coresOf q) g hnd u
  have h1e := foldl_setCore_eq (u.coresOf q) g u
  generalize hs1 : (u.coresOf q).foldl (fun (s : State) i => s.setCore i (g i)) u = s1 at h1 h1e
  obtain ⟨hold, r, p, fc, e2, hrp⟩ := seqGo_spec s1 q b (u.seq q) c hsync
  generalize hy : ({ ((u.seq q).advance c).1 with hold := hold, swap := none } : SeqSt) = y at e2
  generalize hs2 : s1.seqGo q b (u.seq q) c = s2 at e2
  have hseq : s2.seq q = y := by
    rw [e2]
    exact State.seq_setSeq s1 q y
  have hcore : ∀ i, s2.core i = (s1.setSeq q y).core i := fun i => by rw [e2]; rfl
  have hg : ∀ i ∈ u.coresOf q, { s2.core i with sa := (u.core i).sa } = g i := by
    intro i hi
    have := State.core_setSeq_sa s1 q y i
    rw [h1 i, if_pos hi, hsa i hi] at this
    rw [hcore]
    exact this
  have hok2 : ∀ i ∈ u.coresOf q, (s2.core i).alarms = [] ∧ (s2.core i).csMarks = [] ∧ (s2.core i).held = [] ∧ (s2.core i).vpar = [] := by
    intro i hi
    have e := hg i hi
    have o := hok i hi
    rw [← e] at o
    exact o
  have hp2 : ∀ i ∈ u.coresOf q, ∀ j, q = .alone j → (s2.plate i.p).psMarks = [] := by
    rintro i hi j rfl
    have e1 : s1.plates = u.plates := by rw [h1e]
    simp only [State.coresOf, List.mem_singleton] at hi
    have e3 : s2.plates = u.plates := by rw [e2]; exact (hrp (.inr ⟨j, rfl⟩)).2.trans e1
    rw [State.plate, e3, hi]
    exact hplate j rfl
  have hbusy : busyTables s2 (u.coresOf q) = false := by
    unfold busyTables
    rw [List.any_eq_false]
    intro i hi
    rw [(hok2 i hi).1]
    simp
  have hend : ∀ t : State, t.issueEnd q b false none = t := by
    intro t
    cases q <;> simp [State.issueEnd, hsync]
  have hfold : ((u.coresOf q).foldl (fun (t : State) i => t.setCore i { s2.core i with rdLog := [] }) s2).seq q = y := by
    cases q with
    | hatch h => rw [← hseq, foldl_setCore_eq]; rfl
    | alone j =>
      rw [← hseq]
      show (State.core _ j).sa = (s2.core j).sa
      rw [core_foldl_setCore _ _ hnd, if_pos (by simp [State.coresOf])]
  refine ⟨hold, r, p, fc, ((u.coresOf q).foldl (fun (t : State) i => t.setCore i { s2.core i with rdLog := [] }) s2).cores, s2.hatches,
    (u.coresOf q).foldl (fun (t : State) i => t.setCore i { s2.core i with rdLog := [] }) s2, ?_, ?_, ?_, ?_, ?_, ?_, ?_, ?_⟩
  · unfold State.issueGo
    simp only [hsync, List.foldl_map]
    rw [hs1, hs2, hbusy, foldl_afterCore_sound q b _ _ hnd s2 none hp2 hok2, trySwap_none _ _ (by rw [hfold, ← hy]), hend]
  · rw [foldl_setCore_eq]
    generalize (List.foldl _ s2 (u.coresOf q)).cores = cs
    rw [e2, h1e]
    cases q <;> rfl
  · intro h
    have := hrp (.inl h)
    rw [h1e] at this
    exact this
  · intro i hi
    rw [core_foldl_setCore _ _ hnd, if_pos hi, ← hg i hi]
  · intro i hi
    rw [core_foldl_setCore _ _ hnd, if_neg hi, hcore]
    have : s1.coresOf q = s1.coresOf q := rfl
    cases q with
    | hatch h => simp only [State.setSeq, State.core_modHatch]; rw [h1, if_neg hi]
    | alone j =>
      simp only [State.coresOf, List.mem_singleton] at hi
      simp only [State.setSeq]
      rw [State.core_modCore_ne _ _ hi, h1, if_neg (by simpa [State.coresOf] using hi)]
  · rw [hy, hfold]
  · intro h hq
    rw [foldl_setCore_eq]
    show s2.hatch h = _
    rw [e2]
    show (s1.setSeq q y).hatch h = _
    have : s1.hatch h = u.hatch h := by rw [h1e]; rfl
    rw [← this]
    cases q with
    | alone j => rfl
    | hatch k => exact State.hatch_modHatch_ne _ _ (by rintro rfl; exact hq rfl)
  · intro h
    rw [foldl_setCore_eq]
    show { s2.hatch h with seq := (u.hatch h).seq } = _
    rw [e2]
    show { (s1.setSeq q y).hatch h with seq := (u.hatch h).seq } = _
    have : s1.hatch h = u.hatch h := by rw [h1e]; rfl
    cases q with
    | alone j => simp only [State.setSeq, State.hatch_modCore, this]
    | hatch k =>
      simp only [State.setSeq]
      by_cases e : h = k
      · subst e; simp [this]
      · rw [State.hatch_modHatch_ne _ _ e, this]

/-- A ready issuer offers its bundle to `issueNow` as it stands. -/
theorem issueOne_ready (s : State) (q : Issuer) (b : Bundle) (h : IssueReady s q) (hsync : b.sync = .nop) :
    s.issueOne q b = (s.atIssue q).issueNow q b none := by
  unfold State.issueOne
  rw [if_pos (by simp [h.can, h.unheld, h.notEmpty, h.noGap]), if_neg (by have := h.inside; omega)]
  unfold State.tryIssue
  simp only []
  rw [trySwap_none _ _ h.noSwap, if_neg (by have := h.noSwap; simp only [State.atIssue] at this; rw [this]; simp)]
  rw [if_neg (by
    simp only [State.anyFull, Bool.not_eq_true, List.any_eq_false]
    intro i hi
    simp [h.room i hi])]
  have hw : waitOf (s.applyCycle q) q b = .go := by simp [waitOf, hsync]
  rw [hw]
  simp only [State.landStores, hsync]

theorem firstBad_none (l : List (Option (Nat × Nat))) (h : ∀ x ∈ l, x = none) : firstBad l = none := by
  have : l.filterMap id = [] := by
    rw [List.filterMap_eq_nil_iff]
    intro x hx
    rw [h x hx]; rfl
  unfold firstBad; rw [this]; rfl

theorem innermost_none (ls : List (Option LoopLv)) (h : ls.all (·.isNone) = true) : innermost ls = none := by
  have hk : ∀ k, nth none ls k = none := by
    intro k
    unfold nth
    cases e : ls[k]? with
    | none => rfl
    | some x =>
      have := List.all_eq_true.mp h x (List.mem_of_getElem? e)
      simpa [Option.isNone_iff_eq_none] using this
  unfold innermost
  simp [List.range, List.range.loop, hk]

/-- The sequencer after a bundle without a branch or a loop entry. -/
theorem advance_none (x : SeqSt) :
    (x.advance .none).1.cyc = x.cyc + 1 ∧ (x.advance .none).1.issued = x.issued + 1 ∧ (x.advance .none).1.held = none ∧
    (x.loops.all (·.isNone) = true →
      (x.advance .none).1.pc = x.pc + 1 ∧ (x.advance .none).1.loops = x.loops ∧ (x.advance .none).2 = 0) := by
  refine ⟨rfl, rfl, rfl, fun h => ?_⟩
  simp [SeqSt.advance, loopNext, innermost_none _ h]

/-- A row that offers a bundle with an empty sync slot issues it, when in each core its slots do what `g` says and leave the core
sound. -/
theorem issues_of {row : Instr} {s : State} {q : Issuer} {b : Bundle} {f : Env → CoreSt → CoreSt} {g : CoreId → CoreSt}
    (hexec : exec row s = done (s.issueOne q b)) (hr : IssueReady s q) (hsync : b.sync = .nop)
    (hctl : ctlOf (s.atIssue q) q b = .ok .none)
    (hrun : ∀ i ∈ (s.atIssue q).coresOf q,
      slotsRun (envOf (s.atIssue q) q i) ((s.atIssue q).checkedOn q) b none ((s.atIssue q).core i) = { core := g i })
    (hok : ∀ i ∈ (s.atIssue q).coresOf q, (g i).alarms = [] ∧ (g i).csMarks = [] ∧ (g i).held = [] ∧ (g i).vpar = [])
    (hsa : ∀ i ∈ (s.atIssue q).coresOf q, (g i).sa = ((s.atIssue q).core i).sa)
    (hf : ∀ i ∈ (s.atIssue q).coresOf q,
      f (envOf (s.atIssue q) q i) ((s.atIssue q).core i) = { g i with rdLog := [] }) :
    Issues row s q f := by
  have hone := issueOne_ready s q b hr hsync
  have hplate := hr.plateSound
  unfold Issues
  generalize s.atIssue q = u at *
  obtain ⟨hold, r, p, fc, cs, hs, t, e, ht, hrp, hin, hout, hseq, hh, hk⟩ := issueGo_bare u q b .none g hsync hok hsa hplate
  have hnow : u.issueNow q b none = t := by
    unfold State.issueNow
    have hall : slotsAll u q b none = (u.coresOf q).map fun i => (i, { core := g i }) := by
      unfold slotsAll
      refine List.map_congr_left fun i hi => ?_
      simp only [hsync, hrun i hi]
    simp only [hctl, hall]
    rw [firstBad_none _ (by
      intro x hx
      simp [syncCause, syncTrap, Slot.named, hsync] at hx
      obtain ⟨i, _, rfl⟩ | rfl := hx <;> rfl)]
    exact e
  obtain ⟨a1, a2, a3, a4⟩ := advance_none (u.seq q)
  refine ⟨settle t, by rw [hexec, hone, hnow]; rfl, fun i hi => ?_, fun i hi => ?_, ?_, ?_, ?_, fun hl => ?_⟩
  · rw [settle_core, hin i hi, hf i hi]
  · rw [settle_core, hout i hi]
  · show (t.seq q).cyc = _
    rw [hseq, ← a1]
  · show (t.seq q).issued = _
    rw [hseq, ← a2]
  · show (t.seq q).held = _
    rw [hseq, ← a3]
  · obtain ⟨b1, b2, b3⟩ := a4 hl
    obtain ⟨rfl, rfl⟩ := hrp b3
    refine ⟨?_, ?_, ?_⟩
    · show (t.seq q).pc = _
      rw [hseq, ← b1]
    · show (t.seq q).loops = _
      rw [hseq, ← b2]
    · subst ht
      exact ⟨rfl, rfl, rfl, hh, hk, rfl, rfl, ⟨rfl, rfl⟩, rfl, ⟨rfl, rfl⟩, rfl, rfl, rfl, rfl, rfl, rfl, rfl⟩

/-! ### One operation in one core -/

/-- Nothing under way: Checked mode finds no hazard (R271). -/
theorem hazard_still (c : CoreSt) (n : Nat) (x : Seen) (h : CoreStill c) : hazard c n [] x = none := by
  unfold hazard
  simp [h.pend, h.stores, h.vreg, queuedRanges, h.matrix.1, h.matrix.2, h.drain.1, h.drain.2.1, h.drain.2.2, readsAt]

/-- One slot that answers, where the monitor finds nothing. -/
theorem slot_ok (c0 c : CoreSt) (n : Nat) (seen : Seen) (trap : Seen → Option Nat) (f : CoreSt → SlotR) (hf : f c0 = .ok c)
    (ht : ∀ x, trap x = none) : SlotsR.slot { core := c0 } n true seen trap f = { core := c } := by
  unfold SlotsR.slot
  simp [hf, ht]

theorem trap_still (c0 : CoreSt) (chk : Bool) (n : Nat) (hs : chk = true → CoreStill c0) (x : Seen) :
    (if chk then hazard c0 n [] x else none) = none := by
  cases chk with
  | false => rfl
  | true => exact hazard_still _ _ _ (hs rfl)

/-- A bundle with one scalar operation (not a loop or branch that faults) in one core. -/
theorem slotsRun_scalar (e : Env) (chk : Bool) (o : SOp) (c0 c : CoreSt) (hf : scalarSlot e o c0 c0 = .ok c)
    (hs : chk = true → CoreStill c0) : slotsRun e chk { scalar := .op o } none c0 = { core := c } := by
  unfold slotsRun
  simp only [SlotsR.go, storesOf, ite_self, comboTap, Slot.named]
  exact slot_ok c0 c 0 _ _ _ hf fun x => trap_still c0 chk e.cyc hs x

theorem slotsRun_vector (e : Env) (chk : Bool) (o : BitVec 8) (f : VFields) (c0 c : CoreSt) (hf : vectorSlot e o f c0 c0 = .ok c)
    (hs : chk = true → CoreStill c0) : slotsRun e chk { vector := .op (o, f) } none c0 = { core := c } := by
  unfold slotsRun
  simp only [SlotsR.go, storesOf, ite_self, comboTap, Slot.named, Bool.and_false, Bool.false_eq_true, if_false]
  exact slot_ok c0 c 1 _ _ _ hf fun x => trap_still c0 chk e.cyc hs x

theorem slotsRun_matrix (e : Env) (chk : Bool) (o : MSlot) (c0 c : CoreSt) (hf : matrixSlot e o c0 c0 = .ok c)
    (hs : chk = true → CoreStill c0) : slotsRun e chk { matrix := .op o } none c0 = { core := c } := by
  unfold slotsRun
  simp only [SlotsR.go, storesOf, ite_self, comboTap, Slot.named, Bool.and_false, Bool.false_eq_true, if_false]
  exact slot_ok c0 c 2 _ _ _ hf fun x => trap_still c0 chk e.cyc hs x

theorem slotsRun_load (e : Env) (chk : Bool) (o : BitVec 5) (f : LFields) (c0 c : CoreSt) (hf : loadSlot e o f c0 c0 = .ok c)
    (hs : chk = true → CoreStill c0) : slotsRun e chk { load := .op (o, f) } none c0 = { core := c } := by
  unfold slotsRun
  simp only [SlotsR.go, storesOf, ite_self, comboTap, Slot.named, Bool.false_and, Bool.false_eq_true, if_false]
  exact slot_ok c0 c 3 _ _ _ hf fun x => trap_still c0 chk e.cyc hs x

theorem slotsRun_store (e : Env) (chk : Bool) (o : BitVec 5) (f : LFields) (c0 c : CoreSt) (hf : storeSlot e o f c0 c0 = .ok c)
    (hs : chk = true → CoreStill c0) : slotsRun e chk { store := .op (o, f) } none c0 = { core := c } := by
  unfold slotsRun
  simp only [SlotsR.go, comboTap, Slot.named, Bool.false_and, Bool.false_eq_true, if_false]
  exact slot_ok c0 c 4 _ _ _ hf fun x => trap_still c0 chk e.cyc hs x

/-- A core that is sound is sound after a result is queued; what a slot leaves is named once. -/
theorem later_sound (c : CoreSt) (e : Env) (lat : Nat) (t : Target) (g : Flags) (a b : Nat) (k : Option (BitVec 4))
    (h : CoreSound c) : (c.later e lat t g a b k).alarms = [] ∧ (c.later e lat t g a b k).csMarks = [] ∧
      (c.later e lat t g a b k).held = [] ∧ (c.later e lat t g a b k).vpar = [] ∧ (c.later e lat t g a b k).rdLog = [] ∧
      (c.later e lat t g a b k).sa = c.sa := ⟨h.alarms, h.store, h.held, h.parity, h.log, rfl⟩

/-- A row that queues one result in each core of its issuer. -/
theorem issues_later {row : Instr} {s : State} {q : Issuer} {b : Bundle} (w : Env → CoreSt → PendW)
    (hexec : exec row s = done (s.issueOne q b)) (hr : IssueReady s q) (hsync : b.sync = .nop)
    (hctl : ctlOf (s.atIssue q) q b = .ok .none)
    (hrun : ∀ e chk (c : CoreSt), (chk = true → CoreStill c) → slotsRun e chk b none c = { core := { c with pend := c.pend ++ [w e c] } }) :
    Issues row s q fun e c => { c with pend := c.pend ++ [w e c] } := by
  refine issues_of (g := fun i => { (s.atIssue q).core i with
      pend := ((s.atIssue q).core i).pend ++ [w (envOf (s.atIssue q) q i) ((s.atIssue q).core i)] })
    hexec hr hsync hctl (fun i hi => hrun _ _ _ fun h => hr.still h i hi) (fun i hi => ?_) (fun _ _ => rfl) fun i hi => ?_
  · have := hr.sound i hi
    exact ⟨this.alarms, this.store, this.held, this.parity⟩
  · have := (hr.sound i hi).log
    generalize (s.atIssue q).core i = c at *
    cases c; subst this; rfl

/-- A row that offers a bundle whose scalar slot steers the sequencer as `c` says. -/
theorem steers_of {row : Instr} {s : State} {q : Issuer} {b : Bundle} {y : SeqSt → SeqSt} (c : Ctl)
    (hexec : exec row s = done (s.issueOne q b)) (hr : IssueReady s q) (hsync : b.sync = .nop)
    (hctl : ctlOf (s.atIssue q) q b = .ok c)
    (hrun : ∀ i ∈ (s.atIssue q).coresOf q,
      slotsRun (envOf (s.atIssue q) q i) ((s.atIssue q).checkedOn q) b none ((s.atIssue q).core i)
        = { core := (s.atIssue q).core i })
    (hy : { (((s.atIssue q).seq q).advance c).1 with hold := ((s.atIssue q).seq q).hold, swap := none } = y ((s.atIssue q).seq q)) :
    Steers row s q y := by
  have hone := issueOne_ready s q b hr hsync
  have hs := hr.sound
  have hplate := hr.plateSound
  unfold Steers
  generalize s.atIssue q = u at *
  obtain ⟨hold, r, p, fc, cs, hs', t, e, ht, hrp, hin, hout, hseq, hh, hk⟩ := issueGo_bare u q b c (fun i => u.core i) hsync
    (fun i hi => ⟨(hs i hi).alarms, (hs i hi).store, (hs i hi).held, (hs i hi).parity⟩) (fun _ _ => rfl) hplate
  have hnow : u.issueNow q b none = t := by
    unfold State.issueNow
    have hall : slotsAll u q b none = (u.coresOf q).map fun i => (i, { core := u.core i }) := by
      unfold slotsAll
      refine List.map_congr_left fun i hi => ?_
      simp only [hsync, hrun i hi]
    simp only [hctl, hall]
    rw [firstBad_none _ (by
      intro x hx
      simp [syncCause, syncTrap, Slot.named, hsync] at hx
      obtain ⟨i, _, rfl⟩ | rfl := hx <;> rfl)]
    exact e
  refine ⟨settle t, by rw [hexec, hone, hnow]; rfl, fun i hi => ?_, fun i hi => ?_, ?_⟩
  · rw [settle_core, hin i hi]
    have := (hs i hi).log
    generalize u.core i = x at *
    cases x; subst this; rfl
  · rw [settle_core, hout i hi]
  · rw [← hy]
    show { t.seq q with hold := (u.seq q).hold } = _
    rw [hseq]

/-- A row whose slot answers in the cores at hand: each keeps its error marks clear, and `f` gives it. -/
theorem issues_at {row : Instr} {s : State} {q : Issuer} {b : Bundle} {f : Env → CoreSt → CoreSt}
    (hexec : exec row s = done (s.issueOne q b)) (hr : IssueReady s q) (hsync : b.sync = .nop)
    (hctl : ctlOf (s.atIssue q) q b = .ok .none)
    (hrun : ∀ i ∈ (s.atIssue q).coresOf q, ∃ c, ((s.atIssue q).checkedOn q = true → CoreStill ((s.atIssue q).core i)) →
      slotsRun (envOf (s.atIssue q) q i) ((s.atIssue q).checkedOn q) b none ((s.atIssue q).core i) = { core := c } ∧
      (c.alarms = [] ∧ c.csMarks = [] ∧ c.held = [] ∧ c.vpar = []) ∧ c.sa = ((s.atIssue q).core i).sa ∧
      f (envOf (s.atIssue q) q i) ((s.atIssue q).core i) = { c with rdLog := [] }) :
    Issues row s q f := by
  have h' : ∀ i, ∃ c, i ∈ (s.atIssue q).coresOf q →
      slotsRun (envOf (s.atIssue q) q i) ((s.atIssue q).checkedOn q) b none ((s.atIssue q).core i) = { core := c } ∧
      (c.alarms = [] ∧ c.csMarks = [] ∧ c.held = [] ∧ c.vpar = []) ∧ c.sa = ((s.atIssue q).core i).sa ∧
      f (envOf (s.atIssue q) q i) ((s.atIssue q).core i) = { c with rdLog := [] } := by
    intro i
    by_cases hi : i ∈ (s.atIssue q).coresOf q
    · obtain ⟨c, hc⟩ := hrun i hi
      exact ⟨c, fun _ => hc fun h => hr.still h i hi⟩
    · exact ⟨{}, fun h => absurd h hi⟩
  exact issues_of (g := fun i => (h' i).choose) hexec hr hsync hctl (fun i hi => ((h' i).choose_spec hi).1)
    (fun i hi => ((h' i).choose_spec hi).2.1) (fun i hi => ((h' i).choose_spec hi).2.2.1) fun i hi => ((h' i).choose_spec hi).2.2.2

end Sys2Proof.Machine
end

