-- ==== Sys2Proof/Laws/Stream.lean ====
section
/-! SUPPORT. What the body of an image spells: the key stream and the plaintext are one string, whatever part of it is asked for, and a
string xored with the key stream is read back. -/
namespace Sys2Proof.Laws
open Sys2Proof Sys2Proof.Machine

@[simp] theorem length_xorBytes (a b : List Byte) : (xorBytes a b).length = a.length := by simp [xorBytes]

theorem xorBytes_xorBytes (a b : List Byte) : xorBytes (xorBytes a b) b = a := by
  apply List.ext_getElem <;> simp [xorBytes, BitVec.xor_assoc]

theorem xorBytes_take (a b : List Byte) (m : Nat) : (xorBytes a b).take m = xorBytes (a.take m) (b.take m) := by
  apply List.ext_getElem
  · simp
  · intro i h _
    have hi : i < m := by simp at h; omega
    simp [xorBytes, nth, List.getElem?_take, hi]

@[simp] theorem length_slice (l : List Byte) (o n : Nat) : (slice l o n).length = n := by
  simp [slice] <;> omega

theorem slice_eq (l : List Byte) (o n : Nat) (h : o + n ≤ l.length) : slice l o n = (l.drop o).take n := by
  have : n - ((l.drop o).take n).length = 0 := by simp; omega
  simp only [slice, this, List.replicate_zero, List.append_nil]

@[simp] theorem length_readMem (m : SMap Byte) (a n : Nat) : (readMem m a n).length = n := by simp [readMem]

theorem readMem_take (m : SMap Byte) (a : Nat) {k n : Nat} (h : k ≤ n) : (readMem m a n).take k = readMem m a k := by
  apply List.ext_getElem
  · simp; omega
  · intros; simp [readMem]

@[simp] theorem length_beBytes (n v : Nat) : (beBytes n v).length = n := by simp [beBytes]

@[simp] theorem length_aesEnc (ks : List (List Nat)) (b : List Byte) : (aesEnc ks b).length = 16 := by simp [aesEnc, addKey]

@[simp] theorem length_gcmTag (key iv aad ct : List Byte) : (gcmTag key iv aad ct).length = 16 := by simp [gcmTag]

theorem length_blocks (f : Nat → List Byte) (h : ∀ j, (f j).length = 16) (n : Nat) : ((List.range n).flatMap f).length = 16 * n := by
  induction n with
  | zero => rfl
  | succ n ih => simp [List.range_succ, ih, h] <;> omega

theorem blocks_take (f : Nat → List Byte) (h : ∀ j, (f j).length = 16) {m n : Nat} (hm : m ≤ n) :
    ((List.range n).flatMap f).take (16 * m) = (List.range m).flatMap f := by
  induction hm with
  | refl => rw [List.take_of_length_le]; exact Nat.le_of_eq (length_blocks f h _)
  | step hm ih =>
    rw [List.range_succ, List.flatMap_append, List.take_append_of_le_length, ih]
    rw [length_blocks f h]; exact Nat.mul_le_mul_left _ hm

@[simp] theorem length_gcmStream (key iv : List Byte) (o n : Nat) : (gcmStream key iv o n).length = n := by simp [gcmStream]

/-- The key stream is one string: a shorter part of it begins a longer one. -/
theorem gcmStream_take (key iv : List Byte) (o : Nat) {m n : Nat} (h : m ≤ n) : (gcmStream key iv o n).take m = gcmStream key iv o m := by
  let f (j : Nat) : List Byte := aesEnc (roundKeys key) (iv ++ beBytes 4 (2 + o / 16 + j))
  have hf : ∀ j, (f j).length = 16 := fun j => length_aesEnc _ _
  have hm : (o + m + 15) / 16 - o / 16 ≤ (o + n + 15) / 16 - o / 16 := by omega
  show (slice ((List.range ((o + n + 15) / 16 - o / 16)).flatMap f) (o - 16 * (o / 16)) n).take m =
    slice ((List.range ((o + m + 15) / 16 - o / 16)).flatMap f) (o - 16 * (o / 16)) m
  rw [slice_eq _ _ _ (by rw [length_blocks f hf]; omega), slice_eq _ _ _ (by rw [length_blocks f hf]; omega),
    ← blocks_take f hf hm, List.take_take, Nat.min_eq_left h, List.drop_take, List.take_take]
  congr 1; omega

/-- A part of the key stream behind another, in the block where that one begins. -/
theorem gcmStream_drop (key iv : List Byte) (o n d : Nat) (h : (o + d) / 16 = o / 16) :
    (gcmStream key iv o (d + n)).drop d = gcmStream key iv (o + d) n := by
  let f (j : Nat) : List Byte := aesEnc (roundKeys key) (iv ++ beBytes 4 (2 + o / 16 + j))
  have hf : ∀ j, (f j).length = 16 := fun j => length_aesEnc _ _
  have he : gcmStream key iv (o + d) n = slice ((List.range ((o + d + n + 15) / 16 - o / 16)).flatMap f) (o + d - 16 * (o / 16)) n := by
    show slice _ _ _ = _
    simp only [h]; rfl
  rw [he]
  show (slice ((List.range ((o + (d + n) + 15) / 16 - o / 16)).flatMap f) (o - 16 * (o / 16)) (d + n)).drop d = _
  rw [slice_eq _ _ _ (by rw [length_blocks f hf]; omega), slice_eq _ _ _ (by rw [length_blocks f hf]; omega), List.drop_take, List.drop_drop,
    ← Nat.add_assoc o d n]
  congr 1
  · omega
  · congr 1; omega

@[simp] theorem bodyStream_zero (h key : List Byte) (i o n : Nat) : bodyStream h 0 key i o n = gcmStream key (segmentIv h i) o n := rfl

theorem length_bodyStream (h : List Byte) (k : Nat) (key : List Byte) (i o n : Nat) : (bodyStream h k key i o n).length = n := by
  induction k generalizing key i o n with
  | zero => simp
  | succ k ih => simp only [bodyStream, List.length_append, length_gcmStream, ih]; omega

theorem bodyStream_none (h : List Byte) (k : Nat) (key : List Byte) (i o : Nat) : bodyStream h k key i o 0 = [] :=
  List.length_eq_zero_iff.1 (length_bodyStream h k key i o 0)

/-- More segments than the part reaches change nothing. -/
theorem bodyStream_enough (h : List Byte) (k : Nat) (key : List Byte) (i o n : Nat) (hk : (o + n) / 2 ^ 26 ≤ k) (ho : o < 2 ^ 26) :
    bodyStream h (k + 1) key i o n = bodyStream h k key i o n := by
  induction k generalizing key i o n with
  | zero =>
    have : min n (2 ^ 26 - o) = n := by omega
    simp only [bodyStream, this, Nat.sub_self]
    rw [show gcmStream (nextKey (slice h 32 12) key i) (segmentIv h (i + 1)) 0 0 = [] from
      List.length_eq_zero_iff.1 (length_gcmStream _ _ 0 0), List.append_nil]
  | succ k ih =>
    rw [bodyStream, ih _ _ _ _ (by omega) (by omega)]
    rfl

theorem bodyStream_le (h : List Byte) {j k : Nat} (hj : j ≤ k) (key : List Byte) (i o n : Nat) (hk : (o + n) / 2 ^ 26 ≤ j) (ho : o < 2 ^ 26) :
    bodyStream h k key i o n = bodyStream h j key i o n := by
  induction hj with
  | refl => rfl
  | step hj ih => rw [bodyStream_enough h _ key i o n (Nat.le_trans hk hj) ho, ih]

theorem bodyStream_take (h : List Byte) (k : Nat) (key : List Byte) (i o : Nat) {m n : Nat} (hm : m ≤ n) :
    (bodyStream h k key i o n).take m = bodyStream h k key i o m := by
  induction k generalizing key i o m n with
  | zero => exact gcmStream_take key _ o hm
  | succ k ih =>
    simp only [bodyStream]
    rw [List.take_append, length_gcmStream, ih _ _ _ (by omega)]
    by_cases hr : m ≤ min n (2 ^ 26 - o)
    · rw [gcmStream_take _ _ _ hr, Nat.min_eq_left (by omega : m ≤ 2 ^ 26 - o), Nat.sub_eq_zero_of_le hr, Nat.sub_self]
    · rw [List.take_of_length_le (by rw [length_gcmStream]; omega), Nat.min_eq_right (by omega : 2 ^ 26 - o ≤ n),
        Nat.min_eq_right (by omega : 2 ^ 26 - o ≤ m)]

@[simp] theorem length_plain (s : State) (o n : Nat) : (s.plain o n).length = n := by simp [State.plain]

/-- What the body spells depends on where the stream stands and on the flash devices alone. -/
theorem plain_congr {s t : State} (hb : s.boot = t.boot) (hn : s.nv = t.nv) (o n : Nat) : s.plain o n = t.plain o n := by
  simp only [State.plain, State.flash, hb, hn]

/-- What the body spells further on is the rest of what it spells from where the stream stands. -/
theorem plain_drop (s : State) (o n : Nat) : s.plain o n = (s.plain 0 (o + n)).drop o := by
  simp only [State.plain, Nat.zero_add, Nat.add_zero, List.drop_zero, Nat.add_assoc]

theorem plain_take (s : State) {m n : Nat} (h : m ≤ n) : (s.plain 0 n).take m = s.plain 0 m := by
  simp only [State.plain, Nat.zero_add, Nat.add_zero, List.drop_zero]
  rw [xorBytes_take, readMem_take _ _ h, bodyStream_take _ _ _ _ _ h]
  congr 1
  exact bodyStream_le _ (Nat.div_le_div_right (by omega)) _ _ _ _ (Nat.le_refl _) (Nat.mod_lt _ (by decide))

/-- A body that holds a string xored with its key stream spells the string. -/
theorem plain_of_flash (s : State) (bs : List Byte)
    (h : readMem (s.flash s.boot.image) (0x8000 + s.boot.offset) bs.length = xorBytes bs
      (bodyStream (readMem (s.flash s.boot.image) 0 256) ((s.boot.offset % 2 ^ 26 + bs.length) / 2 ^ 26) s.boot.key (s.boot.offset / 2 ^ 26)
        (s.boot.offset % 2 ^ 26) bs.length)) :
    s.plain 0 bs.length = bs := by
  simp only [State.plain, Nat.zero_add, Nat.add_zero, List.drop_zero]
  rw [h, xorBytes_xorBytes]

/-- What the body spells, a command may be. -/
theorem spells_of_plain (s : State) (bs : List Byte) (h : s.plain 0 bs.length = bs) (hb : s.boot.offset + bs.length ≤ s.boot.bodyLen) :
    s.spells 0 bs = true := by
  simp only [State.spells, Nat.sub_zero]
  rw [List.take_of_length_le (by omega), h]
  exact beq_self_eq_true bs

theorem cmdWord_of_plain (s : State) (bs : List Byte) (h : s.plain 0 bs.length = bs) (hb : 4 ≤ bs.length) :
    s.cmdWord = leAt (bs.take 4) 0 4 := by
  rw [State.cmdWord, ← plain_take s hb, h]

end Sys2Proof.Laws
end

