-- ==== Sys2Proof/Laws/Vector.lean ====
section
/-! SUPPORT. Lanes of vector registers as the lane lists give them, and what the vector slot answers for an operation whose fields are in
order. -/
namespace Sys2Proof.Machine

theorem vmap_congr {mask : PReg} {f g : Nat → Cvt} (h : ∀ k < 128, f k = g k) : vmap mask f = vmap mask g := by
  have e : (List.range 128).map (fun k => if mask.toNat.testBit k then f k else { code := 0 })
      = (List.range 128).map (fun k => if mask.toNat.testBit k then g k else { code := 0 }) :=
    List.map_congr_left fun k hk => by rw [h k (List.mem_range.mp hk)]
  unfold vmap
  rw [e]

@[simp] theorem nth_lanesOf (v : VReg) (k : Nat) (h : k < 128) : nth 0 (lanesOf v) k = laneOf v k := by
  simp [nth, lanesOf, h, laneOf]

@[simp] theorem vOperands_mask (f : VFields) (c : CoreSt) : (vOperands f c).mask = c.p f.pred := rfl
theorem vOperands_a (f : VFields) (c : CoreSt) (k : Nat) (h : k < 128) : nth 0 (vOperands f c).a k = laneOf (c.v f.va) k :=
  nth_lanesOf _ _ h
theorem vOperands_c (f : VFields) (c : CoreSt) (k : Nat) (h : k < 128) : nth 0 (vOperands f c).c k = laneOf (c.v f.vc) k :=
  nth_lanesOf _ _ h
theorem vOperands_b (f : VFields) (c : CoreSt) (k : Nat) (h : k < 128) : nth 0 (vOperands f c).b k = laneB f c k := by
  unfold vOperands laneB
  cases f.sb with
  | true =>
    simp only [if_true]
    unfold nth
    rw [List.getElem?_replicate, if_pos h]
    rfl
  | false => exact nth_lanesOf _ _ h

/-- A vector result as a queued write-back. -/
theorem vOut_eq (e : Env) (f : VFields) (mask : PReg) (lat : Nat) (g : Nat → Cvt) (c : CoreSt) :
    vOut e f mask lat (vmap mask g) c = { c with pend := c.pend ++ [laneWrite f (e.cyc + lat) mask g] } := rfl

/-- A row of one vector operation queues its lanes, when the slot answers so in every core. -/
theorem queuesLanes_of {row : Instr} {s : State} {q : Issuer} {op : BitVec 8} {f : VFields} {lat : Nat}
    {g : Env → CoreSt → Nat → Cvt} (hexec : exec row s = done (s.issueOne q { vector := .op (op, f) })) (hr : IssueReady s q)
    (hf : ∀ e c, ∃ g', vectorSlot e op f c c = .ok (vOut e f (c.p f.pred) lat (vmap (c.p f.pred) g') c) ∧ ∀ k < 128, g' k = g e c k) :
    QueuesLanes row s q lat f g :=
  issues_later (fun e c => laneWrite f (e.cyc + lat) (c.p f.pred) (g e c)) hexec hr rfl rfl fun e chk c hs => by
    obtain ⟨g', h, hg⟩ := hf e c
    rw [slotsRun_vector e chk op f c _ h hs, vOut_eq]
    have : laneWrite f (e.cyc + lat) (c.p f.pred) g' = laneWrite f (e.cyc + lat) (c.p f.pred) (g e c) := by
      unfold laneWrite; rw [vmap_congr hg]
    rw [this]

/-- A row of one vector operation that queues a write of another kind. -/
theorem queues_vector {row : Instr} {s : State} {q : Issuer} {op : BitVec 8} {f : VFields} {lat : Nat} {tgt : Env → CoreSt → Target}
    (hexec : exec row s = done (s.issueOne q { vector := .op (op, f) })) (hr : IssueReady s q)
    (hf : ∀ e c, vectorSlot e op f c c = .ok (c.later e lat (tgt e c))) : Queues row s q lat tgt :=
  issues_later (fun e c => { due := e.cyc + lat, tgt := tgt e c }) hexec hr rfl rfl fun e chk c hs =>
    slotsRun_vector e chk op f c _ (hf e c) hs

end Sys2Proof.Machine
end

