-- ==== Sys2Proof/Tests/Slice0.lean ====
section
/-! SUPPORT. Tests: ill-formed terms, bundle words written out from the encoding tables, values that the manual gives, and for each
statement with hypotheses a state that meets them. -/
open Sys2Proof Sys2Proof.Machine Sys2Proof.Laws
namespace Sys2Proof.Tests
set_option Elab.async false

/-! ### Well-formed terms -/

theorem test_parcel_of_255_bytes_is_refused : (Instr.parcelReceive 0 (List.replicate 255 0)).wf = false := by decide +kernel
theorem test_parcel_of_256_bytes_is_accepted : (Instr.parcelReceive 0 (List.replicate 256 0)).wf = true := by decide +kernel
theorem test_line_of_127_bytes_is_refused : (Instr.regionNetWr ⟨0, 0⟩ 0 (List.replicate 127 0) 0 0).wf = false := by decide +kernel
theorem test_line_of_128_bytes_is_accepted : (Instr.regionNetWr ⟨0, 0⟩ 0 (List.replicate 128 0) 0 0).wf = true := by decide +kernel

/-! ### Bundle words -/

/-- A bundle from its six slots (Table 6.1). -/
def word (scalar : BitVec 32) (vector : BitVec 64) (matrix load store : BitVec 48) (sync : BitVec 16) : BitVec 256 :=
  scalar ++ vector ++ matrix ++ load ++ store ++ sync

theorem test_all_zero_bundle_is_empty : decodeBundle 0 = {} := by decide +kernel
/-- SADD s3, s1, s2 (Table 6.5, form R). -/
theorem test_word_sadd : decodeBundle (word (0x01#6 ++ 3#5 ++ 1#5 ++ 2#5 ++ 0#11) 0 0 0 0 0) = { scalar := .op (.alu 1 3 1 2) } := by
  decide +kernel
/-- A bit that form R marks 0. -/
theorem test_word_sadd_low_bit : (decodeBundle (word (0x01#6 ++ 3#5 ++ 1#5 ++ 2#5 ++ 1#11) 0 0 0 0 0)).scalar = .ill (.alu 1 3 1 2) := by decide +kernel
/-- SADDI s31, s1, −2 (form I). -/
theorem test_word_saddi : (decodeBundle (word (0x10#6 ++ 31#5 ++ 1#5 ++ 0xFFFE#16) 0 0 0 0 0)).scalar =
    .op (.alui 0x10 31 1 0xFFFE) := by decide +kernel
/-- SINS s4, halfword 3 (form H). -/
theorem test_word_sins : (decodeBundle (word (0x19#6 ++ 4#5 ++ 0#3 ++ 3#2 ++ 0xBEEF#16) 0 0 0 0 0)).scalar = .op (.sins 4 3 0xBEEF) := by
  decide +kernel
/-- SETCB cb7 (form C). -/
theorem test_word_setcb : (decodeBundle (word (0x21#6 ++ 7#3 ++ 0#2 ++ 5#5 ++ 6#5 ++ 0#11) 0 0 0 0 0)).scalar = .op (.setcb 7 5 6) := by
  decide +kernel
/-- LOOP and LOOPI (form L). -/
theorem test_word_loop : (decodeBundle (word (0x28#6 ++ 2#2 ++ 9#5 ++ 0#7 ++ 100#12) 0 0 0 0 0)).scalar = .op (.loop 2 9 100) := by
  decide +kernel
theorem test_word_loopi : (decodeBundle (word (0x29#6 ++ 3#2 ++ 4095#12 ++ 1#12) 0 0 0 0 0)).scalar = .op (.loopi 3 4095 1) := by
  decide +kernel
/-- BR with offset −1 (form B). -/
theorem test_word_br : (decodeBundle (word (0x30#6 ++ 8#5 ++ 1#3 ++ 0x3FFFF#18) 0 0 0 0 0)).scalar = .op (.br 1 8 0x3FFFF) := by
  decide +kernel
/-- VADD.binary32 v1, v2, v3 under p4 with SAT (Table 6.7). -/
theorem test_word_vadd :
    decodeBundle (word 0 (0x18#8 ++ 0#4 ++ 1#1 ++ 4#3 ++ 1#5 ++ 2#5 ++ 3#5 ++ 0#5 ++ 0#1 ++ 0#3 ++ 0#24) 0 0 0 0) =
      { vector := .op (0x18, { fmt := 0, sat := true, pred := 4, vd := 1, va := 2, vb := 3, vc := 0, sb := false, mod := 0, imm := 0 }) } := by
  decide +kernel
/-- MPASS with pair 2, EVEN and event 9 (Table 6.12). -/
theorem test_word_mpass :
    decodeBundle (word 0 0 (0x02#6 ++ 0#1 ++ 6#5 ++ 2#4 ++ 0#2 ++ 1#1 ++ 0#1 ++ 1#1 ++ 3#2 ++ 1#3 ++ 2#3 ++ 0#3 ++ 1#1 ++ 9#4 ++ 5#3 ++ 0#8) 0 0 0) =
      { matrix := .op (.pass { t := false, sp := 6, pair := 2, band := 0, neww := true, add := false, sat := true, set := 3, kpred := 1,
                               cpred := 2, nb := 0, even := true, ev := 9, acb := 5 }) } := by decide +kernel
/-- VDRAIN with function 1, WEN and event 2 (Table 6.14). -/
theorem test_word_vdrain :
    decodeBundle (word 0 0 (0x11#6 ++ 1#1 ++ 7#5 ++ 1#2 ++ 0#1 ++ 1#1 ++ 2#4 ++ 0#1 ++ 0#4 ++ 8#5 ++ 1#4 ++ 0#14) 0 0 0) =
      { matrix := .op (.drain .vdrain { t := true, sp := 7, set := 1, sat := false, wen := true, wev := 2, sen := false, sev := 0, sg := 8,
                                        low := 1#4 ++ 0#14 }) } := by decide +kernel
/-- VLD from K4 to binary32 with offset −1 and step 8 (Table 6.10). -/
theorem test_word_vld :
    decodeBundle (word 0 0 0 (1#5 ++ 9#5 ++ 2#3 ++ 3#3 ++ 8#4 ++ 0#4 ++ 0#1 ++ 0x7FF#11 ++ 8#12) 0 0) =
      { load := .op (1, { r := 9, pred := 2, cb := 3, mfmt := 8, rfmt := 0, sat := false, off := 0x7FF, step := 8 }) } := by decide +kernel
/-- PST p7 (Table 6.11). -/
theorem test_word_pst :
    decodeBundle (word 0 0 0 0 (4#5 ++ 7#5 ++ 0#3 ++ 1#3 ++ 0#4 ++ 0#4 ++ 0#1 ++ 0#11 ++ 1#12) 0) =
      { store := .op (4, { r := 7, pred := 0, cb := 1, mfmt := 0, rfmt := 0, sat := false, off := 0, step := 1 }) } := by decide +kernel
/-- EVSIG to the next core of the ring, and END (Table 6.16). -/
theorem test_word_evsig : decodeBundle (word 0 0 0 0 0 (2#5 ++ 0#6 ++ 1#1 ++ 5#4)) = { sync := .op (.evsig true 5) } := by decide +kernel
theorem test_word_end : decodeBundle (word 0 0 0 0 0 (0x1F#5 ++ 0#11)) = { sync := .op .endK } := by decide +kernel
/-- Sync opcode 0x0A is not assigned. -/
theorem test_word_sync_unassigned : (decodeBundle (word 0 0 0 0 0 (0x0A#5 ++ 0#11))).sync = .bad := by decide +kernel
/-- No row of the table has bits. -/
theorem test_no_word_spells_a_command : decodeTableWord 16 0x1234 = none := by decide +kernel

/-! ### States -/

/-- Hatch 0 and core 0 of plate 0, and their issuers. -/
abbrev h0 : HatchId := ⟨0, 0⟩
abbrev i0 : CoreId := ⟨0, 0⟩
abbrev qh : Issuer := .hatch h0
abbrev qa : Issuer := .alone i0

/-- No mode of a commission. -/
def plain : Modes := { det := false, keep := false, checked := false, kx4 := false, spill := 0 }

/-- A commission's name. -/
abbrev k0 : CmsnKey := { stream := 1, seq := 0 }

/-- A kernel of four bundles on eight cores. -/
def launch0 : Launch :=
  { kaddr := 0, klen := 4, entry := 0, tag := 0, modes := plain, ncore := 7, hidx := 0, hcnt := 1, prio := 0, pgroup := 0, mgroup := 0,
    pcount := 1, mcount := 1, binds := [], args := [], regions := [], key := none }

/-- A transfer of one tile of one row of 128 bytes to core-store address 0, in the layout of Table 7.3. -/
def desc : List (Nat × Byte) := [(16, 1), (18, 128), (24, 128), (28, 128), (32, 1), (35, 1), (36, 1), (38, 128)]

/-- A core with two events, buffers in both halves, a descriptor at address 0, a look-up table and registers s2 = 4, s3 = 128. -/
def core0 : CoreSt :=
  { sregs := [(2, 4), (3, 128)], events := [(3, 1)], cbs := [(0, { base := 0, len := 4096 }), (1, { base := 0x1000000, len := 4096 })],
    store := desc, actBank := 0 }

/-- Every link is up. -/
def meshUp : SMap RouterSt := (List.range 32).map fun k => (k, { up := [(0, 0xFF), (1, 0xFF), (2, 0xFF), (3, 0xFF)] })

/-- The state that a command answers. -/
def nextOf : Host.Outcome State Fault Refusal → Option State
  | .next t => some t
  | _ => none

/-- Hatch 0 runs the kernel, each of its cores as given. -/
def hot (c : CoreSt) : State :=
  { State.reset with routers := meshUp, hatches := [(h0.key, { run := some launch0 })], mod := { inReset := false }, cores := (List.range 8).map fun k => (k, c) }

/-- Core 0 runs a stand-alone program. -/
def lone (c : CoreSt) : State :=
  ({ State.reset with mod := { inReset := false }, routers := meshUp, cores := [(i0.key, c)] }.setReg (coreAt i0 0xA40) 0x100).setReg (hatchAt h0 0x50) 0x10

/-- What `IssueReady` asks, outside Checked mode, as facts that evaluate. -/
abbrev Ready (s : State) (q : Issuer) : Prop :=
  s.canIssue q = true ∧ (s.seq q).held = none ∧ (s.seq q).empty = 0 ∧ (s.seq q).gap = false ∧ (s.seq q).pc < s.klen q ∧ ((s.atIssue q).seq q).swap = none ∧
    (∀ i ∈ (s.atIssue q).coresOf q, queuesFull ((s.atIssue q).core i) = false) ∧
    (∀ i ∈ (s.atIssue q).coresOf q, let c := (s.atIssue q).core i
      c.csMarks = [] ∧ c.held = [] ∧ c.vpar = [] ∧ c.alarms = [] ∧ c.rdLog = []) ∧
    (match q with | .alone i => ((s.atIssue q).plate i.p).psMarks = [] | .hatch _ => True) ∧
    (s.atIssue q).checkedOn q = false ∧ (s.atIssue q).coresOf q ≠ []

theorem issueReady_of_ready {s : State} {q : Issuer} (h : Ready s q) : IssueReady s q := by
  obtain ⟨h1, h2, h3, hg, h4, h5, h6, h7, hp, h8, _⟩ := h
  refine ⟨h1, h2, h3, hg, h4, h5, h6, fun i hi => ?_, fun i hq => by subst hq; exact hp, fun h => by rw [h8] at h; cases h⟩
  obtain ⟨a, b, c, d, e⟩ := h7 i hi
  exact ⟨a, b, c, d, e⟩

theorem ready_hot : Ready (hot core0) qh := by decide +kernel
theorem ready_lone : Ready (lone core0) qa := by decide +kernel

/-- Fields of a vector operation in binary32. -/
def vf : VFields :=
  { fmt := 0, sat := false, pred := 0, vd := 1, va := 2, vb := 3, vc := 4, sb := false, mod := 0, imm := 0 }

theorem test_premises_ScalarOperations : IssueReady (hot core0) qh ∧ IssueReady (lone core0) qa ∧ (9#16).toNat < 10 ∧
    ((hot core0).hatch h0).run = some launch0 :=
  ⟨issueReady_of_ready ready_hot, issueReady_of_ready ready_lone, by decide, by decide +kernel⟩

theorem test_premises_LoopsAndBranches : IssueReady (hot core0) qh ∧
    (let u := (hot core0).atIssue qh
     let x := u.seq qh
     loopFits x.loops x.pc (u.klen qh) 0 3 = true ∧ u.coresOf qh ≠ [] ∧ (∀ i ∈ u.coresOf qh, ((u.core i).s 2).toNat % 2 ^ 32 = 4) ∧
     (x.pc : Int) + (3#18).toInt = (3 : Nat) ∧ 3 < u.klen qh ∧ (∀ i ∈ u.coresOf qh, brCond 2 ((u.core i).s 2) = some true) ∧
     (∀ i ∈ u.coresOf qh, brCond 1 ((u.core i).s 2) = some false)) :=
  ⟨issueReady_of_ready ready_hot, by decide +kernel⟩

theorem test_premises_VectorMovesAndLogic : IssueReady (hot core0) qh ∧ Fmt.ofCode vf.fmt = some .b32 ∧ fmtMove .b32 = true ∧
    vf.imm = 0 ∧ { vf with sb := true }.sb = true ∧ { vf with imm := 7 }.imm.toNat < 8 ∧ { vf with imm := 31 }.imm.toNat < 32 ∧
    Fmt.ofCode 8 = some .k4 ∧ Fmt.ofCode 9 = some .k5 ∧ Fmt.ofCode 10 = some .n4 :=
  ⟨issueReady_of_ready ready_hot, by decide +kernel⟩

theorem test_premises_ComparisonsAndPredicates : IssueReady (hot core0) qh ∧ Fmt.ofCode vf.fmt = some .b32 ∧ fmtMove .b32 = true ∧
    vf.imm = 0 ∧ { vf with vd := 7 }.vd.toNat < 8 ∧ { vf with sb := true }.sb = true :=
  ⟨issueReady_of_ready ready_hot, by decide +kernel⟩

theorem test_premises_VectorArithmetic : IssueReady (hot core0) qh ∧ Fmt.ofCode vf.fmt = some .b32 ∧ fmtMove .b32 = true ∧
    fmtFloat .b32 = true ∧ vf.imm = 0 ∧ Fmt.ofCode 5 = some .q31 ∧ Fmt.ofCode 6 = some .q15 ∧
    { vf with imm := 10 }.imm.toNat < 16 ∧ Fmt.ofCode ({ vf with imm := 10 }.imm.setWidth 4) = some .n4 :=
  ⟨issueReady_of_ready ready_hot, by decide +kernel⟩

theorem test_premises_RotationAndReductions : IssueReady (hot core0) qh ∧ Fmt.ofCode vf.fmt = some .b32 ∧ Fmt.ofCode 3 = some .s32 ∧
    { vf with imm := 127 }.imm.toNat < 128 ∧ vf.imm = 0 :=
  ⟨issueReady_of_ready ready_hot, by decide +kernel⟩

theorem test_premises_FilterTap : IssueReady (hot core0) qh ∧ fmtFloat .b32 = true ∧ { vf with imm := 8 }.imm.toNat < 64 ∧
    (∀ i ∈ ((hot core0).atIssue qh).coresOf qh, let c := ((hot core0).atIssue qh).core i
      let h := c.cb ((8#24).setWidth 3)
      let d := c.cb ((8#24 >>> 3).setWidth 3)
      (h.base.toNat % 128 = 0 ∧ h.len ≠ 0 ∧ h.len.toNat % 128 = 0) ∧ (d.base.toNat % 128 = 0 ∧ d.len ≠ 0 ∧ d.len.toNat % 128 = 0) ∧
        h.base.toNat + h.len.toNat ≤ 0x1000000 ∧ 0x1000000 ≤ d.base.toNat ∧ d.base.toNat + d.len.toNat ≤ storeSize) :=
  ⟨issueReady_of_ready ready_hot, by decide +kernel⟩

/-- Bank 0 of table T0 is active and holds a look-up table. -/
def core1 : CoreSt := { core0 with tables := [(0, { hdr := 2 ^ 115 })] }

theorem test_premises_SpecialFunctions : IssueReady (hot core0) qh ∧ Ready (hot core1) qh ∧ fmtFloat .b32 = true ∧ fmtMove .s32 = true ∧
    Fmt.ofCode ({ vf with imm := 1 }.imm.setWidth 4) = some .t16 ∧ fmtFloat .t16 = true ∧
    (∀ i ∈ ((hot core0).atIssue qh).coresOf qh, hdrLut ((((hot core0).atIssue qh).core i).activeBank (BitVec.ofNat 2 (49 / 16))).hdr = false) ∧
    (∀ i ∈ ((hot core1).atIssue qh).coresOf qh, hdrLut ((((hot core1).atIssue qh).core i).activeBank (BitVec.ofNat 2 0)).hdr = true) :=
  ⟨issueReady_of_ready ready_hot, by decide +kernel⟩

theorem test_premises_Statistics : IssueReady (hot core0) qh ∧ fmtFloat .b32 = true ∧ { vf with imm := 3 }.imm.toNat < 4 :=
  ⟨issueReady_of_ready ready_hot, by decide +kernel⟩

/-- Fields of a load or store through buffer 0, in binary32. -/
def lf : LFields := { r := 3, pred := 0, cb := 0, mfmt := 0, rfmt := 0, sat := false, off := 0, step := 8 }

theorem test_premises_LoadOperations : IssueReady (hot core0) qh ∧ IssueReady (lone core0) qa ∧ plainFields lf = true ∧
    Demand (hot core0) qh (CanReach lf 4096) ∧ Demand (lone core0) qa (CanReach { lf with r := 7 } 16) ∧
    Demand (hot core0) qh (fun _ c => (c.cb lf.cb).ok = true ∧ (c.cb lf.cb).addr (atOf lf) % 128 = 0 ∧
      c.active1 ((7#5).setWidth 2) ≠ (7#5).toNat.testBit 2) := by
  refine ⟨issueReady_of_ready ready_hot, issueReady_of_ready ready_lone, by decide, ?_⟩
  unfold Demand CanReach
  decide +kernel

/-- The same descriptor with FRING's pair bit, and its second descriptor. -/
def core2 : CoreSt := { core0 with store := desc.take 8 ++ [(41, 32)] ++ desc.map fun x => (64 + x.1, x.2) }

theorem test_premises_Transfers : IssueReady (hot core0) qh ∧ Ready (hot core2) qh ∧
    Demand (hot core0) qh (fun _ c => (c.s 0).toNat % 64 = 0 ∧ (c.s 0).toNat + 64 ≤ storeSize ∧ xdescZeros (c.rd (c.s 0).toNat 64) = true ∧
      (xdescOf (c.rd (c.s 0).toNat 64)).ok false = true ∧ (xdescOf (c.rd (c.s 0).toNat 64)).ok true = true ∧
      (xdescOf (c.rd (c.s 0).toNat 64)).pair = false) ∧
    Demand (hot core2) qh (fun _ c => xdescZeros (c.rd 0 64) = true ∧ (xdescOf (c.rd 0 64)).ok false = true ∧
      (xdescOf (c.rd 0 64)).pair = true ∧ xdescZeros (c.rd 64 64) = true ∧ (xdescOf (c.rd 64 64)).ok false = true ∧
      (xdescOf (c.rd 64 64)).pair = false ∧ (xdescOf (c.rd 64 64)).tiles = (xdescOf (c.rd 0 64)).tiles) := by
  refine ⟨issueReady_of_ready ready_hot, ?_⟩
  unfold Demand
  decide +kernel

theorem test_premises_StoreOperations : IssueReady (hot core0) qh ∧ plainFields lf = true ∧
    Demand (hot core0) qh (fun e c => CanReach lf 4096 e c ∧ (c.cb lf.cb).addr (atOf lf) % 128 = 0) ∧
    scaledOf 0xB = some .k4 ∧ fmtFloat .b32 = true ∧
    Demand (hot core0) qh (fun _ c => (c.cb lf.cb).ok = true ∧ bitsOf (c.s 2) 61 3 = 0) := by
  refine ⟨issueReady_of_ready ready_hot, by decide, ?_⟩
  unfold Demand CanReach
  decide +kernel

/-- MWLOAD and MPASS with K4 weights in square mode, of one row with the parameter word in s4, and a range of one row of 128 in s5. -/
def core3 : CoreSt := { core0 with sregs := [(2, 4), (3, 128), (4, 1), (5, 2 ^ 15 + 128 * 2 ^ 27), (6, 0x3F800000)] }
def mw : MwFields := { t := false, sp := 0, pair := 1, band := 0, step := true, kpred := 0, wcb := 0, nb := 0, cols := 127 }
def mp : MpFields :=
  { t := false, sp := 4, pair := 1, band := 0, neww := false, add := false, sat := false, set := 0, kpred := 0, cpred := 0, nb := 0,
    even := false, ev := 0, acb := 0 }
def af (low : BitVec 18) : AFields :=
  { t := false, sp := 5, set := 0, sat := false, wen := true, wev := 3, sen := false, sev := 0, sg := 6, low }

theorem test_premises_QueuedOperations : IssueReady (hot core3) qh ∧ (∃ x, pairFmts mw.pair = some x) ∧
    ((1 : BitVec 3).toNat + 1 ≤ 2 ^ (1 : BitVec 2).toNat) ∧
    (∀ e c sp, paramWord e c false sp = .ok (wordOf e c false sp)) ∧
    Demand (hot core3) qh (fun e c => bitsOf (wordOf e c false 0) 26 38 = 0 ∧ (c.cb mw.wcb).ok = true) ∧
    Demand (hot core3) qh (fun e c => let p := wordOf e c false 4
      bitsOf p 58 6 = 0 ∧ (c.cb mp.acb).ok = true ∧ bitsOf p 0 16 = 1 ∧ bitsOf p 16 15 = 0) ∧
    (∀ code ∈ [DCode.aclr, .asave, .aload, .achainSend, .achainRecv, .fdrain, .vdrain, .sreset, .smax, .sexp, .sscale, .sfin],
      aFieldsOk code (af 0) = true ∧ Demand (hot core3) qh fun e c => aValuesOk code (af 0) (wordOf e c false 5) ((c.s 6).setWidth 32) (c.s 7)
          (c.cb (rngOf (wordOf e c false 5)).dcb) (c.cb 0) = true) := by
  refine ⟨issueReady_of_ready (by decide +kernel), ⟨_, rfl⟩, by decide, fun _ _ _ => rfl, ?_⟩
  unfold Demand
  decide +kernel

/-- Hatch 0 with its run state changed. -/
def withHatch (f : HatchSt → HatchSt) : State := (hot core0).modHatch h0 f

/-- Tracing with kind 6 into a ring of 32 bytes that has one record. -/
def traced (next : Nat) : State :=
  ((hot core0).setReg (hatchAt h0 0x40) (BitVec.ofNat 64 (0x41 + 2 ^ 8 * next))).setReg (hatchAt h0 0x48) (BitVec.ofNat 64 (2 ^ 32 * 0xB000000 + 32))

theorem test_premises_EventsAndTrace :
    (let u := (hot core0).atIssue qh
     (∀ i ∈ u.coresOf qh, (u.core i).ev 3 ≠ 0) ∧ (∃ i ∈ u.coresOf qh, (u.core i).ev 0 = 0) ∧
     (u.activeCores h0).map u.lidx = List.range (u.activeCores h0).length ∧ (∀ i ∈ u.coresOf qh, swapReady (u.core i) 1 = true) ∧
     (u.seq qh).loops.all (·.isNone) = true) ∧
    (let c : CoreSt := { core0 with tloads := [{ t := 1, bank := true, data := {} }] }
     Ready (hot c) qh ∧ ∃ i ∈ ((hot c).atIssue qh).coresOf qh, swapReady (((hot c).atIssue qh).core i) 1 = false) ∧
    Ready (traced 0) qh ∧ Ready (traced 1) qh ∧
    (∀ n ∈ [0, 1], let u := (traced n).atIssue qh
      bitOf (u.reg (hatchAt h0 0x40)) 0 = true ∧ bitOf (u.reg (hatchAt h0 0x40)) 6 = true ∧ bitsOf (u.reg (hatchAt h0 0x48)) 0 32 = 32) ∧
    bitOf ((hot core0).reg (hatchAt h0 0x40)) 0 = false := by decide +kernel

/-- Hatch 0 with a commission of module group and an arrived barrier. -/
def arrived (release : Bool) : State :=
  withHatch fun x => { x with run := some { launch0 with key := some k0, mcount := 2 }, seq := { arrived := true, release } }

theorem test_premises_BarriersHoldAndRelease :
    IssueReady (hot core0) qh ∧ IssueReady (arrived true) qh ∧ Written (hot core0) h0 ∧ Written (arrived true) h0 ∧
    (let c : CoreSt := { core0 with ringIn := [{ dst := 0, bytes := [], tile := 0 }] }
     Ready (hot c) qh ∧ ∃ i ∈ ((hot c).atIssue qh).coresOf qh, writesDone (((hot c).atIssue qh).core i) = false) ∧
    (((hot core0).atIssue qh).seq qh).arrived = false ∧ (((arrived true).atIssue qh).seq qh).release = true ∧
    (let s := (arrived false).setInbox (hatchEpAddr h0) [{ route := 0, kind := 11, src := 0, dst := 0, vc1 := false, nonW := false, load := .brel }]
     (∃ pk ∈ s.inboxOf (hatchEpAddr h0), pk.kind = 11) ∧ (s.hatch h0).seq.arrived = true) := by
  refine ⟨issueReady_of_ready ready_hot, issueReady_of_ready (by decide +kernel), ?_⟩
  unfold Written Demand
  decide +kernel

/-- A BARR of hatch 0 waits at the barrier agent of plate 0, whose counter stands as given. -/
def barrAt (s : State) (x : BarSt) : State :=
  (s.setBar (some 0) 0 x).setInbox (agentEp 0) [{ route := 0, kind := 10, src := 0, dst := 0, vc1 := false, nonW := false,
                                                  load := .barr false 0 2 (some k0) h0 }]

theorem test_premises_BarriersCount :
    (∀ x ∈ [{}, { count := 2, arrived := [⟨0, 1⟩] }, { count := 3, arrived := [⟨0, 1⟩] }], let s := barrAt (arrived false) x
      ((s.inboxOf (agentEp 0)).find? fun pk => pk.kind == 10).map (·.load) = some (.barr false 0 2 (some k0) h0) ∧
        (s.hatch h0).run.map (·.key) = some (some k0) ∧ (s.hatch h0).seq.arrived = true ∧ s.bar (some 0) 0 = x) ∧
    (let s := barrAt (hot core0) {}
     ((s.inboxOf (agentEp 0)).find? fun pk => pk.kind == 10).isSome = true ∧ (s.hatch h0).seq.arrived = false) := by decide +kernel

/-- Queue 0 of plate 0, with hatch 0 as its producer, or its consumer, and its lists as given. -/
def queued (prod : Bool) (x : HqSt) (s : State) : State :=
  ((s.setReg (queueAt 0 0 8) (BitVec.ofNat 64 (2 ^ 25 + (if prod then 0xFF00 else 0xFF) + 2 ^ 16 + 2 ^ 48))).setHq 0 0 x)

/-- Hatch 0 runs the kernel for a commission. -/
def keyed : State := withHatch fun x => { x with run := some { launch0 with key := some k0 } }

theorem test_premises_HandleQueueOperations :
    (let s := queued true { free := [5], held := [(hatchEp h0, 0)] } (hot core0)
     Ready s qh ∧ ((s.atIssue qh).reaches (hatchEpAddr h0) (hqBlockEp 0)).1 = true ∧ (s.atIssue qh).boundQueue h0 0 = some (0, 0, true) ∧ ((s.atIssue qh).hq 0 0).free = [5] ∧
     (s.atIssue qh).common h0 0 = some 0 ∧ ((s.atIssue qh).hq 0 0).holds (hatchEp h0) 0 = some 0 ∧ ((s.atIssue qh).hq 0 0).pub.length < 64) ∧
    (let s := queued false { pub := [7] } (hot core0)
     (s.atIssue qh).boundQueue h0 0 = some (0, 0, false) ∧ ((s.atIssue qh).hq 0 0).pub = [7]) := by decide +kernel

theorem test_premises_HandleQueueOperations_waiting :
    (let s := queued false {} keyed
     Ready s qh ∧ (s.atIssue qh).boundQueue h0 0 = some (0, 0, false) ∧ ((s.atIssue qh).hq 0 0).pub = [] ∧
     (s.hatch h0).run.map (·.key) = some (some k0) ∧ ((s.atIssue qh).reaches (hatchEpAddr h0) (hqBlockEp 0)).1 = true) ∧
    (let s := (queued false {} keyed).setReg (routerAt (routerOf (hatchEpAddr h0)) (0x800 + 8 * (hqBlockEp 0 / 4 % 256))) 0
     Ready s qh ∧ (s.atIssue qh).boundQueue h0 0 = some (0, 0, false) ∧ (s.hatch h0).run.map (·.key) = some (some k0) ∧
     ((s.atIssue qh).reaches (hatchEpAddr h0) (hqBlockEp 0)).1 = false) := by decide +kernel

theorem test_premises_EndsOfPrograms :
    Ready (lone core0) qa ∧ (((lone core0).atIssue qa).seq qa).loops.all (·.isNone) = true ∧ (((lone core0).atIssue qa).core i0).pend = [] ∧
    (let s := hot { core0 with events := [] }
     Ready s qh ∧ (s.hatch h0).run = some launch0 ∧ (∀ i ∈ (s.atIssue qh).coresOf qh, let c := (s.atIssue qh).core i
       allDone c = true ∧ c.pend = [] ∧ c.pendSt = [] ∧ c.evs = [] ∧ c.chainWay = [] ∧ c.recvWait = false ∧
       c.fastWait = false ∧ c.vecWait = false ∧ c.vres = none ∧ c.chainIn = [] ∧ c.vregWait = []) ∧
     bitOf ((s.atIssue qh).reg (hatchAt h0 0x40)) 0 = false) := by decide +kernel

/-- A queued clear of set 0. -/
def op0 : DrainOp := { code := .aclr, f := { af 0 with wen := false }, word := 0, g := 0, enc := 0, dcb := {}, cb2 := {}, bundle := 0, ord := 0 }
/-- The same of one row of 128 entries. -/
def op1 : DrainOp := { op0 with word := 2 ^ 15 + 128 * 2 ^ 27 }

/-- Bundle 0 of the kernel stands in the bundle cache. -/
def cached0 (w : BitVec 256) : State := withHatch fun x => { x with cache := [(0, w)] }

theorem test_premises_BundleIssueRunsTheBundle :
    (let s := withHatch fun x => { x with seq := { empty := 2 } }
     s.canIssue qh = true ∧ (s.seq qh).gap = false ∧ (s.seq qh).empty = 1 + 1 ∧ s.anyFull qh = false) ∧
    (let s := (hot { core0 with dq := List.replicate 8 op0 }).modHatch h0 fun x => { x with seq := { empty := 1 } }
     s.canIssue qh = true ∧ (s.seq qh).gap = false ∧ (s.seq qh).empty = 0 + 1 ∧ s.anyFull qh = true) ∧
    (let s := withHatch fun x => { x with seq := { hold := 6 } }
     s.canIssue qh = true ∧ (s.seq qh).gap = true) ∧
    (let s := cached0 (word (0x01#6 ++ 3#5 ++ 1#5 ++ 2#5 ++ 0#11) 0 0 0 0 0)
     s.canIssue qh = true ∧ (s.seq qh).gap = false ∧ (s.hatch h0).bcpar = false ∧ (bundleAt s h0 0).isSome = true) ∧
    ((hot core0).canIssue qh = true ∧ ((hot core0).seq qh).gap = false ∧ ((hot core0).seq qh).empty = 0 ∧ ((hot core0).seq qh).held = none ∧ 0 < (hot core0).klen qh ∧
      bundleAt (hot core0) h0 0 = none ∧ ((hot core0).hatch h0).bcpar = false) ∧
    (lone core0).canIssue qa = true := by decide +kernel

theorem test_premises_IssueGoesOn :
    (let s := (withHatch fun x => { x with seq := { held := some { sync := .op (.evwait 3) } } }).setSeq qh {}
     Ready s qh ∧ (∀ i ∈ (s.atIssue qh).coresOf qh, ((s.atIssue qh).core i).ev 3 ≠ 0) ∧
       ∃ i ∈ (s.atIssue qh).coresOf qh, ((s.atIssue qh).core i).ev 0 = 0) ∧
    (let w : PendW := { due := 0, tgt := .scalar 1 7, flags := 5 }
     let s := hot { core0 with pend := [w] }
     (∀ i ∈ s.coresOf qh, w.due ≤ (s.seq qh).cyc ∧ (s.core i).pend = [w] ∧ (s.core i).pendSt = [])) ∧
    (let s := hot { core0 with pend := [{ due := 9, tgt := .scalar 1 7 }] }
     (∀ i ∈ s.coresOf qh, (∀ w ∈ (s.core i).pend, (s.seq qh).cyc < w.due) ∧ ∀ w ∈ (s.core i).pendSt, (s.seq qh).cyc < w.due)) ∧
    (((withHatch fun x => { x with seq := { hold := 5 } }).hatch h0).seq.hold = 5 ∧ ((hot core0).seq qh).held = none ∧
      ((withHatch fun x => { x with seq := { held := some { sync := .op .barH }, hold := 3 } }).hatch h0).seq.held = some { sync := .op .barH } ∧
      (let x := ((withHatch fun x => { x with seq := { held := some { sync := .op (.hqpub 1 0) }, hold := 3 } }).hatch h0).seq
       x.held = some { sync := .op (.hqpub 1 0) } ∧ x.hold = 3)) := by
  decide +kernel

/-- A commission on hatch 0. -/
def cmsn0 : Cmsn := { key := k0, tag := 7, port := 0, modes := plain, body := List.replicate 64 0, state := .running, plate := 0, hatches := [h0] }
def serving (c : Cmsn) (s : State) : State := { s with engine := { s.engine with cmsns := [c] } }

theorem test_premises_StopsAndReruns :
    (let s := withHatch fun x => { x with seq := { pc := 4 } }
     s.canIssue qh = true ∧ (s.seq qh).held = none ∧ (s.seq qh).empty = 0 ∧ (s.seq qh).gap = false ∧ s.klen qh ≤ (s.seq qh).pc) ∧
    ((hot core0).atIssue qh).boundQueue h0 15 = none ∧
    (∀ c ∈ [cmsn0, { cmsn0 with state := .preempted }, { cmsn0 with attempts := 200 }], let s := serving c (hot core0)
      s.cmsn k0 = some c ∧ (c.state = .running ∨ c.state = .preempted) ∧ s.endReason c = none) ∧
    (let s := serving cmsn0 (withHatch fun x => { x with run := some { launch0 with key := some k0 }, ended := some 0x23 })
     s.cmsn k0 = some cmsn0 ∧ s.endReason cmsn0 = some 0x23) ∧
    cmsn0.attempts < (hot core0).rf (engineAt 0) 32 8 + 1 ∧ (hot core0).rf (engineAt 0) 32 8 + 1 ≤ 200 := by decide +kernel

/-- A matrix pass and a weight load at the heads of the queue of core 0. -/
def loads : MatOp := .load mw 0 0 {} 0 0
def passes (neww : Bool) (ord : Nat := 0) : MatOp := .pass { mp with neww, even := true, ev := 2 } 1 0 (BitVec.allOnes 128) { base := 0, len := 4096 } 0 ord

theorem test_premises_QueuesRun :
    (let s := hot { core0 with mq := [loads] }
     s.clocked i0 = true ∧ (s.hatch i0.hatch).ended = none ∧ (s.core i0).mq = [loads] ∧ (s.core i0).wload = false) ∧
    (let s := hot { core0 with mq := [passes true], wload := true }
     (s.core i0).mq = [passes true] ∧ (s.core i0).wload = true ∧ bandBusy (s.core i0) mp = false) ∧
    (let s := hot { core0 with mq := [passes false 1], fast := some op1, fastWait := true }
     (s.core i0).mq = [passes false 1] ∧ bandBusy (s.core i0) mp = false ∧ (passes false 1).blocked (s.core i0) = true) ∧
    (let s := hot { core0 with mq := [passes false], active := { fmt := some 1 } }
     bandBusy (s.core i0) mp = false ∧ matrixReady (s.core i0) = true ∧ skewRight s i0 = true ∧ (s.core i0).accMarks = []) ∧
    (let s := hot { core0 with mq := [passes true], wload := true, mrun := [loads, passes false] }
     (s.core i0).wload = true ∧ (s.core i0).mrun.any MatOp.isLoad = true ∧ ((s.core i0).mrun.find? fun m => !m.isLoad) = some (passes false)) ∧
    (let s := hot { core0 with dq := [op0] }
     (s.core i0).dq = [op0] ∧ drainReady (s.core i0) = true ∧ op0.ringSend = false ∧ op0.ringRecv = false ∧
     op0.code.onVec = false ∧ drainBlocked { s.core i0 with dq := [], fast := some op0 } op0 = false) ∧
    (let s := hot { core0 with mq := [passes false], active := { fmt := some 1 } }
     (passRun { s.core i0 with mq := [] } { mp with neww := false, even := true, ev := 2 } 1 0 (BitVec.allOnes 128) { base := 0, len := 4096 }
       (s.spillOn i0) true s.freeCtr).cause = none) ∧
    (let o : DrainOp := { op1 with code := .achainRecv, f := { af 0 with wen := false }, dcb := { base := 0, len := 4096 } }
     let c : CoreSt := { core0 with dq := [o] }
     let d : CoreSt := { c with mq := [passes false] }
     drainReady c = true ∧ o.bufRecv = true ∧ o.ringRecv = false ∧ drainBlocked ({ c with dq := [], fast := some o }.takeBuf o) o = false ∧
     drainBlocked ({ d with dq := [], fast := some { o with ord := 1 } }.takeBuf { o with ord := 1 }) { o with ord := 1 } = true) ∧
    (let x : DrainOp := { op1 with ord := 1 }
     let c : CoreSt := { core0 with mq := [passes false], fast := some x, fastWait := true }
     drainReady { c with fast := none, dq := [x] } = true ∧ drainBlocked c x = true) ∧
    (let x : DrainOp := { op0 with code := .vdrain }
     let w : PendW := { due := 0, tgt := .vector 1 7 1, flags := 5 }
     let s := hot { core0 with fast := some op0, vec := some x, vres := some w, chainWay := [{ epoch := 0, vals := [] }] }
     (s.core i0).fast = some op0 ∧ (s.core i0).fastWait = false ∧ (s.core i0).recvWait = false ∧ op0.f.sen = false ∧ (s.core i0).vec = some x ∧
     (s.core i0).vecWait = false ∧ x.code.onVec = true ∧ (s.core i0).vres = some w ∧ (1 : BitVec 128) ≠ BitVec.allOnes 128 ∧
     (s.core i0).chainWay = [{ epoch := (s.core i0).epoch, vals := [] }] ∧ (s.core i0).epoch ≠ 1) ∧
    (let o : DrainOp := { op1 with code := .achainRecv, f := { af (2 ^ 17) with wen := false } }
     let c : CoreSt := { core0 with fast := some o, recvWait := true, chainIn := [{ epoch := 0, vals := [] }] }
     o.ringRecv = true ∧ drainBlocked c o = false ∧ (rngOf o.word).groups.length = 1 ∧ 0 < (rngOf o.word).groups.length ∧
     (rngOf o.word).groups.length ≤ c.chainIn.length) := by decide +kernel

theorem test_premises_TablesAndEventsArrive :
    (∀ h ∈ [0, 2 ^ 127], let x : TLoad := { t := 0, bank := true, data := { hdr := BitVec.ofNat 128 h } }
      let s := hot { core0 with tloads := [x] }
      (s.core i0).tloads = [x] ∧ hdrOk x.data.hdr = (h == 0) ∧ s.role i0 = 0) ∧
    (let s := hot { core0 with evs := [(3, 0)] }
     s.clocked i0 = true ∧ (s.core i0).evs = [(3, 0)] ∧ (s.core i0).ev 3 < 255 ∧
     ((s.setReg (hatchAt h0 0x50) 0x18).setReg 0x300 9).clocked i0 = false) ∧
    (let s : State := { hot { core0 with evs := [(3, 0)], events := [(3, 255)] } with hatches := [] }
     (s.core i0).ev 3 = 255 ∧ s.standAlone i0 = false ∧ (s.hatch i0.hatch).run = none) := by decide +kernel

/-- A transfer of one line of 128 bytes, and of two tiles under credit. -/
def xd : XDesc :=
  { addr := 0, rstride := 0, tstride := 128, rows := 1, rbytes := 128, dbase := 0, tsize := 128, dstride := 128, tiles := 2, depth := 1,
    lrows := 1, lrbytes := 128, ev := 0, even := false, cev := 3, cen := true, pair := false }
def xf (kind : XKind) : Xfer := { id := 0, kind, d := xd, bundle := 0 }
def req0 : Req := { tag := 0, xid := 0, bundle := 0, epoch := 0, write := false, tile := 0, daddr := 0, place := 0, cs := 0, off := 0, n := 128 }

theorem test_premises_TransfersRun :
    (let c := { core0 with tq := [xf .get] }
     let s := hot c
     s.clocked i0 = true ∧ (s.hatch i0.hatch).pre = false ∧ (s.hatch i0.hatch).ended = none ∧ s.pickX i0 = some (xf .get) ∧ (hot core0).pickX i0 = none ∧
     (xf .get).line = (0, 0, 128) ∧ cached s i0 0 = false) ∧
    (let e := mkEntry true false false 0 0 0
     let s := hot { core0 with tq := [xf .put], l1 := [(0, e)] }
     s.pickX i0 = some (xf .put) ∧ sget 0 (s.core i0).l1 0 = e ∧ e ≠ 0 ∧ (resolve s 0 e (s.hatchOwner i0.hatch) true).toOption = some 0 ∧
     freeTag (s.core i0) = some 0 ∧ meDur e = false) ∧
    (∀ k ∈ [XKind.get, .ring], let x := { xf k with tile := 1 }
      let s := hot { core0 with tq := [x] }
      (s.core i0).tq = [x] ∧ x.wantsCredit = true ∧ (s.core i0).ev x.d.cev ≠ 0 ∧ (s.activeCores i0.hatch) ≠ [] ∧
      ∀ j ∈ s.activeCores i0.hatch, (s.core j).tq = [x] ∧ (s.core j).ev x.d.cev ≠ 0) ∧
    (let s := (hot { core0 with outst := [req0], tq := [{ xf .get with tile := 1, arrived := 0 }] }).setInbox (coreEp i0)
       [{ route := 0, kind := 4, src := 0, dst := 0, vc1 := false, nonW := false, load := .rdata 0 0 (List.replicate 128 7) }]
     req0 ∈ (s.core i0).outst ∧ (s.hatch i0.hatch).ended = none ∧
     ((s.inboxOf (coreEp i0)).find? fun pk => pk.kind == 4 || pk.kind == 5).map (·.load) = some (.rdata req0.tag 0 (List.replicate 128 7)) ∧
     ((s.core i0).outst.find? fun y => y.tag == req0.tag) = some req0 ∧
     ((s.core i0).tq.find? fun x => x.id == req0.xid).isSome = true ∧ (s.core i0).held = []) ∧
    (let s := hot { core0 with ringIn := [{ dst := 0, bytes := [1], tile := 0 }], advance := 1 }
     (s.core i0).ringIn ≠ [] ∧ (s.core i0).held = [] ∧ (s.core i0).tq = [] ∧ 0 < (s.core i0).advance ∧ (s.core i0).outst = [] ∧
     (s.hatch i0.hatch).ended = none) ∧
    (let s := hot { core0 with outst := [{ req0 with epoch := 1 }], advance := 1 }
     0 < (s.core i0).advance ∧ ∃ y ∈ (s.core i0).outst, y.epoch = (s.core i0).epoch + 1) ∧
    (∀ e ∈ [0, (1 : BitVec 4)], let r := { req0 with epoch := e }
     let s := (hot { core0 with outst := [r] }).setInbox (coreEp i0)
       [{ route := 0, kind := 4, src := 0, dst := 0, vc1 := false, nonW := false, load := .rdata 0 0 (List.replicate 128 7) }]
     r ∈ (s.core i0).outst ∧ ((s.core i0).outst.find? fun y => y.tag == r.tag) = some r ∧
     ((s.core i0).tq.find? fun x => x.id == r.xid) = none ∧ (s.core i0).held = [] ∧ (r.epoch = (s.core i0).epoch ↔ e = 0)) := by
  decide +kernel

theorem test_premises_ClearedSlotHoldsItsCounts : (0x8001#16).toNat.testBit (0#4).toNat = true ∧ (0x8001#16).toNat.testBit (15#4).toNat = true := by
  decide

theorem test_premises_HatchRegistersAct_launch :
    ((State.reset.dom h0.p (.hatch h0.h)).asleep = false ∧ (State.reset.dom h0.p (.hatch h0.h)).entering = false) ∧
    ((State.reset.setDom 0 (.hatch 0) { asleep := true }).dom 0 (.hatch 0)).asleep = true ∧
    ¬ State.reset.activeCores h0 = [] ∧ (hot core0).activeCores h0 ≠ [] ∧ ((hot core0).hatch h0).run ≠ none ∧
    (withHatch fun x => { x with lq := [(0, none)] }).hatches ≠ [] ∧
    (∀ i ∈ hatchCores h0, (hot core0).standAlone i = false) := by decide +kernel

theorem test_premises_HatchRegistersAct : (lone core0).standAlone i0 = true ∧ (hot core0).standAlone i0 = false ∧
    bitsOf (128 : Word) 0 8 ≤ 128 ∧ 128 < bitsOf (129 : Word) 0 8 ∧ bitsOf (512 : Word) 0 28 % 512 = 0 ∧ (State.reset.hatch h0).lq.length < 4 ∧
    bitsOf (511 : Word) 0 28 % 512 ≠ 0 ∧ (State.reset.hatch h0).run = none ∧ (State.reset.hatch h0).pre = false ∧
    (State.reset.hatch h0).lq = [] ∧ (State.reset.hatch h0).saved = none ∧ (lone core0).saStatus i0 = 1 ∧ ((lone core0).hatch h0).run = none ∧
    (let act (v : Word) := (List.range 9).filter fun j => bitsOf v (5 * j + 3) 2 == 0
     let v := State.reset.reg (hatchAt h0 0x50)
     (∀ k < (act v).length, ((act v).filter fun j => bitsOf v (5 * j) 3 == k).length = 1) ∧
     ∃ k < (act 0).length, ((act 0).filter fun j => bitsOf (0 : Word) (5 * j) 3 == k).length ≠ 1) := by decide +kernel

theorem test_premises_StandAloneAndCheckValues :
    (lone core0).standAlone i0 = true ∧ (hot core0).standAlone i0 = false ∧ ((hot { core0 with mxRun := true }).core i0).mxRun = true ∧
    skewRight (hot core0) i0 = true ∧ (hot core0).rf (coreAt i0 0x800) 0 8 = 128 ∧
    (let s := (lone core0).setReg (coreAt i0 0xA40) 0
     s.standAlone i0 = true ∧ s.saStatus i0 ≠ 1) ∧
    ((lone core0).saStatus i0 = 1 ∧ ((lone core0).core i0).pend = [] ∧ ((lone core0).core i0).pendSt = []) ∧
    (let s := (hot core0).setReg (coreAt i0 0xC28) (BitVec.ofNat 64 (2 ^ 40))
     s.standAlone i0 = false ∧ s.role i0 ≠ 3 ∧ s.rf (coreAt i0 0xC20) 8 3 ≠ 1 ∧ bitsOf (4 : Word) 2 2 < 2 ∧ bitsOf (s.reg (coreAt i0 0xC28)) 40 24 ≠ 0) ∧
    (let s := (hot core0).setReg (hatchAt h0 0x50) 0x18
     s.standAlone i0 = false ∧ s.role i0 = 3 ∧ s.clocked i0 = false) ∧
    (hot { core0 with mxRun := true }).clocked i0 = true ∧ (hot core0).mod.stall = false ∧
    (let s := hot { core0 with cvRun := some (0x21, BitVec.ofNat 64 (2 ^ 40)) }
     s.clocked i0 = true ∧ (s.core i0).cvRun = some (0x21, BitVec.ofNat 64 (2 ^ 40)) ∧ bitsOf (0x21 : Word) 2 2 ≠ 1 ∧ 2 ≤ bitsOf (0x21 : Word) 4 2 ∧
     (s.core i0).csMarks = []) := by decide +kernel

/-- A plan entry for an operation 0 with any pair on one hatch, with its footprint record at 0xA800000 (Table 7.8). -/
def planBytes : List Byte :=
  leBytes 8 (15 * 2 ^ 16 + 2 ^ 22 + 2 ^ 28) ++ List.replicate 24 0 ++ leBytes 8 (32 * 2 ^ 32) ++ List.replicate 8 0 ++
    leBytes 8 (0xA800000 * 2 ^ 32) ++ List.replicate 8 0

/-- A ready commission on plate 0 with that plan. -/
def planned (entries : Nat) : State :=
  let s := { State.reset with mod := { inReset := false } }
  let s := (s.setReg (plateAt 0 0x1000) (BitVec.ofNat 64 (entries * 2 ^ 32 + 0xA900000)))
  serving { cmsn0 with state := .ready, hatches := [] } (psWrite s 0 0xA900000 planBytes)

/-- A launch image of a kernel of one bundle on eight cores (Table 6.17), queued at hatch 0. -/
def imageBytes (klen : Byte) : List Byte :=
  List.replicate 8 0 ++ [klen] ++ List.replicate 7 0 ++ [0x10, 0x70, 0x10] ++ List.replicate 6 0 ++ [1] ++ List.replicate 486 0
def imaged (klen : Byte) : State :=
  let s := { State.reset with mod := { inReset := false } }.setReg (plateAt 0 0x1010) (BitVec.ofNat 64 (2 ^ 39))
  (psWrite s 0 0xAFF0000 (imageBytes klen)).modHatch h0 fun x => { x with lq := [(0xAFF0000, none)] }

/-- That commission, its plan entry, and what the scan of the plan answers. -/
def readyCmsn : Cmsn := { cmsn0 with state := .ready, hatches := [] }
def planEntry : PlanEntry := { w := (List.range 8).map fun i => leAt planBytes (8 * i) 8 }
def scanned (n : Nat) : Option PlanEntry × State :=
  let s := planned n
  planScan readyCmsn 0 (s.rf (plateAt 0 0x1000) 0 28) (s.hatchesUp 0).length (s.otherPlates 0).length (s.rf (plateAt 0 0x1000) 32 13) 0 s
def footprint : List Byte × Bool × State := psRead (scanned 1).2 0 0xA800000 256
def arguments : Except PlanStop (List Word) × State := argsOf readyCmsn planEntry footprint.1 24 0 footprint.2.2 []

theorem test_premises_PlannerAndLoader_planner :
    (∀ n ∈ [0, 1], let s := planned n
      s.plateUp 0 = true ∧ s.pair.state ≠ .fenced ∧ s.engine.inReset = false ∧ s.firstReady 0 = some readyCmsn ∧
      s.cmsn k0 = some readyCmsn ∧ (scanned n).2.cmsn k0 = some readyCmsn) ∧
    (scanned 0).1 = none ∧ (scanned 1).1 = some planEntry ∧ (scanned 1).2.saving k0 = false ∧ planEntry.pspan = 0 ∧
    planEntry.foot = 0xA800000 ∧ footprint.2.1 = false ∧ arguments.1.toOption.isSome = true ∧ arguments.2.cmsn k0 = some readyCmsn ∧
    arguments.2.hatches = (scanned 1).2.hatches ∧
    arguments.2.freePgroup 0 ≠ none ∧
    (let k : CmsnKey := { stream := 2, seq := 0 }
     let s := (arguments.2.modEngine fun x => { x with cmsns := [readyCmsn, { cmsn0 with key := k }] }).modPlate 0 fun x =>
       { x with bgroups := (List.range 16).map fun g => (BitVec.ofNat 4 g, k) }
     s.cmsn k0 = some readyCmsn ∧ s.freePgroup 0 = none) ∧
    planEntry.hmin ≤ (((scanned 1).2.takeable readyCmsn planEntry).take planEntry.hmax).length := by decide +kernel

theorem test_premises_PlannerAndLoader_loader :
    ∀ n ∈ [1, 0], let s := imaged n
      (s.hatch h0).lq = [(0xAFF0000, none)] ∧ (s.hatch h0).run = none ∧ (s.hatch h0).pre = false ∧ s.hatchUp h0 = true ∧
      s.awake h0.p (.hatch h0.h) = true ∧ s.pair.state ≠ .fenced ∧
      (let r := psRead (s.modHatch h0 fun x => { x with lq := [] }) h0.p 0xAFF0000 512
       r.1 = imageBytes n ∧ r.2.1 = false ∧ loadImage r.2.2 h0 r.1 = (if n = 1 then none else some 0x41) ∧
       (n = 1 → (loadTensors h0 r.1 24 0 r.2.2).1 = none)) := by decide +kernel

theorem test_premises_PreemptionSavesAndRestores :
    (let s := withHatch fun x => { x with pre := true }
     (s.hatch h0).run = some launch0 ∧ (s.hatch h0).pre = true ∧ (s.hatch h0).ended = none ∧
     (∀ i ∈ s.activeCores h0, saveQuiet (s.core i) = true) ∧ saveFault s h0 = false) ∧
    (let c : Cmsn := { cmsn0 with state := .preempted }
     let v : Saved := { launch := launch0, seq := {}, cores := ((hot core0).activeCores h0).map fun i => (i.key, core0) }
     let s := serving c (withHatch fun x => { x with run := none, saved := some v })
     s.cmsn k0 = some c ∧ c.byCmsn = none ∧ c.hatches = [h0] ∧ c.ended = [] ∧ (s.hatch h0).run = none ∧ (s.hatch h0).lq = [] ∧
     (s.hatch h0).saved = some v ∧ s.hatchUp h0 = true ∧ v.cores.map (·.1) = (s.activeCores h0).map (·.key) ∧ (s.readImages [h0]).1 = false ∧
     ∀ i ∈ s.activeCores h0, (v.cores.find? fun y => y.1 == i.key).isSome = true) := by decide +kernel

theorem test_premises_PlateRegisterWrites :
    (let v : Word := BitVec.ofNat 64 (2 ^ 25 + 0xFF00 + 2 ^ 16 + 2 ^ 48)
     ((hot core0).hq 0 0).pub = [] ∧ ((hot core0).hq 0 0).held = [] ∧ bitOf v 25 = true ∧ 1 ≤ bitsOf v 16 9 ∧ bitsOf v 16 9 ≤ 256 ∧
     bitsOf v 48 16 ≠ 0 ∧ bitsOf v 0 8 ≠ bitsOf v 8 8 ∧ bitOf (0 : Word) 25 = false) ∧
    ((queued true { pub := [7] } (hot core0)).hq 0 0).pub ≠ [] ∧
    (let s := (queued true { wait := [(hatchEp h0, some k0)] } (serving cmsn0 (hot core0))).setRf (queueAt 0 0 8) 32 16 5
     (s.hq 0 0).wait = [(hatchEp h0, some k0)] ∧ s.cmsn k0 = some cmsn0 ∧ s.rf (queueAt 0 0 8) 32 16 ≠ 0) := by decide +kernel

theorem test_premises_PlateRegisterWrites_plate :
    State.reset.mod.locked = false ∧ bitsOf (0x1000000A900000 : Word) 32 13 ≤ 4096 ∧ bitsOf (0xA900000 : Word) 0 28 % 64 = 0 ∧
    bitsOf (0x8000000000 : Word) 14 25 * 16384 + 16384 * bitsOf (0x8000000000 : Word) 39 25 ≤ 2 ^ 39 ∧
    bitOf (State.reset.reg (plateAt 0 0x2008)) 62 = true ∧
    (let s := (hot core0).modPlate 0 fun x => { x with inval := some ([(0, req0)], []) }
     (s.plate 0).inval = some ([(0, req0)], []) ∧ ((s.core ⟨0, fin 36 0⟩).outst.contains req0) = false) := by decide +kernel

theorem test_premises_PlateRegisterWrites_way :
    (hot core0).onWay = [] ∧ (hot core0).engine.moves = [] ∧
    (let d : DReq :=
       { src := BitVec.ofNat 10 (coreEp i0), tag := 0, line := 0, write := false, en := BitVec.allOnes 128, data := [], cls := 0, age := 0, rt := none, mir := none }
     d ∈ ((hot core0).setStack ⟨0, 0⟩ { queue := [d] }).onWay ∧ d.src.toNat = coreEp ⟨0, fin 36 0⟩ ∧ d.tag = req0.tag ∧
       d.line.toNat / 128 = req0.place % 2 ^ 34 / 128) := by decide +kernel

/-- The module out of reset, with nothing running. -/
def idle : State := { State.reset with mod := { inReset := false }, routers := meshUp }

/-- A packet with a route and a payload. -/
def pkt (route : BitVec 48) (kind : BitVec 4) (load : Payload) : Packet := { route, kind, src := 0, dst := 0, vc1 := false, nonW := false, load }

/-- Router 0 of plate 0 holds one packet, on link 0 when a link is up; its eastern group has the given links up. -/
def routed (route : BitVec 48) (up : Byte) : State :=
  idle.setRouter ⟨0, 0⟩ { q := [{ pkt route 4 (.rdata 0 0 []) with link := if up = 0 then none else some 0 }], up := [(1, up)] }

theorem test_premises_PacketsAndLinks :
    (∀ up ∈ [0, 1, 3], let s := routed 1 up
      ((s.router ⟨0, 0⟩).q.head?.map fun pk => movable s ⟨0, 0⟩ pk) = some true ∧ (meshNext ⟨0, 0⟩ 1).isSome = true ∧
      sget 0 (s.router ⟨0, 0⟩).up 1 = up) ∧
    (let s := routed 4 3
     epOf 0 = .core i0 ∧ movable s ⟨0, 0⟩ (pkt 4 4 (.rdata 0 0 [])) = true ∧ s.epFenced (.core i0) = false ∧ (s.dom 0 (.hatch 0)) = {} ∧
     (s.setDom 0 (.hatch 0) { asleep := true }).dom 0 (.hatch 0) = { asleep := true } ∧
     movable (s.setDom 0 (.hatch 0) { asleep := true }) ⟨0, 0⟩ (pkt 4 4 (.rdata 0 0 [])) = true ∧
     ((s.setDom 0 (.hatch 0) { entering := true }).dom 0 (.hatch 0)).entering = true) ∧
    (let s := routed 4 1
     (meshNext ⟨0, 0⟩ (meshCode .e)).isSome = true ∧ (sget 0 (s.router ⟨0, 0⟩).up 1).toNat.testBit 0 = true ∧
     sget 0 (s.router ⟨0, 0⟩).up 1 &&& ~~~1#8 = 0 ∧ sget 0 (routed 4 3 |>.router ⟨0, 0⟩).up 1 &&& ~~~1#8 ≠ 0 ∧ (∀ pk ∈ (s.router ⟨0, 0⟩).q, pk.route.toNat % 8 ≠ 1) ∧
     (let ts := (sget [] (s.router ⟨0, 0⟩).replays 8).filter (fun t => (s.mod.time - t).toNat < 1000000) ++ [s.mod.time]
      ts.length ≤ s.rf (netAt 0 0) 16 8 ∧ (s.setRf (netAt 0 0) 16 8 0).rf (netAt 0 0) 16 8 < ts.length) ∧
     (∀ pk ∈ (s.router ⟨0, 0⟩).q, pk.route.toNat % 8 = 1 → pk.link = none)) ∧
    (let s := idle.setRouter ⟨0, 0⟩ { q := [{ pkt 1 4 (.rdata 0 0 []) with link := some 0 }], up := [(1, 1)] }
     ∃ pk ∈ (s.router ⟨0, 0⟩).q, pk.route.toNat % 8 = 1 ∧ pk.link ≠ none) ∧
    routeOk ⟨0, 0⟩ (BitVec.ofNat 64 (2 ^ 48 + 4)) = true ∧ routeOk ⟨0, 0⟩ 0 = false := by decide +kernel

/-- A walk of granule 0 for core 0, whose map entry reads `e`. -/
def walking (e : Word) : State :=
  { idle with drams := [(0, { state := 1, mem := (List.range 8).map fun k => (0xBF800 * 16384 + k, nth 0 (leBytes 8 e.toNat) k) })]
              plates := [(0, { walks := [{ granule := 0, core := some 0 }] })] }

theorem test_premises_DomainsAndWalks :
    (let s := idle.setReg (netAt 0 8) 1
     bitOf (s.reg (netAt 0 8)) (sleepBit (.hatch 0)) = true ∧ domIdle s 0 (.hatch 0) = true ∧ s.dom 0 (.hatch 0) = {} ∧
     (s.setDom 0 (.hatch 0) { entering := true }).dom 0 (.hatch 0) = { entering := true } ∧
     domIdle (s.setDom 0 (.hatch 0) { entering := true }) 0 (.hatch 0) = true) ∧
    bitOf (idle.reg (netAt 0 8)) (sleepBit (.hatch 0)) = false ∧
    (idle.setDom 0 (.hatch 0) { asleep := true, waking := true }).dom 0 (.hatch 0) = { asleep := true, waking := true } ∧
    epOf 1023 = .absent ∧ idle.epFenced .absent = false ∧
    (let r := walkEntry ((walking 0).modPlate 0 fun z => { z with walks := [] }) 0 0
     ((walking 0).plate 0).walks = [{ granule := 0, core := some 0 }] ∧ r.1.toOption = none) ∧
    (let s := walking (mkEntry true false false 0 7 0)
     let r := walkEntry (s.modPlate 0 fun z => { z with walks := [] }) 0 0
     (s.plate 0).walks = [{ granule := 0, core := some 0 }] ∧ r.1.toOption = some (mkEntry true false false 0 7 0)) := by decide +kernel

/-- Stack 0 of plate 0 with one request in its queue. -/
def served (write : Bool) (state : BitVec 2) : State :=
  let d : DReq :=
    { src := 0, tag := 0, line := 0, write, en := BitVec.allOnes 128, data := List.replicate 128 9, cls := 0, age := 0, rt := none, mir := none }
  idle.setStack ⟨0, 0⟩ { state, queue := [d] }

theorem test_premises_StackedDram_serving :
    (∀ w ∈ [true, false], let s := served w 1
      let x := s.stack ⟨0, 0⟩
      x.state = 1 ∧ x.resetting = false ∧ x.marks = [] ∧ (∃ ch ∈ List.range 32, pickReq s ⟨0, 0⟩ ch = x.queue.head?) ∧
      x.queue.all (fun d => d.line.toNat % 128 == 0 && d.mir.isNone) = true) ∧
    ((served true 3).stack ⟨0, 0⟩).state = 3 ∧ ((idle.setStack ⟨0, 0⟩ { panic := 1 }).stack ⟨0, 0⟩).panic.toNat.testBit 0 = true ∧
    (let s := (idle.setStack ⟨0, 0⟩ { state := 1, marks := [(0, .uncorrectable)] }).setRf (stackAt ⟨0, 0⟩ 0) 24 8 1
     s.rf (stackAt ⟨0, 0⟩ 0) 24 8 ≠ 0 ∧ (s.stack ⟨0, 0⟩).mark ((s.stack ⟨0, 0⟩).patrol % 0xC000000) = some .uncorrectable) := by decide +kernel

theorem test_premises_StackedDram_rows_and_resets :
    (let a := stackAt ⟨0, 0⟩ 0x48
     bitOf (1 : Word) 0 = true ∧ bitOf (idle.reg a) 1 = false ∧ bitsOf (1 : Word) 40 2 ≠ 3 ∧ bitsOf (BitVec.ofNat 64 (3 * 2 ^ 40 + 1)) 40 2 = 3) ∧
    (let s := idle.setStack ⟨0, 0⟩ { retire := some 0 }
     (s.stack ⟨0, 0⟩).retire = some 0 ∧ (let e : Word := 1
       bitOf e 0 = true ∧ bitsOf e 40 10 = bitsOf (0 : Word) 40 10 ∧ bitsOf e 1 2 = 0) ∧ ∀ k < 256, bitOf (sget 0 s.nv.ret (256 * (⟨0, 0⟩ : StackId).key + k)) 0 = false) ∧
    (∀ k < 256, bitOf (sget (0 : Word) ((List.range 256).map fun k => (k, (1 : Word))) (256 * (⟨0, 0⟩ : StackId).key + k)) 0 = true) ∧
    (let x := (idle.stack ⟨0, 0⟩)
     x.resetting = false ∧ x.queue = [] ∧ x.state ≠ 3) ∧
    (let s := served true 1
     (s.stack ⟨0, 0⟩).queue.length = 1 ∧ epOf 1023 = .absent) ∧
    (let x := (idle.setStack ⟨0, 0⟩ { resetting := true, state := 3 }).stack ⟨0, 0⟩
     x.resetting = true ∧ x.state = 3) ∧
    epOf 1023 = .absent ∧ ((idle.setStack ⟨0, 0⟩ { resetting := true, fails := 2 }).stack ⟨0, 0⟩).fails = 2 := by decide +kernel

/-- A fault record, and the collector with one entry of its key. -/
def rec0 : FRec := { time := 0, suspect := 5, reporter := 6, cls := 1, body := [] }
def entry0 : GEntry := { key := 5, info := false, own := false, wit := 1, rcd := rec0 }

theorem test_premises_FaultsAreCollected :
    (let s : State := { idle with gfc := { frec := [rec0], opened := [entry0] } }
     s.gfc.frec = [rec0] ∧ (if rec0.suspect = 0 then rec0.reporter else rec0.suspect) = 5 ∧ ∃ e ∈ s.gfc.opened, e.key = rec0.suspect) ∧
    (let s : State := { idle with gfc := { frec := [rec0] } }
     (∀ e ∈ s.gfc.opened, e.key ≠ 5) ∧ s.gfc.opened.length < 256 ∧ s.gfc.seen = false ∧ s.gfc.held = false) ∧
    (let o := (List.range 256).map fun k => { entry0 with key := BitVec.ofNat 16 (k + 6) }
     o.length = 256 ∧ ∀ e ∈ o, e.key ≠ 5) ∧
    (let v := resetOf (routerAt ⟨0, 0⟩ 0x800)
     routeLive idle ⟨0, 0⟩ ((List.range (bitsOf v 48 4 - 1)).map fun k => bitsOf v (3 * k) 3) = true) := by decide +kernel

/-- A commission body that passes the checks (Table 13.1), and a module that takes commissions at port 0. -/
def body0 : List Byte := List.replicate 176 0
def ready : State := { idle with engine := { ready := true } }
def paired : State := { ready.setPort 8 { state := 5 } with pair := { state := .paired } }
def isolated : State :=
  { (paired.setRf (engineAt 0) 9 1 1) with pair := { state := .isolated } }
def refused0 : PendAcc := { key := k0, port := 0, modes := plain, body := body0, jseq := 1, come := 0 }

theorem test_premises_AcceptanceOfCommissions :
    idle.engine.ready = false ∧ cmsnForm body0 = true ∧
    (∀ s ∈ [ready, paired], s.engine.ready = true ∧ s.engine.inReset = false ∧ (s.rf (engineAt 8) 0 8).testBit 0 = true ∧
      sget none s.engine.streams k0.stream.toNat = none ∧ s.engine.own.length + 2 ≤ 65536 ∧ s.cmsn k0 = none ∧ s.engine.pending = []) ∧
    ready.pair.state = .solo ∧ paired.pair.state = .paired ∧ paired.tieUp = true ∧
    isolated.pair.state = .isolated ∧ isolated.degrade = true ∧ isolated.tieUp = true ∧ isolated.engine.ready = true ∧
    1 ≤ ((1 : BitVec 32) - k0.seq).toNat ∧ ((1 : BitVec 32) - k0.seq).toNat ≤ 2 ^ 31 ∧ 2 ^ 31 < ((0xFFFFFFFF : BitVec 32) - k0.seq).toNat ∧
    (let s : State := { paired with engine := { paired.engine with pending := [refused0], jseq := 1 } }
     s.engine.pending = [refused0] ∧ s.engine.late = [] ∧ s.cmsn refused0.key = none ∧ s.engine.cmsns = [] ∧ s.engine.slots = [] ∧
     (1 : Word).toNat ≤ s.engine.jseq.toNat ∧ refused0.jseq.toNat ≤ (1 : Word).toNat ∧ (0 : Word).toNat < refused0.jseq.toNat) := by decide +kernel

theorem test_premises_SlotsAndFaults :
    (let c : Cmsn := { cmsn0 with state := .accepted, hatches := [] }
     let s := serving c ready
     let u := (outGranules s c.body).2
     let v := (readEntries u.enginePlate [] u []).2
     s.cmsn k0 = some c ∧ (∀ d ∈ s.engine.cmsns, d.state = .accepted → c.order ≤ d.order) ∧ (outGranules s c.body).1 = [] ∧
     u.engine = s.engine ∧ (readEntries u.enginePlate [] u []).1.toOption = some [] ∧ v.engine = s.engine ∧
     firstIdx 255 (fun n => (sget ({} : SlotSt) s.engine.slots (n + 1)).state == 0) = some 0 ∧ freeFrames v 0 (framesUsed v) 0 = some []) ∧
    (let c : Cmsn := { cmsn0 with state := .ready, held := true, fault := some 0 }
     let s := serving c (walking 2)
     s.cmsn k0 = some c ∧ frameOk 7 = true ∧ 7 ∉ framesUsed s ∧ s.reserved 7 = false ∧ (mapRead s 0).1 = some 2 ∧ meV 2 = false ∧ s.engine.pageIns = []) ∧
    (let s : State := { walking 2 with engine := { pageIns := [(0, 7)], cmsns := [cmsn0] } }
     s.engine.pageIns = [((0 : BitVec 25).toNat, 7)] ∧ (mapRead s 0).1 = some 2 ∧ mePend 2 = false) := by decide +kernel

theorem test_premises_CommissionsCommit :
    (let c : Cmsn := { cmsn0 with state := .finished }
     let s := serving c ready
     s.cmsn k0 = some c ∧ s.cmsn { k0 with seq := k0.seq - 1 } = none ∧ s.pair.state = .solo ∧ s.engine.inReset = false ∧ c.slot = 0 ∧
     c.jcommit = none) ∧
    (let d : Cmsn := { cmsn0 with key := { k0 with seq := 0xFFFFFFFF }, state := .finished }
     let s : State := { ready with engine := { ready.engine with cmsns := [d, { cmsn0 with state := .finished }] } }
     s.cmsn { k0 with seq := k0.seq - 1 } = some d ∧ d.state ≠ .committed ∧ d.state ≠ .retired) ∧
    (let c : Cmsn := { cmsn0 with state := .committing, step := 2, jcommit := some 3 }
     let r : JRec := { jseq := 3, time := 0, type := .commit, modes := plain, port := 0, stream := 1, status := 0, attempts := 0, seq := 0, body := [], crcOk := true }
     let s : State := { paired with engine := { paired.engine with cmsns := [c], sentJ := [r] } }
     s.cmsn k0 = some c ∧ (s.engine.sentJ.find? fun r => r.jseq == 3) = some r ∧ s.tieUp = true) ∧
    (∀ x ∈ [CState.committed, .accepted, .ready, .running, .preempted, .finished, .committing, .retired],
      ((serving { cmsn0 with state := x } ready).cmsn k0).map (·.state) = some x) ∧
    ready.pair.state ≠ .detaching ∧ ready.cmsn k0 = none ∧ ready.mod.busy.contains 0x3A0 = false ∧ ready.engine.pending = [] := by decide +kernel

/-- A journal record of the twin with the next number, and a mirror write. -/
def jrec (type : JType) : JRec :=
  { jseq := 1, time := 0, type, modes := plain, port := 0, stream := 1, status := 0, attempts := 0, seq := 0, body := body0, crcOk := true }
def mirror0 : MirrorMsg := { granule := 0, proof := false, slot := 0, offset := 0, bytes := [1] }

theorem test_premises_TwinStoresAndBeats :
    paired.pairedMode = true ∧ (jrec .accept).crcOk = true ∧ (jrec .accept).jseq = paired.engine.stored + 1 ∧ paired.engine.slots = [] ∧ paired.engine.cmsns = [] ∧ mirror0.proof = false ∧
    (let s : State := { paired with pair := { paired.pair with mirOut := [mirror0] } }
     s.pairedMode = true ∧ s.pair.mirOut = [mirror0] ∧ s.engine.cmsns = []) ∧
    (let s : State := { paired with pair := { state := .isolated } }
     s.pairedMode = true ∧ s.pair.state = .isolated ∧ s.pair.epoch = 0) ∧ paired.pair.token = false := by decide +kernel

/-- A PAIR message of a partner without durable ranges, and a tie token. -/
def pair0 : PairMsg := { rejoin := false, mid := 9, epoch := 3, version := 0, cap := 0, ranges := [] }
def token0 : FenceToken := { target := 0, issuer := 0, epoch := 0, kind := 1, reserved := [] }
def pairing (x : PairSt) : State := { ready.setPort 8 { state := 5 } with pair := { x with state := .pairing } }

theorem test_premises_PairingAgrees :
    (pairing {}).pair.state = .pairing ∧ (pairing {}).rangesFit pair0.ranges = true ∧
    (pairing {}).rangesFit [(0, 2 ^ 25)] = false ∧ (pairing {}).pair.gotAgree = false ∧ (pairing {}).pair.regions = [] ∧
    (pairing { gotAgree := true, gotReady := true }).pair.mirOut = [] ∧
    ready.pair.state = .solo ∧ (pairing {}).pair.sentReady = false ∧ (pairing { sentReady := true }).pair.sentReady = true ∧
    (let s : State := { paired with pair := { state := .detaching, sentDet := true } }
     s.pair.state = .detaching ∧ s.pair.sentDet = true) ∧
    (let s := serving cmsn0 { paired with pair := { state := .detaching } }
     s.pair.sentDet = false ∧ s.engine.cmsns ≠ []) ∧
    paired.engine.cmsns = [] ∧ paired.tokenOk 1 token0 = true ∧ paired.tokenOk 1 { token0 with kind := 2 } = false ∧
    (let s : State := { paired with pair := { state := .isolated, hbLoss := true } }
     s.tokenOk 1 token0 = true ∧ s.pair.state = .isolated ∧ s.pair.hbLoss = true) := by decide +kernel

/-- Region 0 of plate 0, open, with its fields and the cached map entry of granule 0 as given. -/
abbrev g0 : RegionId := ⟨0, 0⟩
def opened (x : RegionSt) (e : Word) : State :=
  { idle with regions := [(0, { x with state := .opened })], plates := [(0, { l2 := [(0, e)] })] }
def goodEntry : Word := mkEntry true false false 0 7 0

theorem test_premises_RegionPorts_network :
    (∀ w ∈ [true, false], let s := opened {} goodEntry
      s.regionOpen g0 = true ∧ (s.region g0).reads = [] ∧ (s.region g0).writes = [] ∧
      (translate s g0.p none (s.regionOwner g0) w 0).1.toOption = some (goodEntry, 7)) ∧ meDur goodEntry = false ∧
    (∀ w ∈ [true, false], let s := opened {} (mkEntry true false true 9 7 8)
      s.regionOpen g0 = true ∧ (translate s g0.p none (s.regionOwner g0) w 0).1.toOption = none) ∧
    idle.regionOpen g0 = false ∧
    (let s := opened { reads := [(5, (0, 0))], writes := [(5, (0, 0))] } goodEntry
     (∃ y ∈ (s.region g0).reads, y.1 = (5 : Byte).toNat) ∧ ∃ y ∈ (s.region g0).writes, y.1 = (5 : Byte).toNat) := by decide +kernel

/-- Queue 0 of plate 0 with region 0 as its producer, or its consumer. -/
def regionQueue (prod : Bool) (x : HqSt) (r : RegionSt) : State :=
  ((opened r 0).setReg (queueAt 0 0 8)
    (BitVec.ofNat 64 (2 ^ 25 + (if prod then 0xFF00 + (regionEp g0).toNat else 0xFF + (regionEp g0).toNat * 256) + 2 ^ 16 + 2 ^ 48))).setHq 0 0 x

theorem test_premises_RegionPorts_handles :
    (∀ prod ∈ [true, false], let s := regionQueue prod { free := [1], pub := [2], held := [(regionEp g0, 3)] } {}
      s.regionOpen g0 = true ∧ s.hqFind g0.p (s.rf (regionAt g0 0x18) 0 8) (regionEp g0) = some (0, 0) ∧
      (s.reaches (regionEpAddr g0) (hqBlockEp 0)).1 = true ∧
      s.hqRole 0 0 (regionEp g0) = some prod ∧ (s.hq 0 0).free = [1] ∧ (s.hq 0 0).pub = [2] ∧ (s.hq 0 0).pub.length < 64 ∧
      (s.region g0).writes = [] ∧ (s.hq 0 0).holds (regionEp g0) 3 = some 3 ∧ (s.hq 0 0).holds (regionEp g0) (BitVec.ofNat 64 (2 ^ 40)) = none) ∧
    (let s := (regionQueue true {} {}).setReg (routerAt (routerOf (regionEpAddr g0)) (0x800 + 8 * (hqBlockEp 0 / 4 % 256))) 0
     s.regionOpen g0 = true ∧ s.hqFind g0.p (s.rf (regionAt g0 0x18) 0 8) (regionEp g0) = some (0, 0) ∧
     (s.reaches (regionEpAddr g0) (hqBlockEp 0)).1 = false) ∧
    (opened {} 0).hqFind g0.p ((opened {} 0).rf (regionAt g0 0x18) 0 8) (regionEp g0) = none ∧
    ((regionQueue true {} {}).hq 0 0).free = [] ∧ (List.replicate 64 (0 : Word)).length = 64 ∧
    ((regionQueue true {} { writes := [(5, (0, 0))] }).region g0).writes ≠ [] := by decide +kernel

theorem test_premises_RegionPorts_window :
    idle.regionOpen g0 = false ∧ (opened {} 0).regionOpen g0 = true ∧ ((opened {} 0).region g0).ctl = none ∧
    ((opened { ctl := some (0, true, 1) } 0).region g0).ctl = some (0, true, 1) := by decide +kernel

theorem test_premises_RegionLogic :
    ((opened {} 0).region g0).state ≠ .empty ∧ (opened {} 0).regionAwake g0 = true ∧ ((opened {} 0).region g0).ramMarks = [] ∧
    (idle.region g0).state = .empty ∧ ((opened {} 0).region g0).state = .opened ∧
    (let s := (idle.setReg (regionAt g0 0x60) (BitVec.ofNat 64 (1 + 100 * 16)))
     (s.region g0).state ≠ .opened ∧ bitOf (s.reg (regionAt g0 0x60)) 0 = true ∧ 10 ≤ s.rf (regionAt g0 0x60) 4 10 ∧
     s.rf (regionAt g0 0x60) 4 10 ≤ 1000 ∧ s.pins.sref = true ∧ (0 : Word) &&& 0x3FF1 ≠ s.reg (regionAt g0 0x60) ∧
     (BitVec.ofNat 64 1601 : Word) &&& 0x3FF1 = s.reg (regionAt g0 0x60)) ∧
    bitOf (idle.reg (regionAt g0 0x68)) 0 = false ∧ idle.plates = [] ∧
    (∃ q ∈ ((regionQueue true { held := [(regionEp g0, 3)] } {}).plate 0).hq, ∃ h ∈ q.2.held, h.1 = regionEp g0) := by decide +kernel

/-- Pin 0 of bank 0 of plate 0 is configured with a SAFE code, and every pin is driven by its region. -/
def safePin (safe : Nat) : State :=
  { (opened {} 0).setReg (bankAt ⟨0, 0⟩ 0x100) (BitVec.ofNat 64 (1 + 16 + 2 ^ 15 * safe)) with
    pins := { cfgDone := true }, banks := [(0, { ok := true, measured := 120 })] }

theorem test_premises_RegionLogic_signals :
    ∀ safe ∈ [0, 1, 2, 3], let s := safePin safe
      let w := s.reg (bankAt ⟨0, 0⟩ 0x100)
      (s.region g0).state = .opened ∧ s.awake g0.p (.region g0.r) = true ∧ bitOf (0 : Word) 0 = false ∧ pinRegion ⟨0, 0⟩ 0 = g0 ∧
      (s.test.instr ≠ 0 ∨ s.test.tlr = true) ∧ s.pins.cfgErr = false ∧ (s.bank ⟨0, 0⟩).ok = true ∧ 1 ≤ bitsOf w 0 4 ∧ bitsOf w 0 4 ≤ 12 ∧
      s.badPins ⟨0, 0⟩ / 2 ^ 0 % 2 = 0 ∧ bitsOf w 15 2 = safe ∧ bitsOf w 4 2 = 1 := by decide +kernel

/-- A channel of region 0 that waits for its manifest check, and one that loads one frame. -/
def waiting (src : Word) : State :=
  ({ ready with plates := [(0, { icpQ := [0], l2 := [(0, goodEntry), (1, goodEntry), (2, goodEntry)] })] }.setReg (channelAt g0 0x10) 1).setReg
    (channelAt g0 0) src
def loading (x : RegionSt) : State :=
  { ready with regions := [(0, { x with state := .loading, entries := [(0, 1)] })],
               plates := [(0, { l2 := [(0, goodEntry), (1, goodEntry), (2, goodEntry)] })] }.setReg (channelAt g0 0x10) 2

theorem test_premises_PartialLoadsAndScrubbing_channel :
    (ready.rf (channelAt g0 0x10) 0 3 = 0 ∧ ready.engine.ready = true ∧ idle.engine.ready = false) ∧
    (let s := waiting 64
     s.rf (channelAt g0 0x10) 0 3 = 1 ∧ (s.plate g0.p).icpQ.head? = some g0.r ∧ s.rf (channelAt g0 0) 0 39 % 128 ≠ 0) ∧
    (let s := loading {}
     s.rf (channelAt g0 0x10) 0 3 = 2 ∧ recordAddr (s.region g0).entries (s.region g0).recNo = some 0 ∧
     recordAddr (s.region g0).entries 1 = none ∧ s.mod.stall = false ∧ s.nextWriter 0 = some 0 ∧
     (((s.setReg (channelAt ⟨0, 1⟩ 0x10) 2).setRegion ⟨0, 1⟩ { state := .loading, entries := [(1, 1)] }).modPlate 0
       fun x => { x with writer := 0 }).nextWriter 0 = some 1) ∧
    (let y := (ready.plate 0).scrub
     (vote3 y.copies).ctl.toNat.testBit 0 = true ∧ y.failed = false ∧ ready.mod.busy.contains 0x118 = false ∧ (ready.plate 0).sigMarks = []) ∧
    (vote3 [{ ctl := 0 }, { ctl := 0 }, {}]).ctl.toNat.testBit 0 = false := by decide +kernel

theorem test_premises_PartialLoadsAndScrubbing_digest :
    (∀ d ∈ [sha384 [], []], ((loading { recNo := 1, digest := d }).region g0).digest = d ∧ ((loading { recNo := 1, digest := d }).region g0).data = []) ∧
      sha384 [] ≠ [] := by decide +kernel

theorem test_premises_PartialLoadsAndScrubbing_record :
    (devRead (loading {}) 0 none none ((0x4400 + 8 + 127) / 128 * 128) 132 (agentEp 0)).2.1 = none := by decide +kernel

/-- A manifest of zeros at device address 0 is read without a fault, by the map entries in the cache. -/
theorem test_premises_PartialLoadsAndScrubbing_manifest : (devRead (waiting 0) 0 none none 0 0x4400 (agentEp 0)).2.1 = none := by decide +kernel

set_option maxRecDepth 20000 in
theorem test_premises_PartialLoadsAndScrubbing_scrub :
    (let s := ready.modPlate 0 fun x => { x with sigs := [(0, 5)] }
     signature (frameOfNo 0) (s.frame 0 (frameOfNo 0)) ≠ sget 0 (s.plate 0).sigs 0 ∧
     (readGolden s 0 (frameOfNo 0)).2.1 = false ∧ (readGolden s 0 (frameOfNo 0)).1 = 0) ∧
    (let s := loading {}
     (s.region ⟨0, fin 8 0⟩).state = .loading) ∧
    (ready.plate 0).scrub.failed = false ∧ BitVec.ofNat 32 (ready.rf (scrubAt 0 8) 32 32) = (ready.plate 0).scrub.lastSeen ∧
    (ready.plate 0).scrub.resets.length < ready.policy 0x0D ∧
    (let limit := max 20000000 (ready.policy 0x0C * (160000 * max 8 ((vote3 (ready.plate 0).scrub.copies).ctl.toNat / 256)) / 2)
     let t : Word := BitVec.ofNat 64 limit
     limit ≤ (t - (ready.plate 0).scrub.since).toNat ∧ (ready.mod.time - (ready.plate 0).scrub.since).toNat < limit ∧
     ready.policy 0x0D ≤ ((List.replicate (ready.policy 0x0D) t).filter fun r => decide ((t - r).toNat ≤ ready.policy 0x0E * 1000000)).length) :=
  by decide +kernel

/-- A key, and the header of an image that says nothing but the length of its body. -/
def key0 : List Byte := List.replicate 32 7
def header0 (n : Nat) : List Byte := List.replicate 24 0 ++ leBytes 8 n ++ List.replicate 224 0

/-- The bytes at `o` of a body of which the stream spells `bs` there. -/
def spelt (h : List Byte) (o : Nat) (bs : List Byte) : List Byte :=
  xorBytes bs (bodyStream h ((o % 2 ^ 26 + bs.length) / 2 ^ 26) key0 (o / 2 ^ 26) (o % 2 ^ 26) bs.length)

/-- A stream of `n` bytes under way at byte `o`, with the flash device as given. -/
def under (n o : Nat) (m : SMap Byte) : State :=
  { idle with boot := { loading := true, bodyLen := n, offset := o, key := key0 }, nv := { flash0 := m } }

/-- A stream of 200,000,000 bytes whose body spells `bs` where it stands; its header is zero. -/
def spelling (o : Nat) (bs : List Byte) (tag : List Byte := []) : State :=
  under 200000000 o (writeMem (writeMem [] 0x8000 tag) (0x8000 + o) (spelt (List.replicate 256 0) o bs))

/-- Bytes of one command of each kind. -/
def commands : List (List Byte) :=
  [cmdBytes 0x01 7, cmdBytes 0x02 0 ++ leBytes 128 5, cmdBytes 0x03 1 ++ leBytes 4 0 ++ leBytes 128 1 ++ leBytes 128 2,
   cmdBytes 0x04 1 ++ leBytes 128 3 ++ leBytes 4 0 ++ leBytes 4 1, cmdBytes 0x05 1 ++ leBytes 4 0, cmdBytes 0x10 7 ++ leBytes 8 0,
   cmdBytes 0x20 0 ++ leBytes 8 0xA800000 ++ leBytes 4 16 ++ List.replicate 4 0 ++ List.replicate 16 9,
   cmdBytes 0x20 1 ++ leBytes 8 0 ++ leBytes 4 16 ++ List.replicate 4 0 ++ List.replicate 16 9,
   cmdBytes 0x30 0 ++ leBytes 8 0x20 ++ leBytes 8 1, cmdBytes 0x3F 0]

theorem length_spelt (h : List Byte) (o : Nat) (bs : List Byte) : (spelt h o bs).length = bs.length := length_xorBytes _ _

theorem under_flash (n o : Nat) (m : SMap Byte) : (under n o m).flash (under n o m).boot.image = m := rfl
theorem under_offset (n o : Nat) (m : SMap Byte) : (under n o m).boot.offset = o := rfl
theorem under_key (n o : Nat) (m : SMap Byte) : (under n o m).boot.key = key0 := rfl
theorem under_len (n o : Nat) (m : SMap Byte) : (under n o m).boot.bodyLen = n := rfl
theorem spelling_offset (o : Nat) (bs tag : List Byte) : (spelling o bs tag).boot.offset = o := rfl
theorem spelling_len (o : Nat) (bs tag : List Byte) : (spelling o bs tag).boot.bodyLen = 200000000 := rfl
theorem under_loading (n o : Nat) (m : SMap Byte) : (under n o m).boot.loading = true := rfl

theorem plain_under {n o : Nat} {m : SMap Byte} {bs h : List Byte} (hh : readMem m 0 256 = h)
    (hb : readMem m (0x8000 + o) bs.length = spelt h o bs) : (under n o m).plain 0 bs.length = bs := by
  apply plain_of_flash
  rw [under_flash, under_offset, under_key, hh, hb, spelt]

theorem segment_under {n o c : Nat} {m : SMap Byte} {h ct tag : List Byte} (hh : readMem m 0 256 = h) (hl : leAt h 24 8 = c) (hc : c ≤ 2 ^ 26)
    (hb : readMem m 0x8000 c = ct) (ht : readMem m (0x8000 + c) 16 = tag) :
    segmentOk (fun a k => readMem ((under n o m).flash (under n o m).boot.image) a k) key0 0 = (gcmTag key0 (segmentIv h 0) h ct == tag) := by
  have e : min (2 ^ 26) (c - 0 * 2 ^ 26) = c := by omega
  unfold segmentOk
  dsimp only
  rw [under_flash, hh, hl, e, Nat.zero_mul, Nat.add_zero, Nat.add_zero, hb, ht]

theorem readMem_drop (m : SMap Byte) (a n d : Nat) : (readMem m a (d + n)).drop d = readMem m (a + d) n := by
  apply List.ext_getElem
  · simp only [List.length_drop, length_readMem]; omega
  · intro i _ _; simp only [readMem, List.getElem_drop, List.getElem_map, List.getElem_range, Nat.add_assoc]

theorem readMem_writeMem_16 (m : SMap Byte) (a : Nat) (bs : List Byte) (h : bs.length = 16) : readMem (writeMem m a bs) a 16 = bs := by
  rw [← h, readMem_writeMem]

theorem zeros_header : readMem [] 0 256 = List.replicate 256 0 := by decide +kernel
theorem zeros_length : leAt (List.replicate 256 0) 24 8 = 0 := by decide +kernel

theorem header_spelling (o : Nat) (bs tag : List Byte) :
    readMem (writeMem (writeMem [] 0x8000 tag) (0x8000 + o) (spelt (List.replicate 256 0) o bs)) 0 256 = List.replicate 256 0 := by
  rw [readMem_writeMem_out _ _ _ _ _ (.inl (by omega)), readMem_writeMem_out _ _ _ _ _ (.inl (by decide)), zeros_header]

theorem plain_spelling (o : Nat) (bs tag : List Byte) : (spelling o bs tag).plain 0 bs.length = bs := by
  refine plain_under (header_spelling o bs tag) ?_
  have := readMem_writeMem (writeMem [] 0x8000 tag) (0x8000 + o) (spelt (List.replicate 256 0) o bs)
  rwa [length_spelt] at this

/-- A body spells each command of the list, and its word is one of Table 12.6. -/
theorem test_premises_CommandStream_spells : ∀ bs ∈ commands, let s := spelling 0 bs
    wordOk s.cmdWord = true ∧ s.spells 0 bs = true ∧ s.boot.offset + bs.length < s.boot.bodyLen := by
  intro bs hb
  have hl : 4 ≤ bs.length ∧ bs.length < 1000 ∧ wordOk (leAt (bs.take 4) 0 4) = true := by revert bs; decide +kernel
  have h := plain_spelling 0 bs []
  refine ⟨?_, spells_of_plain _ _ h ?_, ?_⟩
  · rw [cmdWord_of_plain _ _ h hl.1]; exact hl.2.2
  all_goals rw [spelling_offset, spelling_len]; omega

/-- The data of a BLOB stand behind its padding. -/
theorem test_premises_CommandStream_blob : ∀ bs ∈ [nth [] commands 6, nth [] commands 7], let s := spelling 0 bs
    (s.plain 16 4).all (· == 0) = true ∧ s.plain 20 16 = List.replicate 16 9 := by
  intro bs hb
  have hl : bs.length = 36 ∧ ((bs.take 20).drop 16).all (· == 0) = true ∧ bs.drop 20 = List.replicate 16 9 := by revert bs; decide +kernel
  have h := plain_spelling 0 bs []
  rw [hl.1] at h
  refine ⟨?_, ?_⟩
  · rw [plain_drop, ← plain_take _ (by decide : 16 + 4 ≤ 36), h]; exact hl.2.1
  · rw [plain_drop, h]; exact hl.2.2

/-- An unassigned word, and a word with a reserved bit. -/
theorem test_premises_CommandStream_words : ∀ w ∈ [cmdBytes 0x06 0, cmdBytes 0x01 8], wordOk (spelling 0 w).cmdWord = false := by
  intro w hw
  have hl : 4 ≤ w.length ∧ wordOk (leAt (w.take 4) 0 4) = false := by revert w; decide +kernel
  rw [cmdWord_of_plain _ _ (plain_spelling 0 w []) hl.1]; exact hl.2

/-- The body spells END where a PLATE command is sent. -/
theorem test_premises_CommandStream_another : (spelling 0 (cmdBytes 0x3F 0)).spells 0 (cmdBytes 0x01 0) = false := by
  have h := plain_spelling 0 (cmdBytes 0x3F 0) []
  have e : (cmdBytes 0x3F 0).length = 4 := by decide
  rw [e] at h
  show ((spelling 0 (cmdBytes 0x3F 0)).plain 0 4 == cmdBytes 0x01 0) = false
  rw [h]; decide +kernel

/-- The tag of the first segment of an image with a zero header, and another. -/
def goodTag : List Byte := gcmTag key0 (segmentIv (List.replicate 256 0) 0) (List.replicate 256 0) []
def badTag : List Byte := xorBytes goodTag [1]

theorem length_goodTag : goodTag.length = 16 := length_gcmTag _ _ _ _
theorem length_badTag : badTag.length = 16 := (length_xorBytes _ _).trans length_goodTag

theorem xorBytes_ne (t : List Byte) (h : 0 < t.length) : t ≠ xorBytes t [1] := by
  cases t with
  | nil => exact absurd h (by decide)
  | cons b t =>
    intro e
    exact absurd (List.cons.inj e).1 (by clear e h; revert b; decide)

theorem goodTag_ne_badTag : goodTag ≠ badTag := xorBytes_ne _ (by rw [length_goodTag]; decide)

theorem segment_of_tag (o : Nat) (ho : 16 ≤ o) (bs tag : List Byte) (ht : tag.length = 16) :
    segmentOk (fun a n => readMem ((spelling o bs tag).flash (spelling o bs tag).boot.image) a n) key0 0 = (goodTag == tag) := by
  refine segment_under (n := 200000000) (o := o) (c := 0) (header_spelling o bs tag) zeros_length (by decide) rfl ?_
  rw [readMem_writeMem_out _ _ _ _ _ (.inl (by omega)), ← ht]
  exact readMem_writeMem [] 0x8000 tag

theorem loading_bootFail (s : State) (n : Fin 2) (r o : Nat) : (s.bootFail n r o).boot.loading = false := by
  unfold State.bootFail
  dsimp only
  split <;> rfl

theorem rollKey_same (s : State) (i : Nat) : s.rollKey i i = s := by rw [State.rollKey, Nat.sub_self]; rfl

/-- The first segment passes or not, and the stream goes on or not. -/
theorem roll_of_segment (s : State) (h : s.boot.loading = true) :
    (s.rollKey 0 1).boot.loading = segmentOk (fun a n => readMem (s.flash s.boot.image) a n) s.boot.key 0 := by
  have e : s.rollKey 0 1 = if segmentOk (fun a n => readMem (s.flash s.boot.image) a n) s.boot.key 0 then
      s.modBoot fun x => { x with key := nextKey (slice (readMem (s.flash s.boot.image) 0 256) 32 12) x.key 0 }
    else s.bootFail s.boot.image 0x18 0 := by
    show (if (!s.boot.loading) = true then s else _) = _
    rw [h]; rfl
  rw [e]
  cases segmentOk (fun a n => readMem (s.flash s.boot.image) a n) s.boot.key 0
  · rw [if_neg (by decide)]; exact loading_bootFail _ _ _ _
  · exact h

theorem good_segment {tag : List Byte} (h : tag = goodTag ∨ tag = badTag) : (goodTag == tag) = (tag == goodTag) := by
  rcases h with rfl | rfl
  · rfl
  · rw [beq_eq_false_iff_ne.2 goodTag_ne_badTag, beq_eq_false_iff_ne.2 goodTag_ne_badTag.symm]

/-- A FRAME command that the first segment ends in, and a ZERO command that it ends with: its tag passes, or not. -/
theorem test_premises_CommandStream_boundaries : ∀ tag ∈ [goodTag, badTag],
    (let bs := cmdBytes 0x02 0 ++ leBytes 128 5
     let s := spelling (2 ^ 26 - 4) bs tag
     wordOk s.cmdWord = true ∧ s.spells 0 bs = true ∧
       (s.rollKey (s.boot.offset / 2 ^ 26) ((s.boot.offset + 131) / 2 ^ 26)).boot.loading = (tag == goodTag)) ∧
    (let bs := cmdBytes 0x05 1 ++ leBytes 4 0
     let s := spelling (2 ^ 26 - 8) bs tag
     let t := s.rollKey (s.boot.offset / 2 ^ 26) ((s.boot.offset + 7) / 2 ^ 26)
     wordOk s.cmdWord = true ∧ s.spells 0 bs = true ∧ t.boot.loading = true ∧
       (t.rollKey ((s.boot.offset + 7) / 2 ^ 26) ((s.boot.offset + 8) / 2 ^ 26)).boot.loading = (tag == goodTag)) := by
  intro tag h
  have hm : tag = goodTag ∨ tag = badTag := by
    rcases List.mem_cons.1 h with rfl | h
    · exact .inl rfl
    · exact .inr (List.mem_singleton.1 h)
  have ht : tag.length = 16 := by
    rcases hm with rfl | rfl
    · exact length_goodTag
    · exact length_badTag
  have hg := good_segment hm
  have hf : ∀ o, 16 ≤ o → ∀ bs : List Byte, 4 ≤ bs.length → o + bs.length ≤ 200000000 → wordOk (leAt (bs.take 4) 0 4) = true →
      wordOk (spelling o bs tag).cmdWord = true ∧ (spelling o bs tag).spells 0 bs = true ∧
        ((spelling o bs tag).rollKey 0 1).boot.loading = (tag == goodTag) := by
    intro o ho bs hb hn hw
    have hp := plain_spelling o bs tag
    have hl : (spelling o bs tag).boot.loading = true := under_loading _ _ _
    refine ⟨?_, spells_of_plain _ _ hp (by rw [spelling_offset, spelling_len]; exact hn), ?_⟩
    · rw [cmdWord_of_plain _ _ hp hb]; exact hw
    · rw [roll_of_segment _ hl]; exact (segment_of_tag o ho bs tag ht).trans hg
  have f := hf (2 ^ 26 - 4) (by decide) (cmdBytes 0x02 0 ++ leBytes 128 5) (by decide +kernel) (by decide +kernel) (by decide +kernel)
  have z := hf (2 ^ 26 - 8) (by decide) (cmdBytes 0x05 1 ++ leBytes 4 0) (by decide +kernel) (by decide +kernel) (by decide +kernel)
  have key : ∀ a b c d e : Nat, a = 0 → b = 1 → c = 0 → d = 0 → e = 1 →
      (wordOk (spelling (2 ^ 26 - 4) (cmdBytes 0x02 0 ++ leBytes 128 5) tag).cmdWord = true ∧
        (spelling (2 ^ 26 - 4) (cmdBytes 0x02 0 ++ leBytes 128 5) tag).spells 0 (cmdBytes 0x02 0 ++ leBytes 128 5) = true ∧
        ((spelling (2 ^ 26 - 4) (cmdBytes 0x02 0 ++ leBytes 128 5) tag).rollKey a b).boot.loading = (tag == goodTag)) ∧
      wordOk (spelling (2 ^ 26 - 8) (cmdBytes 0x05 1 ++ leBytes 4 0) tag).cmdWord = true ∧
      (spelling (2 ^ 26 - 8) (cmdBytes 0x05 1 ++ leBytes 4 0) tag).spells 0 (cmdBytes 0x05 1 ++ leBytes 4 0) = true ∧
      ((spelling (2 ^ 26 - 8) (cmdBytes 0x05 1 ++ leBytes 4 0) tag).rollKey c d).boot.loading = true ∧
      (((spelling (2 ^ 26 - 8) (cmdBytes 0x05 1 ++ leBytes 4 0) tag).rollKey c d).rollKey d e).boot.loading = (tag == goodTag) := by
    intro a b c d e ha hb hc hd he
    subst ha hb hc hd he
    exact ⟨f, z.1, z.2.1, by rw [rollKey_same]; exact under_loading _ _ _, by rw [rollKey_same]; exact z.2.2⟩
  dsimp only
  rw [spelling_offset, spelling_offset]
  exact key _ _ _ _ _ (by decide +kernel) (by decide +kernel) (by decide +kernel) (by decide +kernel) (by decide +kernel)

/-- An image of a body that spells `bs` from byte `o` on, with its one tag right or not, and the stream there. -/
def imageOf (o : Nat) (bs : List Byte) (good : Bool) : State :=
  let h := header0 (o + bs.length)
  let ct := List.replicate o 0 ++ spelt h o bs
  let tag := gcmTag key0 (segmentIv h 0) h ct
  under (o + bs.length) o (writeMem (writeMem (writeMem [] 0 h) 0x8000 ct) (0x8000 + (o + bs.length)) (if good then tag else xorBytes tag [1]))

theorem imageOf_boot (o : Nat) (bs : List Byte) (good : Bool) :
    (imageOf o bs good).boot = { loading := true, bodyLen := o + bs.length, offset := o, key := key0 } := rfl

theorem header_leAt (n : Nat) (h : n < 256) : leAt (header0 n) 24 8 = n := by
  revert n; decide +kernel

/-- What an image with that tag spells, and whether its segment passes. -/
theorem image_facts_of_tag (o : Nat) (bs t : List Byte) (h : o + bs.length < 256) (ht : t.length = 16) :
    let n := o + bs.length
    let ct := List.replicate o 0 ++ spelt (header0 n) o bs
    let s := under n o (writeMem (writeMem (writeMem [] 0 (header0 n)) 0x8000 ct) (0x8000 + n) t)
    s.plain 0 bs.length = bs ∧ segmentOk (fun a k => readMem (s.flash s.boot.image) a k) key0 0 =
      (gcmTag key0 (segmentIv (header0 n) 0) (header0 n) ct == t) := by
  intro n ct s
  have hn : (header0 n).length = 256 := by simp only [header0, List.length_append, List.length_replicate, length_leBytes]
  have hc : ct.length = n := by simp only [ct, n, List.length_append, List.length_replicate, length_spelt]
  have hh : readMem (writeMem (writeMem (writeMem [] 0 (header0 n)) 0x8000 ct) (0x8000 + n) t) 0 256 = header0 n := by
    rw [readMem_writeMem_out _ _ _ _ _ (.inl (by omega)), readMem_writeMem_out _ _ _ _ _ (.inl (by omega)), ← hn, readMem_writeMem]
  have hb : readMem (writeMem (writeMem (writeMem [] 0 (header0 n)) 0x8000 ct) (0x8000 + n) t) 0x8000 n = ct := by
    rw [readMem_writeMem_out _ _ _ _ _ (.inl (by omega))]
    have := readMem_writeMem (writeMem [] 0 (header0 n)) 0x8000 ct
    rwa [hc] at this
  refine ⟨plain_under hh ?_, segment_under hh (header_leAt _ h) (by omega) hb (readMem_writeMem_16 _ _ _ ht)⟩
  have := congrArg (List.drop o) hb
  rw [readMem_drop] at this
  rw [this]
  exact List.drop_left' List.length_replicate

theorem image_facts (o : Nat) (bs : List Byte) (good : Bool) (h : o + bs.length < 256) :
    (imageOf o bs good).plain 0 bs.length = bs ∧
      segmentOk (fun a k => readMem ((imageOf o bs good).flash (imageOf o bs good).boot.image) a k) key0 0 = good := by
  cases good
  · have f := image_facts_of_tag o bs _ h ((length_xorBytes _ [1]).trans (length_gcmTag key0 (segmentIv (header0 (o + bs.length)) 0)
      (header0 (o + bs.length)) (List.replicate o 0 ++ spelt (header0 (o + bs.length)) o bs)))
    exact ⟨f.1, f.2.trans (beq_eq_false_iff_ne.2 (xorBytes_ne _ (by rw [length_gcmTag]; decide)))⟩
  · have f := image_facts_of_tag o bs _ h (length_gcmTag key0 (segmentIv (header0 (o + bs.length)) 0)
      (header0 (o + bs.length)) (List.replicate o 0 ++ spelt (header0 (o + bs.length)) o bs))
    exact ⟨f.1, f.2.trans (beq_self_eq_true _)⟩

/-- A PLATE command at the very end of the body. -/
theorem test_premises_CommandStream_last : ∀ good ∈ [true, false], let s := imageOf 12 (cmdBytes 0x01 3) good
    wordOk s.cmdWord = true ∧ s.spells 0 (cmdBytes 0x01 3) = true ∧ s.boot.offset + 4 = s.boot.bodyLen ∧
      ((s.modBoot fun x => { x with plate := 3 }).rollKey ((16 - 1) / 2 ^ 26) (segments 16)).boot.loading = good := by
  intro good _
  have f := image_facts 12 (cmdBytes 0x01 3) good (by decide)
  refine ⟨?_, spells_of_plain _ _ f.1 (by rw [imageOf_boot] <;> exact Nat.le_refl _), rfl, ?_⟩
  · rw [cmdWord_of_plain _ _ f.1 (by decide)]; decide +kernel
  · rw [show (16 - 1) / 2 ^ 26 = 0 from rfl, show segments 16 = 1 from rfl, roll_of_segment _ rfl]; exact f.2

/-- A FRAME command that runs past the end of the body. -/
theorem test_premises_CommandStream_past : let s := imageOf 4 (cmdBytes 0x02 0 ++ List.replicate 8 0) true
    wordOk s.cmdWord = true ∧ s.spells 0 (cmdBytes 0x02 0 ++ leBytes 128 0) = true ∧ s.boot.bodyLen < s.boot.offset + 132 := by
  have f := image_facts 4 (cmdBytes 0x02 0 ++ List.replicate 8 0) true (by decide)
  refine ⟨?_, ?_, by rw [imageOf_boot]; decide⟩
  · rw [cmdWord_of_plain _ _ f.1 (by decide)]; decide +kernel
  · rw [State.spells, imageOf_boot,
      show (cmdBytes 0x02 0 ++ leBytes 128 0).take (4 + (cmdBytes 0x02 0 ++ List.replicate 8 (0 : Byte)).length - 4 - 0) =
        cmdBytes 0x02 0 ++ List.replicate 8 0 from by decide +kernel, f.1]
    exact beq_self_eq_true _

/-- Zeros, or not, behind END, and a tag that passes or not. -/
theorem test_premises_CommandStream_tail : ∀ good ∈ [true, false], ∀ x ∈ [(0 : Byte), 1], let s := imageOf 4 (List.replicate 8 x) good
    let c := s.boot.offset / 2 ^ 26
    let e := min s.boot.bodyLen ((c + 1) * 2 ^ 26)
    s.boot.loading = true ∧ ((s.plain 0 (e - s.boot.offset)).all (· == 0)) = (x == 0) ∧
      segmentOk (fun a k => readMem (s.flash s.boot.image) a k) s.boot.key c = good := by
  intro good _ x hx
  have f := image_facts 4 (List.replicate 8 x) good (by rw [List.length_replicate]; decide)
  refine ⟨by rw [imageOf_boot], ?_, ?_⟩
  case refine_2 =>
    rw [show (imageOf 4 (List.replicate 8 x) good).boot.key = key0 from by rw [imageOf_boot],
      show (imageOf 4 (List.replicate 8 x) good).boot.offset / 2 ^ 26 = 0 from by rw [imageOf_boot]; exact (rfl : 4 / 2 ^ 26 = 0)]
    exact f.2
  rw [imageOf_boot, List.length_replicate]
  rw [List.length_replicate] at f
  rw [show min (4 + 8) ((4 / 2 ^ 26 + 1) * 2 ^ 26) - 4 = 8 from rfl, f.1]
  clear f
  revert x; decide

/-- END as the last command of the body. -/
theorem test_premises_CommandStream_end : ∀ good ∈ [true, false], let s := imageOf 12 (cmdBytes 0x3F 0) good
    let u := s.rollKey (s.boot.offset / 2 ^ 26) ((s.boot.offset + 4) / 2 ^ 26)
    let v := u.modBoot fun x => { x with offset := if x.loading then s.boot.offset + 4 else x.offset }
    wordOk s.cmdWord = true ∧ s.spells 0 (cmdBytes 0x3F (0 : BitVec 24).toNat ++ []) = true ∧
      (v.tailGo (segments s.boot.bodyLen - (s.boot.offset + 4) / 2 ^ 26)).boot.loading = good := by
  intro good _
  have f := image_facts 12 (cmdBytes 0x3F 0) good (by decide)
  dsimp only
  rw [show cmdBytes 0x3F (0 : BitVec 24).toNat ++ [] = cmdBytes 0x3F 0 from rfl]
  refine ⟨?_, spells_of_plain _ _ f.1 (by rw [imageOf_boot] <;> exact Nat.le_refl _), ?_⟩
  · rw [cmdWord_of_plain _ _ f.1 (by decide)]; decide +kernel
  · rw [imageOf_boot, show 12 / 2 ^ 26 = 0 from rfl, show (12 + 4) / 2 ^ 26 = 0 from rfl, rollKey_same,
      show segments (12 + (cmdBytes 0x3F 0).length) - 0 = 1 from by decide]
    generalize hv : (imageOf 12 (cmdBytes 0x3F 0) good).modBoot (fun x => { x with offset := if x.loading then 12 + 4 else x.offset }) = v
    have hb : v.boot = { loading := true, bodyLen := 16, offset := 16, key := key0 } := by rw [← hv]; rfl
    have hf : v.flash v.boot.image = (imageOf 12 (cmdBytes 0x3F 0) good).flash (imageOf 12 (cmdBytes 0x3F 0) good).boot.image := by rw [← hv]; rfl
    have hr := roll_of_segment v (by rw [hb])
    rw [hf, hb, f.2] at hr
    show (if (!v.boot.loading) = true then v else if (!(v.plain 0 _).all _) = true then _ else _).boot.loading = good
    rw [hb]
    rw [show min 16 ((16 / 2 ^ 26 + 1) * 2 ^ 26) - 16 = 0 from rfl, List.length_eq_zero_iff.1 (length_plain v 0 0)]
    exact hr

theorem test_premises_CommandStream :
    frameValid 0 = true ∧ frameValid (2 ^ 19) = false ∧ runValid 0 2 = true ∧ runLength 2 = true ∧ runLength 0 = false ∧
    (0 : Word) &&& ~~~0x3FFFF07FF07FF#64 = 0 ∧ bitsOf (0 : Word) 16 11 < 1250 ∧
    bitOf ((spelling 0 []).reg (channelAt ⟨0, 0⟩ 0x18)) 49 = false ∧
    0xA800000 ≤ (0xB000000 - 16 : Nat) ∧ (0xB000000 - 16) + 16 ≤ 0xB000000 ∧ 80 * 2 ^ 20 < 80 * 2 ^ 20 - 8 + 16 ∧
    (let s := (spelling 0 []).modBoot fun x => { x with staged := [(0, 0, 80 * 2 ^ 20 - 8, 0)] }
     (s.bootFail s.boot.image 0x1A s.boot.offset).boot.loading = false) ∧
    (idle.setRf (confAt 0) 8 4 5).rf (confAt 0) 8 4 = 5 ∧
    idle.rf (confAt 0) 8 4 = 0 ∧ idle.mod.inReset = false ∧ idle.boot.loading = false ∧ idle.nextImage = some 0 ∧ idle.pins.bootsel ≠ 3 := by
  decide +kernel

/-- Flash 0 holds the magic and nothing else. -/
theorem test_premises_CommandStream_image :
    (let s : State := { idle with nv := { flash0 := [(0, 0x53), (1, 0x56), (2, 0x50), (3, 0x49)] } }
     leAt (readMem (s.flash 0) 0 256) 0 4 = 0x49505653 ∧ headerReason s (Config.flashSize 0) (readMem (s.flash 0) 0 256) ≠ 0) := by
  decide +kernel

/-- The stream stands at a REGION command of a region that has its window. -/
def rewindow : State := (spelling 0 (cmdBytes 0x10 7 ++ leBytes 8 0)).setReg (channelAt ⟨0, 7⟩ 0x18) (BitVec.ofNat 64 (2 ^ 49))

theorem rewindow_set : bitOf (rewindow.reg (channelAt ⟨rewindow.boot.plate, 7⟩ 0x18)) 49 = true := by decide +kernel
theorem plain_setReg (s : State) (a : Nat) (v : Word) (o n : Nat) : (s.setReg a v).plain o n = s.plain o n := plain_congr rfl rfl o n
theorem rewindow_plain : rewindow.plain 0 (cmdBytes 0x10 7 ++ leBytes 8 0).length = cmdBytes 0x10 7 ++ leBytes 8 0 := by
  rw [rewindow, plain_setReg, plain_spelling]
theorem rewindow_ends : rewindow.boot.offset + 12 ≤ rewindow.boot.bodyLen ∧ rewindow.boot.offset % 2 ^ 26 + 12 ≤ 2 ^ 26 := by decide +kernel

theorem rewindow_loading : rewindow.boot.loading = true := by decide +kernel

theorem test_premises_RegionWindowIsSetOnce :
    rewindow.boot.loading = true ∧ bitOf (rewindow.reg (channelAt ⟨rewindow.boot.plate, 7⟩ 0x18)) 49 = true ∧ wordOk rewindow.cmdWord = true ∧
      rewindow.spells 0 (cmdBytes 0x10 7 ++ leBytes 8 0) = true ∧ rewindow.boot.offset + 12 ≤ rewindow.boot.bodyLen ∧
      rewindow.boot.offset % 2 ^ 26 + 12 ≤ 2 ^ 26 := by
  have hl : (cmdBytes 0x10 7 ++ leBytes 8 0).length = 12 := by decide
  refine ⟨rewindow_loading, rewindow_set, ?_, spells_of_plain _ _ rewindow_plain (by rw [hl]; exact rewindow_ends.1), rewindow_ends⟩
  rw [cmdWord_of_plain _ _ rewindow_plain (by rw [hl]; decide)]; decide +kernel

theorem test_premises_ControlSpaceWrites :
    idle.mayWrite .complex = true ∧ idle.mayWrite .fabric = false ∧ locate 0x600000000 = none ∧
    (∀ x ∈ [((0x4 : Nat), false), (0x1000, true), (0x100108000, true)], (locate x.1).isSome = true ∧ (x.1 % 8 = 0) = x.2) ∧
    locate (hatchAt h0 0x40) = some (.hatch h0, 0x40) ∧ userWindow (.hatch h0) 0x40 = none ∧ (regIn (.hatch h0) 0x40).isSome = true ∧
    actsOnWrite (.hatch h0) 0x40 = false ∧ ((regIn (.hatch h0) 0x40).map fun r => (r.w1c == 0, r.rw != 0)) = some (true, true) ∧
    locate (regionAt g0 0x8008) = some (.region g0, 0x8008) ∧ userWindow (.region g0) 0x8008 = some g0 ∧
    ((regIn (.core i0) 0x300).map fun r => r.w1c != 0) = some true ∧ actsOnWrite (.core i0) 0x300 = false ∧
    ((regIn .glob 0).map fun r => (r.w1c, r.rw ||| r.rwl ||| r.w1p)) = some (0, 0) ∧ actsOnWrite .glob 0 = false ∧
    occupied 0x600000000 = false ∧ occupied 0x1010 = true ∧
    (∀ b ∈ [Blk.glob, .hatch h0, .region g0], ∀ src ∈ [PortClass.complex, .management],
      (idle.carry (idle.sourceEp src) (idle.windowEp b)).1 = .taken (idle.windowEp b) ∧
      (idle.carry (idle.windowEp b) (idle.sourceEp src)).1 = .taken (idle.sourceEp src)) ∧
    (nextOf (exec (.clkmodeWrite false 0) idle)).map (fun t => (t.carry (idle.windowEp .glob) (idle.sourceEp .complex)).1) =
      some (.taken (idle.sourceEp .complex)) ∧
    (let s := idle.setRouter (routerOf (idle.sourceEp .complex)) {}
     ∃ b ∈ [Blk.hatch h0, .hatch ⟨7, 3⟩], (s.carry (s.sourceEp .complex) (s.windowEp b)).1 = .lost) ∧
    (regIn (.scrub 0) 0).isSome = true ∧ locate (scrubAt 0 0) = some (.scrub 0, 0) ∧ actsOnWrite (.scrub 0) 0 = true ∧
    (let s := idle.setReg (routerAt (routerOf (idle.sourceEp .complex)) (0x800 + 8 * (idle.windowEp (.hatch h0) / 4 % 256))) 0
     s.mayWrite .complex = true ∧ (s.carry (s.sourceEp .complex) (s.windowEp (.hatch h0))).1 = .refused) := by decide +kernel

theorem test_premises_ClearsMeetHardwareSets :
    (let s : State := { idle with crossing := [(coreAt i0 0x300, 1)] }
     s.crossing.find? (fun y => y.1 == (BitVec.ofNat 40 (coreAt i0 0x300)).toNat) = some (coreAt i0 0x300, 1) ∧
     (regAt (coreAt i0 0x300)).isSome = true) := by decide +kernel

/-- Plate 0 as given. -/
def plated (x : PlateSt) : State := { idle with plates := [(0, x)] }
/-- GLB_CLKLIM reads TRIP(0). -/
def tripped0 : State := idle.setRf 0x118 32 1 1

theorem test_premises_ClocksAndLimits :
    switchOf (plated { act := 1 }) 0 { act := 1 } = some 0 ∧ bitsOf (0 : Word) 40 8 = 0 ∧ (idle.plate 0).switch = none ∧
    ((plated { switch := some 1 }).plate 0).switch = some 1 ∧ idle.capW < (6001 : BitVec 16).toNat ∧ ¬ idle.capW < (6000 : BitVec 16).toNat ∧
    (idle.plate 0).act ≠ 2 ∧ (idle.plate 0).capC.toNat < 2 ∧
    (let s : State := { idle with plates := (List.range 8).map fun p => (p, { act := 2 }) }
     ∀ r, ¬ ((s.plate r).act ≠ 2 ∧ (s.plate r).capC.toNat < 2)) ∧
    2000 * 100 < 95 * idle.capW ∧ 95 * idle.capW ≤ 6000 * 100 ∧
    1000 ≤ (1000 : BitVec 16).toNat ∧ (idle.plate 0).thermC.toNat < 2 ∧ 2 ≤ ((plated { thermC := 2 }).plate 0).thermC.toNat ∧
    (969 : BitVec 16).toNat < 970 ∧ ((plated { thermC := 1 }).plate 0).thermC ≠ 0 ∧ (idle.plate 0).thermC = 0 ∧
    1050 ≤ (1050 : BitVec 16).toNat ∧ (idle.plate 0).stopped = false ∧ ((plated { stopped := true }).plate 0).stopped = true ∧
    tripped0.rf 0x118 32 1 = 1 ∧ (949 : BitVec 16).toNat < 950 ∧ idle.rf 0x118 32 1 ≠ 1 ∧
    idle.policy 0x14 ≤ 2 ∧ tripped0.mod.tripped = false ∧ { tripped0 with mod := { tripped0.mod with tripped := true } }.mod.tripped = true := by decide +kernel

theorem test_premises_SuppliesAndResets :
    (let s : State := { State.reset with pins := { v48 := true, pwrOk := true } }
     s.pins.v48 = true ∧ s.mod.inReset = true ∧ s.pins.pwrOk = true) ∧
    State.reset.pins.v48 = false ∧ State.reset.pins.pwrOk = false ∧ idle.mod.inReset = false ∧
    (meshNext ⟨0, 0⟩ 1).isSome = true ∧ (0 : Fin 10).val / 2 ≠ (1 : Fin 5).val := by decide +kernel

/-- Start-up has come to a stage. -/
def stageAt (n : Nat) : State := idle.setRf 0x300 0 4 n

theorem test_premises_StartUp_reserve :
    ReservePlaced (fun i => (0xF#32).toNat.testBit i.key) (stageAt 6).reserveGiB [(0, 12 * 65536), (2 ^ 20, 4 * 65536)] ∧
    ¬ ReservePlaced (fun _ => true) (stageAt 6).reserveGiB [] := by
  refine ⟨⟨by decide +kernel, by decide +kernel, fun i j a b hij ha hb => ?_⟩, fun h => absurd h.1 (by decide +kernel)⟩
  rcases i with _ | _ | i <;> rcases j with _ | _ | j <;> simp at ha hb hij <;> subst ha <;> subst hb <;> decide

theorem test_premises_StartUp :
    (let s := stageAt 6
     let up (i : StackId) : Bool := (0xF#32).toNat.testBit i.key
     s.rf 0x300 0 4 = 6 ∧ s.rf 0x300 4 1 = 0 ∧ s.mod.inReset = false ∧ (1 : Byte).toNat.testBit 0 = true ∧
     (s.plate 0).stopped = false ∧ (s.plate 0).ctlDown ≠ 3 ∧ up ⟨0, 0⟩ = true ∧
     s.pair.proposal = none ∧ s.boot.staged = [] ∧ s.nv.repair = []) ∧
    (stageAt 7).rf 0x300 0 4 = 7 ∧ (stageAt 8).rf 0x300 0 4 = 8 ∧ ((stageAt 6).setRf 0x300 4 1 1).rf 0x300 4 1 = 1 ∧
    (let s : State := { stageAt 7 with pins := { twin := true } }
     let t := s.setRf (engineAt 0x100) 0 1 1
     t.pins.twin = true ∧ t.rf (engineAt 0x100) 0 1 = 1) ∧
    (let s : State := { stageAt 7 with ports := (List.range 10).map fun k => (k, { state := 5 }) }
     ∀ k : Fin 10, bitOf (s.reg (portAt k 0)) 0 = true → s.portUp k = true) ∧
    (let s := (stageAt 7).setReg (portAt 3 0) 1
     bitOf (s.reg (portAt 3 0)) 0 = true ∧ s.portUp 3 = false) ∧
    (let s := idle.setReg (regionAt g0 8) 1
     let t := s.setRegion g0 { state := .closed }
     (t.region g0).state = .closed ∧ t.rf (regionAt g0 8) 0 1 = 1 ∧ (t.dom g0.p (.region g0.r)).reset = false) ∧
    (let v : Word := BitVec.ofNat 64 (2 ^ 56 + 5 * 2 ^ 47)
     bitsOf v 47 6 < 36 ∧ bitsOf v 0 40 = 0 ∧ bitsOf v 56 8 = 1) ∧ bitsOf (0 : Word) 56 8 = 0 ∧
    idle.mod.repairW = none ∧ idle.nv.repair.length < 1024 ∧
    ({ idle with mod := { inReset := false, repairW := some 1 } } : State).mod.repairW = some 1 := by decide +kernel

/-- The closed bank of the collector holds one entry. -/
def closedBank (key : BitVec 16) (info : Bool) : State :=
  { idle with gfc := { held := true
                       closed := [{ key, info, own := true, wit := 0, rcd := { time := 0, suspect := key, reporter := key, cls := 1, body := [] } }] } }
/-- A per-function reset of an index runs. -/
def busyWith (k : Nat) : State := { idle with mod := { inReset := false, busy := [k] } }

theorem test_premises_FunctionResetsAndSteward :
    (busyWith 0x100).mod.busy.contains 0x100 = true ∧ (busyWith 0x110).mod.busy.contains 0x110 = true ∧
    (busyWith 0x380).mod.busy.contains 0x380 = true ∧ idle.mod.busy.contains 0x100 = false ∧ idle.mod.busy.contains 0x110 = false ∧
    idle.mod.busy.contains 0x380 = false ∧ idle.standAlone i0 = false ∧ (busyWith 0x300).mod.busy.contains (0x300 : BitVec 12).toNat = true ∧
    (0x100 : BitVec 12).toNat = 0x100 + h0.p.val * 0x20 + h0.h.val ∧ idle.mod.inReset = false ∧ State.reset.mod.inReset = true ∧
    idle.gfc.held = false ∧ ((closedBank 0x1000 false).gfc.held = true ∧ ((closedBank 0x1000 false).gfc.closed[0]?.map fun e => e.info) = some false ∧
      ((closedBank 0x2000 false).gfc.closed[0]?.map fun e => e.info) = some false ∧
      ((closedBank 0x8000 false).gfc.closed[0]?.map fun e => e.info) = some false) ∧
    ((closedBank 0x1000 true).gfc.closed[0]?.map fun e => e.info) = some true ∧
    fld (0x1000 : BitVec 16).toNat 12 4 = 1 ∧ fld (0x2000 : BitVec 16).toNat 12 4 = 2 ∧ fld (0x8000 : BitVec 16).toNat 12 4 = 8 := by decide +kernel

/-- Port 0 as given, with the module far enough in start-up and the port enabled. -/
def ported (x : PortSt) : State := { (stageAt 7).setReg (portAt 0 0) 1 with ports := [(0, x)] }
/-- A CAP block of a fabric partner. -/
def cap0 (version : BitVec 16) (seen : Bool) : CapMsg :=
  { cls := false, width8 := false, robust := false, seen, held := false, nextrx := 0, rxcred := 16, version, mid := 1, port := 0 }

theorem test_premises_PortsAndLanes_bring_up :
    (ported {}).portMayRun 0 = true ∧ idle.portMayRun 0 = false ∧
    (∀ n ∈ [0, 1, 2, 3, 4, (5 : BitVec 4)], ((ported { state := n }).port 0).state = n) ∧
    ((ported { state := 1, present := 0xFF }).port 0).present.toNat % 256 = 255 ∧ (0 : BitVec 16) ||| 0xFFFF = 0xFFFF ∧
    (cap0 2 true).version ≠ 1 ∧ (cap0 1 true).cls = decide (8 ≤ (0 : Fin 10).val) ∧ (cap0 1 true).seen = true ∧
    ((ported { state := 4, capSent := true }).port 0).capSent = true ∧ ((ported { heldL := true }).port 0).heldL = true ∧
    bitOf (0 : Word) 0 = false ∧ bitOf (1 : Word) 0 = true ∧ (busyWith 0x300).mod.busy.contains 0x300 = true ∧
    (let s := (ported { state := 5 }).setRf (portAt 0 0x100) 48 16 65535
     (s.policy 6 + 0 ≤ s.rf (portAt 0 0x100) 48 16) ∧ bitOf (s.reg (portAt 0 0)) 2 = false) ∧
    (let s := ported { state := 5 }
     ¬ ((∃ l < 16, s.policy 6 + nth 0 (s.port 0).pollInv l ≤ s.rf (portAt 0 (0x100 + 8 * l)) 48 16) ∨
       s.policy 7 + (s.port 0).pollCrc ≤ (s.reg (portAt 0 0x58)).toNat) ∧ (s.port 0).protAct = false) := by decide +kernel

/-- The payload of an alignment marker of lane 0 (Table 10.5). -/
abbrev marker : BitVec 256 := BitVec.ofNat 256 (leNat (0x4B#8 :: List.replicate 11 0 ++ List.replicate 20 0xA5))

/-- Port 0 in Lock, lane 0 as given. -/
def laned (x : LaneSt) : State := ported { state := 3, lanes := [(0, x)] }

theorem test_premises_PortsAndLanes_lanes :
    ((ported {}).port 0).state.toNat < 3 ∧ ((ported { width8 := true }).port 0).width ≤ (9 : Fin 16).val ∧
    3 ≤ ((laned {}).port 0).state.toNat ∧ (0 : Fin 16).val < ((laned {}).port 0).width ∧ (((laned {}).port 0).lane 0).run ≠ 24 ∧
    (((laned { run := 24 }).port 0).lane 0).run = 24 ∧ (((laned {}).port 0).lane 0).buf = [] ∧
    128 ≤ (((laned { buf := List.replicate 128 0 }).port 0).lane 0).buf.length ∧
    (({} : TxLane).fecOn = false ∧ ({} : TxLane).run = 0) ∧ (0 : Fin 4).val + (3 : Fin 4).val = 3 ∧
    (let p := (laned { lock := true }).port 0
     p.state = 3 ∧ (p.lane 0).lock = true ∧ (p.lane 0).seeded = false ∧ (p.lane 0).blocks = [] ∧ isAm marker = true ∧ fld marker.toNat 8 8 < p.width ∧
     (∀ m < p.width, m ≠ 0 → (p.lane m).seeded = false) ∧ (p.lane 1).blocks = [] ∧ ∀ m < p.width, (p.lane m).blocks.length ≤ 49) := by
  decide +kernel

/-- A parcel of 256 bytes that begins as given, with its CRC. -/
def parcelOf (head : List Byte) : List Byte :=
  let bs := head ++ List.replicate (252 - head.length) 0
  bs ++ leBytes 4 (crc32c bs).toNat
/-- A fabric request body: address, tag and the next word, then the data. -/
def fabBody (a m : Nat) (data : List Byte) : List Byte := leBytes 8 a ++ leBytes 4 7 ++ leBytes 4 m ++ data
/-- A window of granule 0 that admits port 0 to read and write, with the map entry of granule 0 cached. -/
def windowed : State :=
  (({ idle with plates := [(0, { l2 := [(0, goodEntry)] })] } : State).setReg (engineAt 0x200) 0xE001000000000000).setReg (engineAt 0x208) 16384

set_option maxRecDepth 20000 in
theorem test_premises_ParcelsAndFabricAccess_parcels :
    (∀ h ∈ [[0], [1], [1, 0, 0xFF, 0xFF], ([1, 0, 0, 0, 0, 0, 0, 0, 4, 0, 0, 0, 1, 2, 3, 4] : List Byte)],
      let bs := parcelOf h
      bs.length = 256 ∧ leAt bs 252 4 = (crc32c (slice bs 0 252)).toNat ∧ leAt bs 1 1 % 2 = 0 ∧ leAt bs 8 1 < 16) ∧
    leAt (parcelOf [0]) 0 1 % 16 = 0 ∧ leAt (parcelOf [1]) 0 1 % 16 = 1 ∧ 2 ≤ leAt (parcelOf [2]) 0 1 % 16 ∧
    leAt (parcelOf [1, 0, 0xFF, 0xFF]) 2 2 = 65535 ∧ ((0 : BitVec 16) - 0xFFFF).toNat ≤ 32768 ∧
    ([] : List Byte).length ≠ 256 := by decide +kernel

theorem test_premises_ParcelsAndFabricAccess_replay :
    ((ported { state := 5, unrep := true }).port 0).unrep = true ∧ ((ported { state := 5, replay := [⟨0, []⟩] }).port 0).replay ≠ [] ∧
    ((ported { state := 5, replay := [⟨0, []⟩] }).port 0).retries < max 1 ((ported {}).rf (portAt 0 0x10) 24 8) ∧
    max 1 ((ported {}).rf (portAt 0 0x10) 24 8) ≤ ((ported { state := 5, replay := [⟨0, []⟩], retries := 255 }).port 0).retries := by
  decide +kernel

theorem test_premises_ParcelsAndFabricAccess_fabric :
    (let b := fabBody 0 1 (List.replicate 16 9)
     32 ≤ b.length ∧ b.length - 16 = 16 ∧ leAt b 0 8 = 0 ∧ leAt b 12 1 ≤ 1 ∧ leAt b 13 3 = 0 ∧ fabWindow windowed 0 true 0 16 = true ∧
     fabWindow idle 0 true 0 16 = false ∧
     (devWriteLine windowed 0 none none 0 ((List.range 16).map fun j => (j, nth 0 (b.drop 16) j)) (fabEp 0)).1 = none) ∧
    (let b := fabBody 0 16 []
     b.length = 16 ∧ leAt b 12 4 = 16 ∧ fabWindow windowed 0 false 0 16 = true ∧ fabWindow idle 0 false 0 16 = false ∧
     (devRead windowed 0 none none 0 16 (fabEp 0)).2.1 = none) ∧
    (let s := windowed.modPlate 0 fun x => { x with l2 := [(0, mkEntry true false true 9 7 8)] }
     (devRead s 0 none none 0 16 (fabEp 0)).2.1 ≠ none) ∧ fabBody 0 0 [] ≠ [] := by decide +kernel

/-- A requester on port 0, with a server that runs. -/
def rq : MgmtReq :=
  { frame := { port := 0, v6 := false, dest := 5, bytes := 200 }, source := 1, udp := 2, reqid := 3, ether := 4, waits := false }
def listening (server : BitVec 3) (m : MgmtSt) : State :=
  ({ idle with mod := { inReset := false, server }, mgmt := { m with link := 1 } } : State).setRf (mgmtAt 0x108) 0 32 5

theorem test_premises_CommandsAreAnsweredOnce :
    idle.accepts rq.frame = false ∧ (∀ m ∈ [({} : MgmtSt), { queue := [(rq, .ident)] }, { queue := List.replicate 64 ({ rq with reqid := 9 }, .ident) }],
      (listening 1 m).accepts rq.frame = true ∧ (listening 1 m).keptFor rq = none ∧ (listening 1 m).mgmt.queue = m.queue) ∧
    sameKey rq rq = true ∧ sameKey { rq with reqid := 9 } rq = false ∧ rq.waits = false ∧ { rq with waits := true }.waits = true ∧
    ((listening 1 { kept := [(0, rq, 0x20, 0, [])] }).keptFor rq).isSome = true ∧ (listening 2 {}).serves 0x10 = false ∧
    (listening 3 {}).serves 0x30 = false := by decide +kernel

theorem test_premises_ManagementReads :
    (∀ op ∈ opcodes, Served ((listening 1 {}).edge 1) rq op ∧ Served (listening 1 {}) rq op) ∧ (0x1010 : Word).toNat < 2 ^ 40 ∧
    (let s := listening 1 {}
     occupied (hatchAt h0 0x40) = true ∧ (s.csWrite .management (hatchAt h0 0x40) 8 5).reg 0x1020 = s.reg 0x1020 ∧
     occupied 0x600000000 = false ∧ (s.csWrite .management 0 8 5).reg 0x1020 ≠ s.reg 0x1020) ∧
    (0 : BitVec 16).toNat < telCount 0x0401 ∧ telCount 0 ≤ (0 : BitVec 16).toNat ∧ (policyRange 1).isSome = true ∧ policyRange 0 = none ∧
    policyRange 2 = some (1, 255) ∧ (1 : Nat) ≤ 255 ∧ ¬ 1 ≤ (0 : BitVec 32).toNat ∧ (listening 1 {}).rf (portAt 0 0) 4 1 = 0 ∧
    ((listening 1 {}).setRf (portAt 0 0) 4 1 1).rf (portAt 0 0) 4 1 = 1 := by
  unfold Served
  decide +kernel

/-- An upload in a phase. -/
abbrev uploading (phase : BitVec 4) (len : Nat) : State := listening 1 { up := { phase, len } }

theorem test_premises_ManagementActions :
    ((uploading 0 0).mgmt.up.phase ≠ 2 ∧ (uploading 1 512).mgmt.up.phase = 1 ∧ (uploading 2 4).mgmt.up.phase = 2) ∧
    (let n := (List.replicate 256 (7 : Byte)).length
     0 % 256 = 0 ∧ 256 ≤ n ∧ n ≤ 8192 ∧ 0 + n ≤ (uploading 1 512).mgmt.up.len ∧ n % 256 = 0) ∧
    ¬ 256 ≤ ([] : List Byte).length ∧ (uploading 2 4).uploadReason ≠ 0 ∧
    (∀ ph ∈ [0, 1, 2, 3, 4, (5 : BitVec 4)], ∀ op ∈ opcodes, Served (uploading ph 0) rq op) ∧
    ({ uploading 2 4 with mgmt := { link := 1, up := { phase := 2, len := 4 } } } : State).mgmt.up.phase = 2 ∧
    (listening 1 {}).pair.state = .solo ∧ ({ listening 1 {} with pair := { state := .paired } } : State).pair.state = .paired ∧
    ({ listening 1 {} with pair := { state := .paired, peerCap := 16384 } } : State).pair.peerCap.toNat = 1 * 16384 ∧
    (1 : BitVec 25).toNat + (1 : BitVec 26).toNat ≤ 2 ^ 25 ∧ 2 ^ 25 < (0x1FFFFFF : BitVec 25).toNat + (2 : BitVec 26).toNat ∧
    (List.replicate 64 ({ first := 0, count := 1, state := 0 } : DurRegion)).length = 64 ∧
    (listening 1 {}).pair.regions.length ≤ 0 ∧
    ({ listening 1 {} with pair := { regions := [{ first := 0, count := 1, state := 0 }] } } : State).pair.regions[0]? =
      some { first := 0, count := 1, state := 0 } ∧
    (listening 1 {}).cmsn k0 = none ∧ ({ listening 1 {} with engine := { streams := [(1, some 0)] } } : State).engine.cmsns = [] := by
  unfold Served
  decide +kernel

theorem test_premises_PortsAndTestAccess :
    idle.mod.inReset = false ∧ State.reset.mod.inReset = true ∧ (busyWith 0x380).mod.busy.contains (0x380 + (0 : Fin 2).val) = true ∧
    (let s := listening 1 {}
     s.accepts rq.frame = true ∧ s.listens 0 = true ∧ s.holdsV4 0 5 = true ∧ s.holdsV4 0 6 = false) ∧ idle.listens 0 = false ∧
    (listening 1 {}).listens 0 = true ∧ badDatagram [] = true ∧
    badDatagram ([0x42, 0x4D, 1, 0, 1, 0] ++ List.replicate 10 0) = false ∧
    (let e : EvRec := { eseq := 1, time := 0, type := 3, unit := 0, detail := 0 }
     let x : SubSt := { port := 0, source := 1, udp := 2, mask := 8, period := 5, items := [(0x0401, 0)], sent := 0, told := 0 }
     ¬ x.period.toNat * 1000000 ≤ ((0 : Word) - x.told).toNat ∧ x.period.toNat * 1000000 ≤ ((5000000 : Word) - x.told).toNat ∧ x.items ≠ [] ∧
     let s := listening 1 { log := [e], subs := [(0, some x)] }
     sget none s.mgmt.subs 0 = some x ∧ s.linkOn x.port = true ∧
     (s.mgmt.log.filter fun e => decide (x.sent.toNat < e.eseq.toNat) && x.mask.toNat.testBit e.type.toNat) = [e]) ∧
    (∀ k < 4, sget none idle.mgmt.subs k = none) ∧
    (let s : State := { stageAt 3 with boot := { loading := true } }
     (s.rf 0x300 0 4 = 3 ∨ s.rf 0x300 0 4 = 4) ∧ s.cfgState < 8 ∧ s.mod.inReset = false ∧ s.boot.loading = true ∧ s.mgmt.up.phase = 0) ∧
    idle.rf 0x300 0 4 ≠ 3 ∧ idle.rf 0x300 0 4 ≠ 4 ∧ idle.pins.cfgDone = false ∧
    ({ idle with pins := { cfgDone := true } } : State).pins.cfgDone = true := by decide +kernel

/-- A port holds its own link-local address. -/
theorem test_premises_PortsAndTestAccess_own_address : idle.holdsV6 0 (linkLocal 0) = true := by simp [State.holdsV6]

theorem test_premises_StepRunsTheFront :
    ({ idle with pending := [.wdogKick] } : State).pending = .wdogKick :: [] ∧ idle.pending = [] ∧ idle.mgmt.queue = [] ∧
    (listening 1 { queue := [(rq, .ident)] }).pending = [] ∧ (listening 1 { queue := [(rq, .ident)] }).mgmt.queue ≠ [] ∧
    (listening 1 { queue := [(rq, .ident)] }).mod.inReset = false := by decide +kernel

theorem test_premises_OutputsFollowEveryStep :
    OutputsFollow { State.reset with pending := [.wdogKick] } ∧ ∃ t, step { State.reset with pending := [.wdogKick] } = .next t :=
  ⟨by unfold OutputsFollow; decide +kernel, _, rfl⟩

theorem test_premises_WellFormedCommandsComplete :
    Instr.wdogKick.wf = true ∧ (Instr.parcelReceive 0 []).wf = false := by decide +kernel

/-! ### Waits, boundaries and clauses that meet -/

/-- The stacks of plate 0 are under their per-function reset: an access to DRAM waits (R389). -/
def retraining (s : State) : State :=
  (List.finRange 4).foldl (fun (s : State) q => s.modStack ⟨0, q⟩ fun x => { x with state := 2, resetting := true }) { s with routers := meshUp }

theorem test_premises_PlannerAndLoader_waits :
    (scanned 0).2.mod.stall = false ∧ (scanned 1).2.mod.stall = false ∧ arguments.2.mod.stall = false ∧
    (∀ n ∈ [1, 0], let s := imaged n
      let r := psRead (s.modHatch h0 fun x => { x with lq := [] }) h0.p 0xAFF0000 512
      r.2.2.mod.stall = false ∧ (loadTensors h0 r.1 24 0 r.2.2).2.mod.stall = false) ∧
    (let s := retraining (psWrite (planned 1) 0 0xA800080 [5])
     s.plateUp 0 = true ∧ s.firstReady 0 = some readyCmsn ∧ (planGo s 0).mod.stall = true) ∧
    (let b := (imageBytes 1).set 328 1
     let s := retraining (psWrite (imaged 1) 0 0xAFF0000 b)
     let r := psRead (s.modHatch h0 fun x => { x with lq := [] }) h0.p 0xAFF0000 512
     (s.hatch h0).lq = [(0xAFF0000, none)] ∧ s.hatchUp h0 = true ∧ r.1 = b ∧ r.2.1 = false ∧ (loaderGo s h0).mod.stall = true) := by
  decide +kernel

theorem test_premises_WaitsForDram :
    (let s := retraining (walking 1)
     (s.plate 0).walks = [{ granule := 0, core := some 0 }] ∧
     (let r := walkEntry (s.modPlate 0 fun z => { z with walks := [] }) 0 0
      r.1.toOption.isSome = true ∧ r.2.mod.stall = true)) ∧
    (let c : Cmsn := { cmsn0 with state := .accepted, hatches := [], body := List.replicate 6 0 ++ [1] ++ List.replicate 169 0 }
     let s := retraining (serving c ready)
     s.cmsn k0 = some c ∧ (slotOpen s k0).mod.stall = true) := by decide +kernel

/-- The patrol of a stack is on (R385). -/
def patrolled (s : State) : State := s.setRf (stackAt ⟨0, 0⟩ 0) 24 8 1

theorem test_premises_StackedDram_waits :
    (∀ b ∈ [true, false],
      let s := patrolled (if b then served true 1 else idle.setStack ⟨0, 0⟩ { state := 1 })
      let x := s.stack ⟨0, 0⟩
      s.rf (stackAt ⟨0, 0⟩ 0) 24 8 ≠ 0 ∧ x.state = 1 ∧ x.resetting = false ∧ x.marks = [] ∧ s.mod.stall = false ∧
      s.mustWait ⟨0, 0⟩ (x.patrol % 0xC000000 * 64) = b) ∧
    (let s := idle.setStack ⟨0, 0⟩ { retire := some 0 }
     let u := (((((s.modStack ⟨0, 0⟩ fun y => { y with retire := none }).setRf (stackAt ⟨0, 0⟩ 0x48) 1 1 0).setRf (stackAt ⟨0, 0⟩ 0x48) 2 1 1).flag
       (stackAt ⟨0, 0⟩ 0x18) 3).modStack ⟨0, 0⟩ fun y => { y with failed := [0] })
     (s.stack ⟨0, 0⟩).due = [] ∧ (s.stack ⟨0, 0⟩).failed = [] ∧ mapped u = []) ∧
    (let s := served true 1
     let d : DReq := { src := 1023, tag := 0, line := 0, write := true, en := 0, data := [], cls := 0, age := 0, rt := none, mir := none }
     let t := s.setStack ⟨0, 0⟩ { state := 1, queue := [d] }
     (t.stack ⟨0, 0⟩).queue = [d] ∧ epOf d.src.toNat = .absent) ∧
    (let x := (idle.setStack ⟨0, 0⟩ { resetting := true }).stack ⟨0, 0⟩
     x.resetting = true ∧ x.state ≠ 3 ∧ x.due = [] ∧ x.fails < 2) := by decide +kernel

theorem test_premises_SlotsAndFaults_moves :
    (let c : Cmsn := { cmsn0 with state := .ready, held := true, fault := some 0 }
     let s := serving c (walking 2)
     s.cmsn k0 = some c ∧ s.frameFree (framesUsed s) 7 = true ∧ s.engine.pageIns = [] ∧ s.engine.moves = [] ∧ c.held = true ∧ c.fault ≠ none) ∧
    (let c : Cmsn := { cmsn0 with held := true }
     let s := serving c { walking 2 with engine := { pageIns := [(0, 7)] } }
     let t := serving c { walking 2 with engine := { moves := [(0, 7, 8)] } }
     s.cmsn k0 = some c ∧ t.cmsn k0 = some c ∧ (∃ x ∈ s.engine.pageIns, x.1 = (0 : BitVec 25).toNat) ∧ ∃ x ∈ t.engine.moves, x.1 = (0 : BitVec 25).toNat) ∧
    (let s : State := { walking 2 with engine := { pageIns := [(0, 7)], cmsns := [cmsn0] } }
     s.cmsn k0 = some cmsn0 ∧ (s.stack (frameStack 7)).state ≠ 3 ∧ s.engine.restoring = none ∧ (mapRead s 0).1 = some 2 ∧ meV 2 = false) := by
  decide +kernel

theorem test_premises_Detaching :
    (∀ got ∈ [true, false],
      let s : State := { paired with engine := { paired.engine with pending := [refused0], jseq := 1 }, pair := { state := .detaching, gotDet := got } }
      s.engine.pending = [refused0] ∧ s.engine.late = [] ∧ s.cmsn refused0.key = none ∧ s.engine.slots = [] ∧ s.pair.state = .detaching ∧
      s.engine.cmsns = [] ∧ s.pair.gotDet = got) ∧
    (let s : State := { paired with pair := { state := .detaching } }
     s.mod.busy.contains 0x3A0 = false ∧ s.engine.cmsns = [] ∧ s.engine.pending = [] ∧ s.pair.state = .detaching ∧ s.pair.gotDet = false) ∧
    (let s := { paired with mod := { paired.mod with busy := [0x3A0] } }
     s.mod.busy.contains 0x3A0 = true) ∧
    paired.pair.state ≠ .detaching := by decide +kernel

theorem test_premises_PairingAgrees_ranges :
    (pairing {}).rangesFit ((pairing {}).peersWith pair0.ranges) = true ∧
    (pairing {}).rangesFit ((pairing {}).peersWith [(0, 2 ^ 25)]) = false ∧
    (let s := pairing { gotAgree := true, gotReady := true }
     s.pair.state = .pairing ∧ s.pair.mirOut = [] ∧ s.pair.gotAgree = true ∧ s.pair.sentReady = false ∧ s.pair.gotReady = true) ∧
    (let s := pairing { gotAgree := true }
     s.pair.mirOut = [] ∧ s.pair.gotAgree = true ∧ s.pair.sentReady = false ∧ s.pair.gotReady = false) ∧
    (let s := serving cmsn0 paired
     s.pair.state = .paired ∧ s.engine.cmsns ≠ []) ∧ paired.engine.pending = [] ∧
    ¬(paired.pair.state = .isolated ∧ paired.pair.hbLoss = true) := by decide +kernel

theorem test_premises_StartUp_servers :
    (stageAt 6).mod.server ≠ 3 ∧
    (let s := (stageAt 6).modMod fun m => { m with server := 3 }
     s.rf 0x300 0 4 = 6 ∧ s.rf 0x300 4 1 = 0 ∧ s.mod.server = 3 ∧ s.mod.inReset = false) ∧
    (stageAt 8).mod.server ≠ 3 ∧ (stageAt 7).mod.server ≠ 3 ∧ (stageAt 7).pins.twin = false ∧ (stageAt 7).rf 0x300 0 4 ≠ 6 ∧
    (stageAt 9).rf 0x300 0 4 ≠ 8 ∧ (stageAt 9).rf 0x300 0 4 ≠ 7 ∧
    (let s : State := { idle with nv := { idle.nv with repair := List.replicate 1024 0 } }
     1024 ≤ s.nv.repair.length) := by decide +kernel

/-- The closed bank holds two entries, of which the steward has passed `n`. -/
def twoClosed (a b : BitVec 16) (info : Bool) (n : Nat) : State :=
  let e (k : BitVec 16) (i : Bool) : GEntry := { key := k, info := i, own := true, wit := 0, rcd := { time := 0, suspect := k, reporter := k, cls := 1, body := [] } }
  { idle with gfc := { held := true, tested := n, closed := [e a info, e b false] } }

theorem test_premises_FunctionResetsAndSteward_bank :
    (let s := twoClosed 0x2000 0x1000 true 0
     s.gfc.held = true ∧ s.gfc.tested ≤ 1 ∧ ((s.gfc.closed[0]?).map fun e => e.info) = some true ∧ ((s.gfc.closed[1]?).map fun e => (e.key, e.info)) = some (0x1000, false)) ∧
    (let s := twoClosed 0x2000 0x1000 false 0
     s.gfc.tested ≤ 0 ∧ 0 < 1 ∧ ((s.gfc.closed[0]?).map fun e => e.info) = some false) ∧
    (let s := twoClosed 0x2000 0x1000 false 1
     0 < s.gfc.tested ∧ s.gfc.closed[2]? = none) ∧
    (let s := (closedBank 0x6000 false).setRouter ⟨0, 0⟩ { up := [] }
     fld (0x6000 : BitVec 16).toNat 12 4 = 6 ∧ sget 0 (s.router ⟨0, 0⟩).up 0 = 0 ∧ ((s.gfc.closed[0]?).map fun e => e.info) = some false) ∧
    (let m := idle.mod
     (3 : Nat) ∈ m.appRun ∧ (List.range 16).find? (fun j => !m.appRun.contains j && !([3] : List Nat).contains j) = some 14) ∧
    (let l := [14, 15, 3]
     (3 : Nat) ∈ idle.mod.appRun ∧ ∀ j < 16, j ∈ idle.mod.appRun ∨ j ∈ l) ∧
    (15 : Nat) ∉ idle.mod.appRun ∧ idle.mod.appDown.contains 3 = false ∧
    ({ idle with mod := { idle.mod with appDown := [3] } } : State).mod.appDown.contains 3 = true ∧
    8 < ([1, 2, 3, 4, 5, 6, 7, 8, 9] : List Nat).length := by decide +kernel

theorem test_premises_CommissionsCommit_waits :
    (commitStart (serving { cmsn0 with state := .finished } ready) k0).mod.stall = false ∧
    (let c : Cmsn := { cmsn0 with state := .finished, slot := 1 }
     let s := serving c paired
     let s := retraining (s.modEngine fun e => { e with slots := [(1, { state := 1, key := k0, granules := [0] })] })
     s.cmsn k0 = some c ∧ (commitStart s k0).mod.stall = true) := by decide +kernel

theorem test_premises_FunctionResetsAndSteward_group :
    ((closedBank 0x6000 false).setRouter ⟨0, 0⟩ { up := [] }).routesClear = false := by decide +kernel

theorem test_premises_PartialLoadsAndScrubbing_split :
    (let x : ScrubSeq := {}
     let y : ScrubSeq := { pos := 3 }
     let s : State := idle.modPlate 0 fun z => { z with scrub := { copies := [y, x, x] } }
     vote3 (s.plate 0).scrub.copies = x ∧ (s.plate 0).scrub.copies ≠ [x, x, x] ∧ s.mod.busy.contains 0x118 = false ∧
     (s.plate 0).scrub.failed = false ∧ x.ctl.toNat.testBit 0 = true) ∧
    (({ ctl := 0x1000 } : ScrubSeq).ctl.toNat.testBit 0 = false) ∧ ({ failed := true } : ScrubSt).failed = true := by decide +kernel
/-! ### Values from the manual's worked examples -/

/-- §2.6.2, Tables 2.8 and 2.9: a K4 block in Flush mode. -/
theorem test_value_encoder :
    (let b := encodeBlock .k4 0x3F800000 false false
       ([some 0x459C4000, some 0xC2140000, some 0x3F800000, some 0x3CA3D70A, some 0x3C23D70A, some 0xBBA3D70A] ++ List.replicate 26 (some 0))
     (b.e8, b.codes.take 7, b.flush, b.flags)) =
      (0x83, [some 0x7A, some 0xC1, some 0x18, some 0x01, some 0x00, some 0x80, some 0x00], 2, fUnderflow) := by decide +kernel

/-- §3.4, Table 3.6: blocks with an infinity, and with infinity times zero. -/
theorem test_value_block_sums :
    floatBlock .k5 .k5 false 0x7F 0x7F (List.replicate 3 (0x3C, 0x38) ++ [(0x7C, 0x40)] ++ List.replicate 28 (0x3C, 0x38)) =
      some (0x7F800000, 0) ∧
    floatBlock .k5 .k5 false 0x7F 0x7F (List.replicate 32 (0x3C, 0x38)) = some (0x41800000, 0) ∧
    floatBlock .k5 .k5 false 0x7F 0x7F (List.replicate 6 (0x3C, 0x38) ++ [(0x7C, 0x00)] ++ List.replicate 25 (0x3C, 0x38)) =
      some (0x7FC00000, fInvalid) ∧
    addPart false false 0x7F800000 0x41800000 = (0x7F800000, 0) := by decide +kernel

/-- §4.4, Tables 4.5 and 4.6: cancellation inside a block, and across two. -/
theorem test_value_cancellation :
    floatBlock .k5 .k5 false 0x7F 0x7F
      ([(0x64, 0x64)] ++ List.replicate 10 (0x36, 0x35) ++ List.replicate 10 (0x04, 0x3C) ++ [(0x64, 0xE4)] ++ List.replicate 10 (0, 0)) =
      some (0x3F961400, 0) ∧
    floatBlock .k5 .k5 false 0x7F 0x7F ([(0x64, 0x64)] ++ List.replicate 10 (0x36, 0x35) ++ List.replicate 21 (0, 0)) = some (0x49800009, 0) ∧
    floatBlock .k5 .k5 false 0x7F 0x7F (List.replicate 10 (0x04, 0x3C) ++ [(0x64, 0xE4)] ++ List.replicate 21 (0, 0)) =
      some (0xC9800000, 0) ∧
    addPart false false 0x49800009 0xC9800000 = (0x3F900000, 0) := by decide +kernel

/-- §3.8.2: the skew table with physical row 45 bypassed. -/
theorem test_value_skew : skewWord 45 5 = 0x302F2E2C2B2A2928 ∧ skewWord 45 15 = 0x807F7E7D7C7B7A79 := by decide +kernel

/-- §5.6: a linear FUNC table in Native and in KX-4 compatibility mode. -/
theorem test_value_table :
    (let b : Bank := { hdr := 0x0003FC07#32 ++ 0x3F800000#32 ++ 0#32 ++ 0xC0000000#32, recs := writeMem [] 0x50 [0, 0, 0, 0x3F, 0, 0, 0x40, 0x3F] }
     (ufn32 b false false false 0x3F4CCCCD).1 = 0x3F733334 ∧ (ufn32 b true false false 0x3F4CCCCD).1 = 0x3F733333) := by decide +kernel

/-- Table 5.6: position codes near the end of the range. -/
theorem test_value_posc :
    posc false 0xFFF400 (2 ^ 52) = (0x3F800000, 0) ∧ posc true 0xFFF400 (2 ^ 52) = (0, 0) ∧
    posc false 0xFFF800 (2 ^ 52) = (0, 0) ∧ posc true 0xFFF800 (2 ^ 52) = (0xBF800000, 0) := by decide +kernel

/-- Table 5.7: statistics of identical values. -/
theorem test_value_statistics :
    (let l := (statAdd .b32 false (statAdd .b32 false (statAdd .b32 false {} 0x4B800001).1 0x4B800001).1 0x4B800001).1
     (l.n, statMean false false l, statVar false false false l, statVar true false false l)) = (3, (0x4B800001, 0), (0, 0), (0, 0)) := by
  decide +kernel

/-- Table 7.4: the A-tile descriptor. -/
theorem test_value_descriptor :
    (let b : List Byte := leBytes 8 0x1000040000 ++ leBytes 4 0x180 ++ leBytes 4 0x80 ++ leBytes 4 0x00800064 ++ leBytes 4 0x01000000 ++
       leBytes 4 0x3200 ++ leBytes 4 0x80 ++ leBytes 4 0x03000003 ++ leBytes 4 0x002C0064 ++ leBytes 4 0x2011 ++ List.replicate 20 0
     let d := xdescOf b
     xdescZeros b = true ∧ d.ok false = true ∧ (d.addr, d.rstride, d.tstride, d.rows, d.rbytes) = (0x1000040000, 384, 128, 100, 128) ∧
     (d.dbase, d.tsize, d.dstride, d.tiles, d.depth) = (0x1000000, 12800, 128, 3, 3) ∧ (d.lrows, d.lrbytes, d.ev, d.even) = (100, 44, 1, true) ∧
     (d.cen, d.pair) = (false, true)) := by decide +kernel

/-- §8.8: the map entry of device address 0x12_3456_7880, and Table 8.11. -/
theorem test_value_device_address :
    mapPlace (idle.setRf (plateAt 5 0x2000) 20 2 3) (0x1234567880 / 16384) false = (⟨5, 3⟩, 0x2FE48D148) ∧ mkEntry true false false 0 0x903A7C 0 = 0x903A7C003 ∧
    frameStack 0x903A7C = ⟨2, 1⟩ ∧ frameAddr 0x903A7C 0x3880 = 0x0E9F3880 ∧
    locOf 0 0x0E9F3880 = { row := 0x3A7, bank := 12, ch := 1, sid := 0, col := 7, unit := 0 } ∧
    (locOf 1 0x0E9F3880).ch = 14 ∧ (locOf 1 0x0E9F3880).col = 1 ∧ (locOf 2 0x0E9F3880).bank = 11 ∧
    ((locOf 3 0x0E9F3880).ch, (locOf 3 0x0E9F3880).bank) = (6, 6) := by decide +kernel

/-- §9.3: the route of a map walk from plate 2, router 2 to stack 3 of plate 5. -/
theorem test_value_route : bitsOf (defaultRoute ⟨2, 2⟩ 0xBA) 0 48 = 0xA93 ∧ bitsOf (defaultRoute ⟨2, 2⟩ 0xBA) 48 4 = 4 ∧
    stackEp ⟨5, 3⟩ 1 = 0x2E9 := by decide +kernel

/-- §0.6.3: the block of core 22 of plate 5. -/
theorem test_value_core_block : coreAt ⟨5, 22⟩ 0 = 0x105360000 ∧ (CoreId.hatch ⟨5, 22⟩).h = 2 := by decide +kernel

/-- §12.4: the frames of the REPEAT example are frame addresses. -/
theorem test_value_frames : frameValid 0x100A5 = true ∧ frameValid 0x100B5 = true ∧ frameValid 0x100C5 = true := by decide +kernel

/-- Table 14.9: REGWR writes GLB_MODE. -/
theorem test_value_regwr :
    (let s := writeAll [(0x100, 0x100)] 0 (listening 1 {}) 0 none
     (s.1, s.2.1, s.2.2.rf 0x100 0 1, s.2.2.rf 0x100 4 8)) = (1, none, 0, 16) := by decide +kernel

/-- §15.7: the reset of stack 2 of plate 3 is index 0x16A, bit 42 of FUNC_BUSY1. -/
theorem test_value_reset_index : 0x100 + 3 * 0x20 + 0x08 + 2 = 0x16A ∧ ((funcReset idle 0x16A).csRead .complex 0x210).1 = 2 ^ 42 := by decide +kernel

/-- §13.9: the second record of a suspect counts one witness, and the first stays latched. -/
theorem test_value_witness :
    (let r (u : BitVec 16) : FRec := { time := 0, suspect := 0x3602, reporter := u, cls := 1, body := [] }
     let s := recordGo (recordGo { idle with gfc := { frec := [r 0x1005, r 0x1006] } })
     s.gfc.opened.map fun e => (e.key, e.wit, e.own, e.rcd.reporter)) = [(0x3602, 1, false, 0x1005)] := by decide +kernel

set_option maxRecDepth 20000 in
/-- R391: the check value of "123456789", CRC-32C's usual test. -/
theorem test_value_crc : crc32c [0x31, 0x32, 0x33, 0x34, 0x35, 0x36, 0x37, 0x38, 0x39] = 0xE3069283 := by decide +kernel

end Sys2Proof.Tests
end

section
/-! PROOFS. A clear of W1C flags and the hardware events of the same cycle (R15, R17). -/
namespace Sys2Proof.Machine

/-! ### The hardware events of one cycle -/

/-- One hardware event of every flag below `n` of the register at `a` that the mask `w` names. -/
def State.flagsBelow (w : Word) (a n : Nat) (s : State) : State :=
  (List.range n).foldl (fun (s : State) b => if bitOf w b then s.flag a b else s) s

@[simp] theorem State.flagsBelow_zero (w : Word) (a : Nat) (s : State) : s.flagsBelow w a 0 = s := rfl

theorem State.flagsBelow_succ (w : Word) (a n : Nat) (s : State) :
    s.flagsBelow w a (n + 1) = if bitOf w n then (s.flagsBelow w a n).flag a n else s.flagsBelow w a n := by
  simp [State.flagsBelow, List.range_succ]

@[simp] theorem State.flag_crossing (s : State) (a b : Nat) : (s.flag a b).crossing = s.crossing := rfl

@[simp] theorem State.flagsBelow_crossing (w : Word) (a n : Nat) (s : State) :
    (s.flagsBelow w a n).crossing = s.crossing := by
  induction n with
  | zero => rfl
  | succ n ih => rw [State.flagsBelow_succ]; split <;> simp [ih]

/-- An event sets its own bit of the flag register and no other (R15). -/
theorem State.bitOf_reg_flag (s : State) (a b k : Nat) :
    bitOf ((s.flag a b).reg a) k = (bitOf (s.reg a) k || (decide (k < 64) && decide (b = k))) := by
  obtain ⟨hflag, -, -, -⟩ := s.flag_spec a b
  show ((s.flag a b).reg a).getLsbD k = ((s.reg a).getLsbD k || _)
  rw [hflag, BitVec.getLsbD_or, BitVec.getLsbD_ofNat, Nat.testBit_two_pow]

/-- An event counts in the companion counter of its own flag and in no other (R15). -/
theorem State.counter_flag (s : State) (a b c : Nat) :
    (s.flag a b).reg (a + 8 + 8 * c) = if c = b then s.reg (a + 8 + 8 * c) + 1 else s.reg (a + 8 + 8 * c) := by
  obtain ⟨-, hcount, hother, -⟩ := s.flag_spec a b
  split
  next h => subst h; exact hcount
  next h => exact hother _ (by omega) (by omega)

/-- By induction on the flags: each event adds its own bit. -/
theorem State.bitOf_reg_flagsBelow (w : Word) (a n k : Nat) (hk : k < 64) (s : State) :
    bitOf ((s.flagsBelow w a n).reg a) k = (bitOf (s.reg a) k || (decide (k < n) && bitOf w k)) := by
  induction n with
  | zero => simp
  | succ n ih =>
    rw [State.flagsBelow_succ]
    by_cases hkn : k = n
    · subst hkn
      cases hw : bitOf w k <;> simp [State.bitOf_reg_flag, ih, hk, hw]
    · have hlt : k < n + 1 ↔ k < n := by omega
      cases hw : bitOf w n <;> simp [State.bitOf_reg_flag, ih, hlt, Ne.symm hkn]

/-- No event of another flag touches a companion counter, so each counts at most once. -/
theorem State.counter_flagsBelow (w : Word) (a n b : Nat) (s : State) :
    (s.flagsBelow w a n).reg (a + 8 + 8 * b) =
      if b < n ∧ bitOf w b = true then s.reg (a + 8 + 8 * b) + 1 else s.reg (a + 8 + 8 * b) := by
  induction n with
  | zero => simp
  | succ n ih =>
    rw [State.flagsBelow_succ]
    by_cases hbn : b = n
    · subst hbn
      cases hw : bitOf w b <;> simp [State.counter_flag, ih, hw]
    · have hlt : b < n + 1 ↔ b < n := by omega
      cases hw : bitOf w n <;> simp [State.counter_flag, ih, hlt, hbn]

/-- The events of all 64 bits of the mask add the mask to the flag register. -/
theorem State.reg_flagsBelow_all (w : Word) (a : Nat) (s : State) : (s.flagsBelow w a 64).reg a = s.reg a ||| w := by
  refine BitVec.eq_of_getLsbD_eq fun k hk => ?_
  rw [BitVec.getLsbD_or]
  show bitOf ((s.flagsBelow w a 64).reg a) k = (bitOf (s.reg a) k || bitOf w k)
  rw [State.bitOf_reg_flagsBelow w a 64 k hk]
  simp [hk]

/-! ### The clear -/

/-- A clear on its way to a register leaves the list, clears the flags it names, and then the events of the cycle happen (R17). -/
theorem clearGo_of_crossing {s : State} {a : Nat} {x : Nat × Word} {r : RegInfo} (hwSet : Word)
    (hx : s.crossing.find? (fun y => y.1 == a) = some x) (hr : regAt a = some r) :
    clearGo s a hwSet = State.flagsBelow (hwSet &&& r.w1c) a 64
      (({ s with crossing := s.crossing.erase x } : State).setReg a (s.reg a &&& ~~~x.2)) := by
  unfold clearGo
  rw [hx, hr]
  rfl

/-- Settles O46: the flags named are cleared before the events of the cycle set theirs and count them. -/
theorem clearsMeetHardwareSets : Obligations.ClearsMeetHardwareSets := by
  intro addr hwSet s a x r hx hr sets
  have hgo := clearGo_of_crossing hwSet hx hr
  refine ⟨settle (clearGo s a hwSet), rfl, ?_, ?_, fun b hb => ?_⟩
  · rw [settle_crossing, hgo, State.flagsBelow_crossing, State.setReg_crossing]
  · show (clearGo s a hwSet).reg a = _
    rw [hgo, State.reg_flagsBelow_all, State.reg_setReg_same]
  · show (clearGo s a hwSet).reg (a + 8 + 8 * b) = _
    have hcounter : a + 8 + 8 * b ≠ a := by omega
    rw [hgo, State.counter_flagsBelow, State.reg_setReg_ne _ _ hcounter]
    simp only [hb, true_and]
    rfl

end Sys2Proof.Machine
end

section
/-! PROOFS. A clear of encoder slots and the counts that arrive with it (R87, R89). -/
namespace Sys2Proof.Machine

/-! ### The two halves of a word -/

theorem bitsOf_upperHalf (hi lo : BitVec 32) : bitsOf (hi ++ lo : Word) 32 32 = hi.toNat := by
  have hupper : (hi ++ lo).toNat >>> 32 = hi.toNat := by
    rw [BitVec.toNat_append, Nat.shiftRight_or_distrib, Nat.shiftLeft_shiftRight, Nat.shiftRight_eq_zero _ _ lo.isLt, Nat.or_zero]
  rw [bitsOf, fld, hupper, Nat.mod_eq_of_lt hi.isLt]

theorem bitsOf_lowerHalf (hi lo : BitVec 32) : bitsOf (hi ++ lo : Word) 0 32 = lo.toNat := by
  rw [bitsOf, fld, Nat.shiftRight_zero, BitVec.toNat_append, ← Nat.shiftLeft_add_eq_or_of_lt lo.isLt, Nat.shiftLeft_eq,
    Nat.mul_add_mod_self_right, Nat.mod_eq_of_lt lo.isLt]

/-- A field write shows the value's bits inside the field and the word's own bits outside it. -/
theorem getLsbD_withBits (w : Word) (lo n v : Nat) {k : Nat} (hk : k < 64) :
    (withBits w lo n v).getLsbD k = if lo ≤ k ∧ k < lo + n then v.testBit (k - lo) else w.getLsbD k := by
  unfold withBits
  rw [BitVec.getLsbD_or, BitVec.getLsbD_and, BitVec.getLsbD_not, BitVec.getLsbD_ofNat, BitVec.getLsbD_ofNat,
    Nat.testBit_shiftLeft, Nat.testBit_shiftLeft, Nat.testBit_two_pow_sub_one, Nat.testBit_mod_two_pow]
  have hoff : lo ≤ k → (k - lo < n ↔ k < lo + n) := by omega
  by_cases hlo : lo ≤ k
  · by_cases hhi : k < lo + n <;> simp [hk, hlo, hhi, hoff]
  · simp [hk, hlo]

theorem withBits_upperHalf (hi lo : BitVec 32) (v : Nat) : withBits (hi ++ lo) 32 32 v = BitVec.ofNat 32 v ++ lo := by
  refine BitVec.eq_of_getLsbD_eq fun k hk => ?_
  rw [getLsbD_withBits _ _ _ _ hk, BitVec.getLsbD_append, BitVec.getLsbD_append, BitVec.getLsbD_ofNat]
  by_cases hlow : k < 32
  · have houtside : ¬ (32 ≤ k ∧ k < 32 + 32) := by omega
    rw [if_neg houtside, if_pos hlow, if_pos hlow]
  · have hinside : 32 ≤ k ∧ k < 32 + 32 := by omega
    have hupper : k - 32 < 32 := by omega
    rw [if_pos hinside, if_neg hlow, decide_eq_true hupper, Bool.true_and]

theorem withBits_lowerHalf (hi lo : BitVec 32) (v : Nat) : withBits (hi ++ lo) 0 32 v = hi ++ BitVec.ofNat 32 v := by
  refine BitVec.eq_of_getLsbD_eq fun k hk => ?_
  rw [getLsbD_withBits _ _ _ _ hk, BitVec.getLsbD_append, BitVec.getLsbD_append, BitVec.getLsbD_ofNat]
  by_cases hlow : k < 32
  · have hinside : 0 ≤ k ∧ k < 0 + 32 := by omega
    rw [if_pos hinside, if_pos hlow, decide_eq_true hlow, Bool.true_and, Nat.sub_zero]
  · have houtside : ¬ (0 ≤ k ∧ k < 0 + 32) := by omega
    rw [if_neg houtside, if_neg hlow, if_neg hlow]

theorem append_eq_ofNat (hi lo : BitVec 32) : (hi ++ lo : Word) = BitVec.ofNat 64 (hi.toNat * 2 ^ 32 + lo.toNat) := by
  refine BitVec.eq_of_toNat_eq ?_
  rw [BitVec.toNat_append, ← Nat.shiftLeft_add_eq_or_of_lt lo.isLt, Nat.shiftLeft_eq, BitVec.toNat_ofNat, Nat.mod_eq_of_lt (by omega)]

/-! ### Encoder slots -/

/-- The register of encoder slot `n` of a hatch (Table 2.6). -/
def encSlot (h : HatchId) (n : Nat) : Nat := hatchAt h (0x1000 + 8 * n)

theorem encSlot_inj {h : HatchId} {m n : Nat} : encSlot h m = encSlot h n ↔ m = n := by
  unfold encSlot hatchAt
  omega

/-- Counts add to FLUSH and NANZ of their slot, each held at its largest value (R87, Table 2.6). -/
theorem State.reg_encCount (s : State) (h : HatchId) (n : BitVec 4) (flush nanz : Nat) {hi lo : BitVec 32}
    (hs : s.reg (encSlot h n.toNat) = hi ++ lo) :
    (s.encCount h n flush nanz).reg (encSlot h n.toNat) =
      BitVec.ofNat 32 (satN 32 (hi.toNat + flush)) ++ BitVec.ofNat 32 (satN 32 (lo.toNat + nanz)) := by
  have hflush : (s.satRf (encSlot h n.toNat) 32 32 flush).reg (encSlot h n.toNat) = BitVec.ofNat 32 (satN 32 (hi.toNat + flush)) ++ lo := by
    rw [State.satRf, State.setRf, State.rf, State.reg_setReg_same, hs, bitsOf_upperHalf, withBits_upperHalf]
  show ((s.satRf (encSlot h n.toNat) 32 32 flush).satRf (encSlot h n.toNat) 0 32 nanz).reg (encSlot h n.toNat) = _
  rw [State.satRf, State.setRf, State.rf, State.reg_setReg_same, hflush, bitsOf_lowerHalf, withBits_lowerHalf]

/-- A count that fits its field is not held back. -/
theorem ofNat_satN_toNat (x : BitVec 32) : BitVec.ofNat 32 (satN 32 (0 + x.toNat)) = x := by
  have hfits : satN 32 (0 + x.toNat) = x.toNat := by have := x.isLt; unfold satN; omega
  rw [hfits, BitVec.ofNat_toNat, BitVec.setWidth_eq]

/-- The clears that a write of HATCH_ENCCLR makes in the slots below `n`. -/
def State.clearSlotsBelow (h : HatchId) (clr : BitVec 16) (n : Nat) (s : State) : State :=
  (List.range n).foldl (fun s k => if clr.toNat.testBit k then s.setReg (encSlot h k) 0 else s) s

theorem State.clearSlotsBelow_succ (h : HatchId) (clr : BitVec 16) (n : Nat) (s : State) :
    s.clearSlotsBelow h clr (n + 1) =
      if clr.toNat.testBit n then (s.clearSlotsBelow h clr n).setReg (encSlot h n) 0 else s.clearSlotsBelow h clr n := by
  simp [State.clearSlotsBelow, List.range_succ]

theorem State.reg_clearSlotsBelow (h : HatchId) (clr : BitVec 16) (n k : Nat) (s : State) :
    (s.clearSlotsBelow h clr n).reg (encSlot h k) =
      if k < n ∧ clr.toNat.testBit k = true then 0 else s.reg (encSlot h k) := by
  induction n with
  | zero => simp [State.clearSlotsBelow]
  | succ n ih =>
    rw [State.clearSlotsBelow_succ]
    by_cases hkn : k = n
    · subst hkn
      cases hclr : clr.toNat.testBit k <;> simp [ih, hclr]
    · have hlt : k < n + 1 ↔ k < n := by omega
      cases hclr : clr.toNat.testBit n <;> simp [State.reg_setReg, encSlot_inj, ih, hkn, hlt]

/-- All sixteen slots are gone through before the counts that arrive are added (R89). -/
theorem encClear_eq (s : State) (h : HatchId) (clr : BitVec 16) (arriving : List (BitVec 4 × BitVec 32 × BitVec 32)) :
    encClear s h clr arriving =
      arriving.foldl (fun s x => s.encCount h x.1 x.2.1.toNat x.2.2.toNat) (s.clearSlotsBelow h clr 16) := rfl

/-- Settles O23: the counts are added to the slot after its clear, so they are all that it holds. -/
theorem clearedSlotHoldsItsCounts : Obligations.ClearedSlotHoldsItsCounts := by
  intro h clr n flushed nans s hclr
  have hcleared : (s.clearSlotsBelow h clr 16).reg (encSlot h n.toNat) = 0#32 ++ 0#32 := by
    rw [State.reg_clearSlotsBelow, if_pos ⟨n.isLt, hclr⟩]
    rfl
  refine ⟨settle (encClear s h clr [(n, flushed, nans)]), rfl, ?_⟩
  calc (settle (encClear s h clr [(n, flushed, nans)])).reg (encSlot h n.toNat)
      = ((s.clearSlotsBelow h clr 16).encCount h n flushed.toNat nans.toNat).reg (encSlot h n.toNat) := by
        rw [settle_reg, encClear_eq, List.foldl_cons, List.foldl_nil]
    _ = flushed ++ nans := by
        rw [State.reg_encCount _ _ _ _ _ hcleared, BitVec.toNat_zero, ofNat_satN_toNat, ofNat_satN_toNat]
    _ = BitVec.ofNat 64 (flushed.toNat * 2 ^ 32 + nans.toNat) := append_eq_ofNat flushed nans

end Sys2Proof.Machine
end

section
/-! PROOFS. Arrivals at a barrier unit (R413, R414). -/
namespace Sys2Proof.Machine

/-! ### A packet taken out of an inbox -/

@[simp] theorem State.hatch_setInbox (s : State) (a : Nat) (l : List Packet) (h : HatchId) : (s.setInbox a l).hatch h = s.hatch h := rfl

@[simp] theorem State.tagQ_setInbox (s : State) (a : Nat) (l : List Packet) (q : Issuer) : (s.setInbox a l).tagQ q = s.tagQ q := by
  cases q <;> rfl

@[simp] theorem State.bar_setInbox (s : State) (a : Nat) (l : List Packet) (p : Option (Fin 8)) (g : BitVec 4) :
    (s.setInbox a l).bar p g = s.bar p g := by
  cases p <;> rfl

/-! ### The barrier unit -/

/-- The endpoint of a barrier unit: the control agent of its plate, or endpoint 0 of the commission engine (R413). -/
def barUnitEp : Option (Fin 8) → Nat
  | some p => agentEp p
  | none => moduleBarEp

/-- What an arrival of a hatch that waits does at its group's counter (R414). -/
def State.barArrival (s : State) (p : Option (Fin 8)) (g : BitVec 4) (n : Byte) (h : HatchId) : State :=
  let x := s.bar p g
  if x.arrived ≠ [] ∧ x.count ≠ n then
    (s.reportFlag 0 (hatchUnit h) 0x01 2 (s.tagQ (.hatch h)) (s.hatch h).seq.pc 5).abortHatch h
  else if n.toNat ≤ x.arrived.length + 1 then
    (x.arrived ++ [h]).foldl (fun (t : State) y => t.inject (barUnitEp p) (hatchEpAddr y) .brel) (s.setBar p g {})
  else s.setBar p g { count := n, arrived := x.arrived ++ [h] }

section Arrival
variable {s : State} {p : Option (Fin 8)} {g : BitVec 4} {n : Byte} {h : HatchId}

/-- A count other than the first arrival's is a fault of the sender. -/
theorem State.barArrival_of_mismatch (hfirst : (s.bar p g).arrived ≠ []) (hcount : (s.bar p g).count ≠ n) :
    s.barArrival p g n h =
      (s.reportFlag 0 (hatchUnit h) 0x01 2 (s.tagQ (.hatch h)) (s.hatch h).seq.pc 5).abortHatch h :=
  if_pos ⟨hfirst, hcount⟩

/-- Before the count is reached, the arrival is added to the group. -/
theorem State.barArrival_of_lt (hagree : (s.bar p g).arrived = [] ∨ (s.bar p g).count = n)
    (hlt : (s.bar p g).arrived.length + 1 < n.toNat) :
    s.barArrival p g n h = s.setBar p g { count := n, arrived := (s.bar p g).arrived ++ [h] } := by
  have hmatch : ¬ ((s.bar p g).arrived ≠ [] ∧ (s.bar p g).count ≠ n) := fun ⟨hfirst, hcount⟩ => hagree.elim hfirst hcount
  exact (if_neg hmatch).trans (if_neg (Nat.not_le_of_lt hlt))

/-- The arrival that reaches the count releases all that arrived and clears the counter. -/
theorem State.barArrival_of_ge (hagree : (s.bar p g).arrived = [] ∨ (s.bar p g).count = n)
    (hge : n.toNat ≤ (s.bar p g).arrived.length + 1) :
    s.barArrival p g n h =
      ((s.bar p g).arrived ++ [h]).foldl (fun (t : State) y => t.inject (barUnitEp p) (hatchEpAddr y) .brel) (s.setBar p g {}) := by
  have hmatch : ¬ ((s.bar p g).arrived ≠ [] ∧ (s.bar p g).count ≠ n) := fun ⟨hfirst, hcount⟩ => hagree.elim hfirst hcount
  exact (if_neg hmatch).trans (if_pos hge)

end Arrival

/-- The oldest BARR of a hatch that still waits for its commission leaves the inbox, and its arrival is counted. -/
theorem exec_barr_of_waiting {p : Option (Fin 8)} {s : State} {pk : Packet} {md : Bool} {g : BitVec 4} {n : Byte} {k : Option CmsnKey}
    {h : HatchId} (hpk : ((s.inboxOf (barUnitEp p)).find? fun pk => pk.kind == 10) = some pk) (hload : pk.load = .barr md g n k h)
    (hrun : ∃ l, (s.hatch h).run = some l ∧ l.key = k) (hwait : (s.hatch h).seq.arrived = true) :
    exec (.barr p) s = .next (settle
      ((s.setInbox (barUnitEp p) ((s.inboxOf (barUnitEp p)).eraseP fun pk => pk.kind == 10)).barArrival p g n h)) := by
  obtain ⟨l, hl, hkey⟩ := hrun
  have htake : barrTake s p =
      (s.setInbox (barUnitEp p) ((s.inboxOf (barUnitEp p)).eraseP fun pk => pk.kind == 10)).barArrival p g n h := by
    cases p
    all_goals
      simp only [barUnitEp] at hpk
      simp only [barrTake, hpk, hload]
      simp [State.barArrival, barUnitEp, hl, hkey, hwait]
  exact congrArg (fun t => Host.Outcome.next (settle t)) htake

/-- Settles O30 (assumptions 28 and 71): the counter before the arrival says which of the three things it does. -/
theorem barriersCount : Obligations.BarriersCount := by
  intro p s pk md g n k h a hpk hload hrun hwait u x
  have hexec : exec (.barr p) s = .next (settle (u.barArrival p g n h)) := exec_barr_of_waiting hpk hload hrun hwait
  have hx : u.bar p g = x := State.bar_setInbox ..
  have htag : u.tagQ (.hatch h) = s.tagQ (.hatch h) := State.tagQ_setInbox ..
  refine ⟨fun hagree => ⟨fun hlt => ?_, fun hge => ?_⟩, fun hfirst hcount => ?_⟩
  · rw [hexec, State.barArrival_of_lt (hx ▸ hagree) (hx ▸ hlt), hx]
  · rw [hexec, State.barArrival_of_ge (hx ▸ hagree) (hx ▸ hge), hx]
    rfl
  · rw [hexec, State.barArrival_of_mismatch (hx ▸ hfirst) (hx ▸ hcount), htag]
    rfl

end Sys2Proof.Machine
end

section
/-! PROOFS. A REGION command for a region that already has a window (R493), and what a failing image leaves (R500). -/
namespace Sys2Proof.Machine

/-- A field write shows in the low bits of its field. -/
theorem bitsOf_withBits_low (w : Word) {lo m n : Nat} (v : Nat) (hmn : m ≤ n) (hn : lo + n ≤ 64) :
    bitsOf (withBits w lo n v) lo m = v % 2 ^ m := by
  refine Nat.eq_of_testBit_eq fun k => ?_
  rw [bitsOf, fld, Nat.testBit_mod_two_pow, Nat.testBit_mod_two_pow, Nat.testBit_shiftRight]
  by_cases hk : k < m
  · have hinside : lo ≤ lo + k ∧ lo + k < lo + n := by omega
    have hbit : (withBits w lo n v).toNat.testBit (lo + k) = v.testBit k := by
      rw [BitVec.testBit_toNat, getLsbD_withBits _ _ _ _ (by omega), if_pos hinside, Nat.add_sub_cancel_left]
    rw [hbit]
  · simp [hk]

/-! ### A failing image -/

@[simp] theorem State.setCfgState_cores (s : State) (k : Nat) : (s.setCfgState k).cores = s.cores := rfl

@[simp] theorem State.setCfgState_nv (s : State) (k : Nat) : (s.setCfgState k).nv = s.nv := rfl

theorem State.reg_setCfgState_ne (s : State) (k : Nat) {a : Nat} (ha : a ≠ confAt 0) : (s.setCfgState k).reg a = s.reg a :=
  State.reg_setReg_ne s _ ha

/-- The result register of an image is not the configuration status. -/
theorem confAt_result_ne_status (n : Fin 2) : confAt (8 + 8 * n.val) ≠ confAt 0 := by
  unfold confAt
  omega

/-- The configuration block and the channels of the regions share no register. -/
theorem confAt_ne_channelAt (o : Nat) (i : RegionId) (o' : Nat) (ho : o' < 0x100) : confAt o ≠ channelAt i o' := by
  have hp := i.p.isLt
  have hr := i.r.isLt
  simp only [confAt, channelAt, Blk.base, Blk.base.plateBase]
  omega

/-- What reads alike after each of its updates reads alike after a fold of them. -/
theorem foldl_keeps {α β γ : Type} (f : α → γ) (g : α → β → α) (h : ∀ a b, f (g a b) = f a) (l : List β) (a : α) :
    f (l.foldl g a) = f a := by
  induction l generalizing a with
  | nil => rfl
  | cons b l ih => exact (ih (g a b)).trans (h a b)

/-- Clearing the configuration keeps what no plate, no region with its window and no boot state holds. -/
theorem State.clearConfig_keeps {γ : Type} (f : State → γ) (hplate : ∀ s p g, f (State.modPlate s p g) = f s)
    (hregion : ∀ s i g, f ((State.setReg s (channelAt i 0x18) 0).modRegion i g) = f s)
    (hboot : ∀ s g, f (State.modBoot s g) = f s) (s : State) : f s.clearConfig = f s := by
  unfold State.clearConfig
  dsimp only
  rw [hboot, foldl_keeps f _ fun s i => hregion s i _, foldl_keeps f _ fun s p => hplate s p _]

@[simp] theorem State.clearConfig_cores (s : State) : s.clearConfig.cores = s.cores :=
  s.clearConfig_keeps State.cores State.modPlate_cores (fun t i g => (State.modRegion_cores _ i g).trans (State.setReg_cores t _ 0)) State.modBoot_cores

@[simp] theorem State.clearConfig_nv (s : State) : s.clearConfig.nv = s.nv :=
  s.clearConfig_keeps State.nv State.modPlate_nv (fun t i g => (State.modRegion_nv _ i g).trans (State.setReg_nv t _ 0)) State.modBoot_nv

/-- Of the registers, clearing the configuration touches the windows of the regions only. -/
theorem State.reg_clearConfig (s : State) {a : Nat} (ha : ∀ i, a ≠ channelAt i 0x18) : s.clearConfig.reg a = s.reg a :=
  s.clearConfig_keeps (fun t => t.reg a) (fun t p g => t.reg_modPlate p g a)
    (fun t i g => (State.reg_modRegion _ i g a).trans (t.reg_setReg_ne 0 (ha i))) (fun t g => t.reg_modBoot a g)

/-- A failing image writes its result, clears the configuration and marks itself tried; the rest is the configuration state, the
pins and the module (R500, R501). -/
theorem State.bootFail_keeps {γ : Type} (f : State → γ) (hstate : ∀ s k, f (State.setCfgState s k) = f s)
    (hpins : ∀ s g, f (State.modPins s g) = f s) (hmod : ∀ s g, f (State.modMod s g) = f s) (s : State) (n : Fin 2) (r o : Nat) :
    f (s.bootFail n r o) = f ((s.setRf (confAt (8 + 8 * n.val)) 0 32 (r + o / 16 % 2 ^ 24 * 256)).clearConfig.modBoot fun b =>
      { b with tried := b.tried ||| BitVec.ofNat 2 (2 ^ n.val) }) := by
  unfold State.bootFail
  dsimp only
  split
  · rw [hstate]
  · rw [State.configError, hmod, hpins, hstate]

@[simp] theorem State.bootFail_loading (s : State) (n : Fin 2) (r o : Nat) : (s.bootFail n r o).boot.loading = false :=
  s.bootFail_keeps (fun t => t.boot.loading) (fun _ _ => rfl) (fun _ _ => rfl) (fun _ _ => rfl) n r o

@[simp] theorem State.bootFail_cores (s : State) (n : Fin 2) (r o : Nat) : (s.bootFail n r o).cores = s.cores := by
  rw [s.bootFail_keeps State.cores State.setCfgState_cores State.modPins_cores State.modMod_cores, State.modBoot_cores, State.clearConfig_cores,
    State.setRf, State.setReg_cores]

@[simp] theorem State.bootFail_nv (s : State) (n : Fin 2) (r o : Nat) : (s.bootFail n r o).nv = s.nv := by
  rw [s.bootFail_keeps State.nv State.setCfgState_nv State.modPins_nv State.modMod_nv, State.modBoot_nv, State.clearConfig_nv,
    State.setRf, State.setReg_nv]

/-- The result register of the image that fails holds what the failure wrote: clearing the configuration does not touch it. -/
theorem State.reg_bootFail_result (s : State) (n : Fin 2) (r o : Nat) :
    (s.bootFail n r o).reg (confAt (8 + 8 * n.val)) =
      withBits (s.reg (confAt (8 + 8 * n.val))) 0 32 (r + o / 16 % 2 ^ 24 * 256) := by
  have hwindow (i : RegionId) : confAt (8 + 8 * n.val) ≠ channelAt i 0x18 := confAt_ne_channelAt _ i 0x18 (by decide)
  rw [s.bootFail_keeps (fun t => t.reg (confAt (8 + 8 * n.val)))
    (fun t k => t.reg_setCfgState_ne k (confAt_result_ne_status n)) (fun _ _ => rfl) (fun _ _ => rfl), State.reg_modBoot,
    State.reg_clearConfig _ hwindow, State.setRf, State.reg_setReg_same]

/-- CFG_RESULT of the image that fails shows the reason (R500). -/
theorem State.reason_bootFail (s : State) (n : Fin 2) (r o : Nat) :
    (s.bootFail n r o).rf (confAt (8 + 8 * n.val)) 0 8 = r % 256 := by
  rw [State.rf, State.reg_bootFail_result, bitsOf_withBits_low _ _ (by decide) (by decide)]
  exact Nat.add_mul_mod_self_right _ _ _

/-! ### A stream command with operands out of range -/

/-- No segment ends between two places of one segment. -/
theorem State.rollKey_self (s : State) (i : Nat) : s.rollKey i i = s := by
  rw [State.rollKey, Nat.sub_self]
  rfl

/-- A command that is the next one of the body, all in one segment, with operands out of range fails the image with COMMAND. -/
theorem State.stream_of_not_ok {s : State} {fits : Bool} {len : Nat} (f : State → State) (hload : s.boot.loading = true)
    (hword : wordOk s.cmdWord = true) (hfits : fits = true) (hbody : s.boot.offset + len ≤ s.boot.bodyLen)
    (hseg : (s.boot.offset + len - 1) / 2 ^ 26 = s.boot.offset / 2 ^ 26) :
    s.stream fits len false f = s.bootFail s.boot.image 0x19 s.boot.offset := by
  have hroll : s.endSegments (s.boot.offset + len - 1) = s := by rw [State.endSegments, hseg, State.rollKey_self]
  simp only [State.stream, hroll, hload, hword, hfits, Nat.not_lt.mpr hbody, Bool.not_true, Bool.not_false, Bool.false_eq_true,
    if_true, if_false]

/-- A window that is set makes REGION's operands out of range, whatever else they say (R493). -/
theorem streamRegion_of_window {s : State} {r : Fin 8} {w : Word} (hset : bitOf (s.reg (channelAt ⟨s.boot.plate, r⟩ 0x18)) 49 = true)
    (hload : s.boot.loading = true) (hword : wordOk s.cmdWord = true)
    (hfits : s.spells 0 (cmdBytes 0x10 r.val ++ leBytes 8 w.toNat) = true) (hbody : s.boot.offset + 12 ≤ s.boot.bodyLen)
    (hseg : s.boot.offset % 2 ^ 26 + 12 ≤ 2 ^ 26) :
    streamRegion s r w = s.bootFail s.boot.image 0x19 s.boot.offset := by
  unfold streamRegion
  dsimp only
  rw [hset, Bool.not_true, Bool.and_false]
  exact State.stream_of_not_ok _ hload hword hfits hbody (by omega)

/-- Settles O44: the window that is set makes the operands out of range, so the image fails with COMMAND. -/
theorem regionWindowIsSetOnce : Obligations.RegionWindowIsSetOnce := by
  intro r w s hload hset hword hfits hbody hseg
  have hfail := streamRegion_of_window hset hload hword hfits hbody hseg
  refine ⟨settle (streamRegion s r w), rfl, ?_, ?_, ?_, ?_⟩
  · rw [State.rf, settle_reg, hfail]
    exact State.reason_bootFail s s.boot.image 0x19 s.boot.offset
  · rw [settle_boot, hfail, State.bootFail_loading]
  · rw [settle_cores, hfail, State.bootFail_cores]
  · rw [settle_nv, hfail, State.bootFail_nv]

end Sys2Proof.Machine
end
